-- ==== Sys2Proof/Syntax.lean ====
section
/-! DEFINITION. The instructions and events of the LX9: one constructor per row of the operation table.

A row with an encoding carries its fields, each a natural number below the width `WellFormed` states.
A row without one is an event (95_what_each_step_holds.md); its arguments name what it strikes. -/

namespace Sys2Proof

/-- The fields that every vector-class word shares (R30, R34): `av` the AV bit, `tk` the token code,
`c` the convoy bit, `msk` the mask selector. A word that has no such field holds 0 there. -/
structure VHdr where
  av : Nat
  tk : Nat
  c : Nat
  msk : Nat
  deriving DecidableEq, Repr

/-- The fields that the X-format words share (R263): the token code and the predicate. -/
structure XHdr where
  tk : Nat
  msk : Nat
  deriving DecidableEq, Repr

/-- One constructor per row of the operation table. -/
inductive Instr where
  /-- R155: Adds the sign-extended 16-bit immediate to gA and writes gD. -/
  | addi (d a i : Nat)
  /-- R155: ANDs gA with the zero-extended immediate into gD. -/
  | andi (d a i : Nat)
  /-- R155: ORs gA with the zero-extended immediate into gD. -/
  | ori (d a i : Nat)
  /-- R155: XORs gA with the zero-extended immediate into gD. -/
  | xori (d a i : Nat)
  /-- R155: Sets gD to 1 when gA is below the immediate, signed, and to 0 otherwise. -/
  | slti (d a i : Nat)
  /-- R155: Sets gD to 1 when gA is below the immediate, natural, and to 0 otherwise. -/
  | sltiu (d a i : Nat)
  /-- R42: Shifts gA left by the immediate amount into gD. -/
  | slli (d a s : Nat)
  /-- R42: Shifts gA right, logical, by the immediate amount into gD. -/
  | srli (d a s : Nat)
  /-- R42: Shifts gA right, arithmetic, by the immediate amount into gD. -/
  | srai (d a s : Nat)
  /-- R155: Writes the sign-extended immediate times 2^16 into gD. -/
  | lui (d i : Nat)
  /-- R155: Writes the instruction's PC plus the sign-extended immediate times 2^16 into gD. -/
  | addpc (d i : Nat)
  /-- R157: Jumps to gA plus the immediate with bits [1:0] cleared and writes the return address into gD. -/
  | jalr (d a i : Nat)
  /-- R157: Jumps by a signed 26-bit word offset. -/
  | j (o : Nat)
  /-- R157: Writes PC+4 into g31 and jumps by a signed 26-bit word offset. -/
  | jal (o : Nat)
  /-- R157: Branches by the word offset when gA equals gB. -/
  | beq (a b o : Nat)
  /-- R157: Branches by the word offset when gA differs from gB. -/
  | bne (a b o : Nat)
  /-- R157: Branches when gA is below gB, signed. -/
  | blt (a b o : Nat)
  /-- R157: Branches when gA is not below gB, signed. -/
  | bge (a b o : Nat)
  /-- R157: Branches when gA is below gB, natural. -/
  | bltu (a b o : Nat)
  /-- R157: Branches when gA is not below gB, natural. -/
  | bgeu (a b o : Nat)
  /-- R158: Loads one byte, sign-extended, into gD after a probe. -/
  | lb (d a i : Nat)
  /-- R158: Loads one byte, zero-extended, into gD. -/
  | lbu (d a i : Nat)
  /-- R158: Loads two bytes, sign-extended, into gD. -/
  | lh (d a i : Nat)
  /-- R158: Loads two bytes, zero-extended, into gD. -/
  | lhu (d a i : Nat)
  /-- R158: Loads four bytes, sign-extended, into gD. -/
  | lw (d a i : Nat)
  /-- R158: Loads four bytes, zero-extended, into gD. -/
  | lwu (d a i : Nat)
  /-- R158: Loads eight bytes into gD. -/
  | ld (d a i : Nat)
  /-- R158: Loads four bytes into an f-register. -/
  | flw (d a i : Nat)
  /-- R158: Stores the low byte of gD after a probe. -/
  | sb (d a i : Nat)
  /-- R158: Stores the low two bytes of gD. -/
  | sh (d a i : Nat)
  /-- R158: Stores the low four bytes of gD. -/
  | sw (d a i : Nat)
  /-- R158: Stores the eight bytes of gD. -/
  | sd (d a i : Nat)
  /-- R158: Stores the four bytes of an f-register. -/
  | fsw (d a i : Nat)
  /-- R156: Writes gA plus gB into gD. -/
  | add (d a b : Nat)
  /-- R156: Writes gA minus gB into gD. -/
  | sub (d a b : Nat)
  /-- R156: Writes the bitwise AND of gA and gB into gD. -/
  | and (d a b : Nat)
  /-- R156: Writes the bitwise OR of gA and gB into gD. -/
  | or (d a b : Nat)
  /-- R156: Writes the bitwise XOR of gA and gB into gD. -/
  | xor (d a b : Nat)
  /-- R156: Shifts gA left by gB[5:0] into gD. -/
  | sll (d a b : Nat)
  /-- R156: Shifts gA right, logical, by gB[5:0] into gD. -/
  | srl (d a b : Nat)
  /-- R156: Shifts gA right, arithmetic, by gB[5:0] into gD. -/
  | sra (d a b : Nat)
  /-- R156: Sets gD to 1 when gA is below gB, signed. -/
  | slt (d a b : Nat)
  /-- R156: Sets gD to 1 when gA is below gB, natural. -/
  | sltu (d a b : Nat)
  /-- R156: Writes bits [63:0] of gA times gB into gD. -/
  | mul (d a b : Nat)
  /-- R156: Writes the high 64 bits of the signed product into gD. -/
  | mulh (d a b : Nat)
  /-- R156: Writes the high 64 bits of the natural product into gD. -/
  | mulhu (d a b : Nat)
  /-- R156: Writes the signed quotient, clamped as stated, into gD. -/
  | div (d a b : Nat)
  /-- R156: Writes the natural quotient into gD. -/
  | divu (d a b : Nat)
  /-- R156: Writes the signed remainder into gD. -/
  | rem (d a b : Nat)
  /-- R156: Writes the natural remainder into gD. -/
  | remu (d a b : Nat)
  /-- R156: Writes the signed minimum of gA and gB into gD. -/
  | min (d a b : Nat)
  /-- R156: Writes the signed maximum of gA and gB into gD. -/
  | max (d a b : Nat)
  /-- R156: Writes the natural minimum of gA and gB into gD. -/
  | minu (d a b : Nat)
  /-- R156: Writes the natural maximum of gA and gB into gD. -/
  | maxu (d a b : Nat)
  /-- R156: Writes the count of leading zero bits of gA into gD. -/
  | clz (d a : Nat)
  /-- R156: Writes the count of trailing zero bits of gA into gD. -/
  | ctz (d a : Nat)
  /-- R156: Writes the count of set bits of gA into gD. -/
  | popc (d a : Nat)
  /-- R159: Adds two fp32 f-registers under the given rounding mode, setting flags. -/
  | fadd (d a b r : Nat)
  /-- R159: Subtracts two fp32 f-registers. -/
  | fsub (d a b r : Nat)
  /-- R159: Multiplies two fp32 f-registers. -/
  | fmul (d a b r : Nat)
  /-- R159: Divides two fp32 f-registers. -/
  | fdiv (d a b r : Nat)
  /-- R159: Takes the fp32 square root of fA. -/
  | fsqrt (d a r : Nat)
  /-- R159: Writes the fp32 minimum with the NaN rules stated. -/
  | fmin (d a b : Nat)
  /-- R159: Writes the fp32 maximum with the NaN rules stated. -/
  | fmax (d a b : Nat)
  /-- R159: Sets gD to 1 when fA equals fB, quietly. -/
  | feq (d a b : Nat)
  /-- R159: Sets gD to 1 when fA is below fB, signalling on NaN. -/
  | flt (d a b : Nat)
  /-- R159: Sets gD to 1 when fA is at most fB, signalling on NaN. -/
  | fle (d a b : Nat)
  /-- R159: Converts fA to a 64-bit signed integer in gD, saturating with NV. -/
  | fcvtGF (d a r : Nat)
  /-- R159: Converts signed gA to fp32 in fD. -/
  | fcvtFG (d a r : Nat)
  /-- R159: Copies the bits of fA zero-extended into gD. -/
  | fmvGf (d a : Nat)
  /-- R159: Copies gA[31:0] into fD. -/
  | fmvFg (d a : Nat)
  /-- R160: Atomically adds gB to memory at gA at the scope's point and returns the old value. -/
  | amoadd (d a b s w : Nat)
  /-- R160: Atomically ORs gB into memory and returns the old value. -/
  | amoor (d a b s w : Nat)
  /-- R160: Atomically ANDs gB into memory and returns the old value. -/
  | amoand (d a b s w : Nat)
  /-- R160: Atomically stores the signed minimum and returns the old value. -/
  | amomin (d a b s w : Nat)
  /-- R160: Atomically stores the signed maximum and returns the old value. -/
  | amomax (d a b s w : Nat)
  /-- R160: Atomically swaps gB with memory and returns the old value. -/
  | amoswap (d a b s w : Nat)
  /-- R160: Atomically writes gB when memory equals gD and returns the old value in gD. -/
  | amocas (d a b s w : Nat)
  /-- R160: Loads with acquire semantics at the given scope. -/
  | lda (d a s w : Nat)
  /-- R160: Performs a release at the given scope, then stores gB. -/
  | str (a b s w : Nat)
  /-- R142: Performs a release and an acquire at the scope, ordering all earlier accesses before all later ones. -/
  | fence (s : Nat)
  /-- R143: Waits until every earlier VMU store element and vector AMO is locally performed. -/
  | lsync
  /-- R162: Releases, arrives at the scope's barrier and waits for the generation to end, then acquires. -/
  | bar (s : Nat)
  /-- R163: Reads a watched word and returns it when it differs from gB, otherwise waits. -/
  | waitw (d a b s : Nat)
  /-- R164: Pushes a token from the scalar engine to the partner engine, trapping TKOVF when full. -/
  | tkpush (a : Nat)
  /-- R164: Pops a token from the partner engine to the scalar engine, waiting when the count is 0. -/
  | tkpop (a : Nat)
  /-- R165: Releases at .pkg, reads the argument block and creates a hart on the named core or returns a failure code. -/
  | spawn (d a b : Nat)
  /-- R70: Stops fetch, drains the queues, releases at .sys and frees the hart's slot and resources. -/
  | halt
  /-- R167: Joins or creates a gang, assigns a member index and obtains the gang's grant. -/
  | gangJoin (d a b : Nat)
  /-- R167: Waits for addressed multicasts to land and removes the hart from its gang. -/
  | gangLeave
  /-- R168: Ends the hart's sequencer turn with credit 0. -/
  | yield
  /-- R168: Returns the old priority level and sets a new one, limited in user mode. -/
  | prio (d a : Nat)
  /-- R171: Reads a sysreg into gD, waiting for the queues for the sysregs R153 names. -/
  | sysrd (d s : Nat)
  /-- R171: Writes gA to a sysreg under its access codes. -/
  | syswr (a s : Nat)
  /-- R171: Reads a sysreg into gD and writes gA to it indivisibly. -/
  | sysswap (d a s : Nat)
  /-- R172: Raises SYSCALL precisely with the code in TRAPVAL. -/
  | trap (c : Nat)
  /-- R173: Restores mode and IE, returns to TRAPPC and restarts stopped queues. -/
  | retT
  /-- R174: Removes every translation of one context for one 64 KiB page and waits for completion. -/
  | invpg (a : Nat)
  /-- R174: Removes every translation of one context or of all contexts and waits for completion. -/
  | invall (a : Nat)
  /-- R175: Stops the engines and writes the hart's vector state into a frame, then resets that state. -/
  | vframeSave (d a : Nat)
  /-- R176: Checks and consumes a frame, obtains a grant and loads the saved vector state. -/
  | vframeRestore (d a : Nat)
  /-- R172: Raises BKPT precisely with the code in TRAPVAL. -/
  | bkpt (c : Nat)
  /-- R81: Sets VTYPE, obtains a grant from the Yard, dispatches a re-deal if needed and returns VL. -/
  | vsetvl (d a b : Nat)
  /-- R76: Sets the vector register count and bank split after older register users retire. -/
  | vcfg (d a : Nat)
  /-- R169: Reads 64 bits of a mask register from element gB into gD after its writers. -/
  | vmread (d a b : Nat)
  /-- R169: Counts the set bits of a mask register below VL into gD. -/
  | vmpopc (d a : Nat)
  /-- R377: Opens a step with a deadline and work estimate, or refuses with a code. -/
  | stepBegin (d a b : Nat)
  /-- R378: Waits for all older instructions, closes the step, records learning and returns the slack. -/
  | stepEnd (d : Nat)
  /-- R379: Returns the time remaining to the open step's deadline. -/
  | stepQuery (d : Nat)
  /-- R367: Sets or clears COLD on a run of lossless frames and returns the count. -/
  | weirHint (d a b : Nat)
  /-- R368: Reports the compression state of the frame behind a virtual address. -/
  | weirQuery (d a : Nat)
  /-- R204: Adds two vector operands element by element. -/
  | vaddV (h : VHdr) (d a b : Nat)
  /-- R204: Adds a scalar to each element of a vector. -/
  | vaddVX (h : VHdr) (d a b : Nat)
  /-- R204: Subtracts two vector operands element by element. -/
  | vsubV (h : VHdr) (d a b : Nat)
  /-- R204: Subtracts a scalar from each element. -/
  | vsubVX (h : VHdr) (d a b : Nat)
  /-- R204: Subtracts each element from a scalar. -/
  | vrsub (h : VHdr) (d a b : Nat)
  /-- R204: Takes the element-wise minimum of two vectors. -/
  | vminV (h : VHdr) (d a b : Nat)
  /-- R204: Takes the minimum of each element and a scalar. -/
  | vminVX (h : VHdr) (d a b : Nat)
  /-- R204: Takes the element-wise maximum of two vectors. -/
  | vmaxV (h : VHdr) (d a b : Nat)
  /-- R204: Takes the maximum of each element and a scalar. -/
  | vmaxVX (h : VHdr) (d a b : Nat)
  /-- R204: Bitwise AND of two vectors. -/
  | vandV (h : VHdr) (d a b : Nat)
  /-- R204: Bitwise AND of each element with a scalar. -/
  | vandVX (h : VHdr) (d a b : Nat)
  /-- R204: Bitwise OR of two vectors. -/
  | vorV (h : VHdr) (d a b : Nat)
  /-- R204: Bitwise OR of each element with a scalar. -/
  | vorVX (h : VHdr) (d a b : Nat)
  /-- R204: Bitwise XOR of two vectors. -/
  | vxorV (h : VHdr) (d a b : Nat)
  /-- R204: Bitwise XOR of each element with a scalar. -/
  | vxorVX (h : VHdr) (d a b : Nat)
  /-- R204: Shifts each element left by a vector amount. -/
  | vsllV (h : VHdr) (d a b : Nat)
  /-- R204: Shifts each element left by a scalar amount. -/
  | vsllVX (h : VHdr) (d a b : Nat)
  /-- R204: Shifts each element right, logical, by a vector amount. -/
  | vsrlV (h : VHdr) (d a b : Nat)
  /-- R204: Shifts each element right, logical, by a scalar amount. -/
  | vsrlVX (h : VHdr) (d a b : Nat)
  /-- R204: Shifts each element right, arithmetic, by a vector amount. -/
  | vsraV (h : VHdr) (d a b : Nat)
  /-- R204: Shifts each element right, arithmetic, by a scalar amount. -/
  | vsraVX (h : VHdr) (d a b : Nat)
  /-- R204: Saturating add of two vectors. -/
  | vsaddV (h : VHdr) (d a b : Nat)
  /-- R204: Saturating add of a scalar to each element. -/
  | vsaddVX (h : VHdr) (d a b : Nat)
  /-- R204: Saturating subtract of two vectors. -/
  | vssubV (h : VHdr) (d a b : Nat)
  /-- R204: Saturating subtract of a scalar from each element. -/
  | vssubVX (h : VHdr) (d a b : Nat)
  /-- R204: Rounded average of two vectors. -/
  | vavgV (h : VHdr) (d a b : Nat)
  /-- R204: Rounded average of each element and a scalar. -/
  | vavgVX (h : VHdr) (d a b : Nat)
  /-- R204: Absolute value of each element. -/
  | vabs (h : VHdr) (d a : Nat)
  /-- R204: Negation of each element. -/
  | vneg (h : VHdr) (d a : Nat)
  /-- R209: Sets mask bits where two vectors are equal. -/
  | vseqV (h : VHdr) (d a b : Nat)
  /-- R209: Sets mask bits where elements equal a scalar. -/
  | vseqVX (h : VHdr) (d a b : Nat)
  /-- R209: Sets mask bits where two vectors differ. -/
  | vsneV (h : VHdr) (d a b : Nat)
  /-- R209: Sets mask bits where elements differ from a scalar. -/
  | vsneVX (h : VHdr) (d a b : Nat)
  /-- R209: Sets mask bits where vA is below vB. -/
  | vsltV (h : VHdr) (d a b : Nat)
  /-- R209: Sets mask bits where elements are below a scalar. -/
  | vsltVX (h : VHdr) (d a b : Nat)
  /-- R209: Sets mask bits where vA is at most vB. -/
  | vsleV (h : VHdr) (d a b : Nat)
  /-- R209: Sets mask bits where elements are at most a scalar. -/
  | vsleVX (h : VHdr) (d a b : Nat)
  /-- R209: Sets mask bits where vA is above vB. -/
  | vsgtV (h : VHdr) (d a b : Nat)
  /-- R209: Sets mask bits where elements are above a scalar. -/
  | vsgtVX (h : VHdr) (d a b : Nat)
  /-- R209: Sets mask bits where vA is at least vB. -/
  | vsgeV (h : VHdr) (d a b : Nat)
  /-- R209: Sets mask bits where elements are at least a scalar. -/
  | vsgeVX (h : VHdr) (d a b : Nat)
  /-- R210: Selects between vA and vB per element under the selector mask. -/
  | vselV (h : VHdr) (d a b : Nat)
  /-- R210: Selects between vA and a scalar per element under the selector mask. -/
  | vselVX (h : VHdr) (d a b : Nat)
  /-- R210: Copies vA into vD for active elements. -/
  | vmvV (h : VHdr) (d a : Nat)
  /-- R210: Writes a scalar into every active element of vD. -/
  | vmvVX (h : VHdr) (d b : Nat)
  /-- R212: Converts each element from the source kind in VB to VTYPE.KIND. -/
  | vcvt (h : VHdr) (d a b : Nat)
  /-- R204: Multiplies two vectors element by element. -/
  | vmulV (h : VHdr) (d a b : Nat)
  /-- R204: Multiplies each element by a scalar. -/
  | vmulVX (h : VHdr) (d a b : Nat)
  /-- R204: High half of the product of two vectors. -/
  | vmulhV (h : VHdr) (d a b : Nat)
  /-- R204: High half of the product of each element and a scalar. -/
  | vmulhVX (h : VHdr) (d a b : Nat)
  /-- R204: Adds the product of two vectors to vD, rounded once. -/
  | vmaccV (h : VHdr) (d a b : Nat)
  /-- R204: Adds the product of each element and a scalar to vD. -/
  | vmaccVX (h : VHdr) (d a b : Nat)
  /-- R204: Divides two vectors element by element. -/
  | vdivV (h : VHdr) (d a b : Nat)
  /-- R204: Divides each element by a scalar. -/
  | vdivVX (h : VHdr) (d a b : Nat)
  /-- R204: Integer remainder of two vectors. -/
  | vremV (h : VHdr) (d a b : Nat)
  /-- R204: Integer remainder of each element by a scalar. -/
  | vremVX (h : VHdr) (d a b : Nat)
  /-- R204: Saturating rounded product of two vectors. -/
  | vsmulV (h : VHdr) (d a b : Nat)
  /-- R204: Saturating rounded product of each element and a scalar. -/
  | vsmulVX (h : VHdr) (d a b : Nat)
  /-- R222: Computes 2^x per element by the integer procedure. -/
  | vexp2 (h : VHdr) (d a : Nat)
  /-- R223: Computes log2(x) per element by the integer procedure. -/
  | vlog2 (h : VHdr) (d a : Nat)
  /-- R211: ANDs two mask registers. -/
  | vmand (h : VHdr) (d a b : Nat)
  /-- R211: ORs two mask registers. -/
  | vmor (h : VHdr) (d a b : Nat)
  /-- R211: XORs two mask registers. -/
  | vmxor (h : VHdr) (d a b : Nat)
  /-- R211: ANDs a mask with the complement of another. -/
  | vmandn (h : VHdr) (d a b : Nat)
  /-- R211: Complements a mask register. -/
  | vmnot (h : VHdr) (d a : Nat)
  /-- R213: Moves elements up by a scalar amount. -/
  | vslideup (h : VHdr) (d a b : Nat)
  /-- R213: Moves elements down by a scalar amount, filling with zero bits. -/
  | vslidedn (h : VHdr) (d a b : Nat)
  /-- R214: Gathers elements of vA by the indices in vB. -/
  | vperm (h : VHdr) (d a b : Nat)
  /-- R215: Packs the selected elements of vA to the front of vD. -/
  | vcompress (h : VHdr) (d a : Nat)
  /-- R216: Writes the prefix count of set mask bits per element. -/
  | viota (h : VHdr) (d a : Nat)
  /-- R216: Writes each element's index. -/
  | vindex (h : VHdr) (d : Nat)
  /-- R217: Counts earlier active occurrences of each element's value. -/
  | vconfl (h : VHdr) (d a : Nat)
  /-- R218: Reduces the active elements under the sub-operation into vD[0]. -/
  | vred (h : VHdr) (d a b : Nat)
  /-- R219: Writes the inclusive prefix combination of active elements. -/
  | vscan (h : VHdr) (d a b : Nat)
  /-- R220: Sums floats sequentially in element order into vD[0]. -/
  | vredoF (h : VHdr) (d a : Nat)
  /-- R221: Adds the active elements exactly into an xacc register. -/
  | vredx (h : VHdr) (d a : Nat)
  /-- R291: Quantises a row into MX element codes and E8M0 block scales. -/
  | mxq (h : VHdr) (d a b : Nat)
  /-- R292: Dequantises MX element codes with their block scales. -/
  | mxdq (h : VHdr) (d a b : Nat)
  /-- R293: Converts elements between float and storage kinds in class B. -/
  | fcvtV (h : VHdr) (d a b : Nat)
  /-- R294: Writes each block's largest exponent as an E8M0 code. -/
  | bsexp (h : VHdr) (d a b : Nat)
  /-- R295: At dispatch sets SRSEED to gB and SRCTR to 0. -/
  | srseed (h : VHdr) (b : Nat)
  /-- R295: At dispatch advances SRCTR by gB[31:0]. -/
  | srskip (h : VHdr) (b : Nat)
  /-- R296: Clears an exact accumulator. -/
  | xaccClr (h : VHdr) (d : Nat)
  /-- R296: Adds the 136-bit integer in elements 0 to 4 of vA into an xacc. -/
  | xaccAdd (h : VHdr) (d a : Nat)
  /-- R297: Reads an xacc into vD, converted or raw. -/
  | xaccRd (h : VHdr) (d a b : Nat)
  /-- R337: Decodes plane-run coded blocks from vA into vD in 256-element chunks. -/
  | xdec (h : VHdr) (d a : Nat)
  /-- R344: Writes the decoder state of the stopped XDEC to memory. -/
  | xstateSave (h : VHdr) (b : Nat)
  /-- R344: Loads a checked decoder state record into the stopped XDEC. -/
  | xstateRestore (h : VHdr) (b : Nat)
  /-- R233: Loads a unit-stride row of elements after an all-or-nothing probe. -/
  | vld (h : VHdr) (d a : Nat)
  /-- R233: Loads elements at a bit stride. -/
  | vlds (h : VHdr) (d a b : Nat)
  /-- R233: Gathers elements by index. -/
  | vldx (h : VHdr) (d a b : Nat)
  /-- R234: Loads unit-stride, trimming at the first failing element after the first and setting mF. -/
  | vldff (h : VHdr) (d a f : Nat)
  /-- R235: Loads elements in order, each an acquire at the scope. -/
  | vlda (h : VHdr) (d a s : Nat)
  /-- R233: Stores a unit-stride row of elements. -/
  | vst (h : VHdr) (d a : Nat)
  /-- R233: Stores elements at a bit stride. -/
  | vsts (h : VHdr) (d a b : Nat)
  /-- R233: Scatters elements by index. -/
  | vstx (h : VHdr) (d a b : Nat)
  /-- R235: Releases at the scope, then stores elements in order. -/
  | vstr (h : VHdr) (d a s : Nat)
  /-- R236: Atomically adds each element into memory by index, returning old values. -/
  | vamoadd (h : VHdr) (d a b : Nat)
  /-- R236: Atomically ORs each element into memory by index. -/
  | vamoor (h : VHdr) (d a b : Nat)
  /-- R236: Atomically ANDs each element into memory by index. -/
  | vamoand (h : VHdr) (d a b : Nat)
  /-- R236: Atomically stores the minimum per element by index. -/
  | vamomin (h : VHdr) (d a b : Nat)
  /-- R236: Atomically stores the maximum per element by index. -/
  | vamomax (h : VHdr) (d a b : Nat)
  /-- R236: Atomically swaps each element with memory by index. -/
  | vamoswap (h : VHdr) (d a b : Nat)
  /-- R236: Atomically compares and swaps each element by index. -/
  | vamocas (h : VHdr) (d a b : Nat)
  /-- R246: Opens a strip with a base element index after older vector work retires. -/
  | stripBegin (h : VHdr) (a : Nat)
  /-- R246: Probes and performs every buffered byte of the strip and closes it. -/
  | stripCommit (h : VHdr)
  /-- R246: Discards the strip buffer and closes the strip. -/
  | stripAbort (h : VHdr)
  /-- R266: Accumulates a 64x128x8 outer product into a tile on the exact grid. -/
  | opa (x : XHdr) (t a b : Nat)
  /-- R266: Accumulates a sliding outer product for correlation or convolution. -/
  | opas (x : XHdr) (t a b : Nat)
  /-- R272: Zeroes the active rows of a tile and clears its flags. -/
  | tzero (x : XHdr) (t : Nat)
  /-- R268: Reads tile accumulators into a vector register with one rounding. -/
  | trd (x : XHdr) (t a b : Nat)
  /-- R269: Writes vector elements into tile accumulators on the grid. -/
  | twr (x : XHdr) (t a b : Nat)
  /-- R271: Rescales the active rows of a tile by a power of two. -/
  | tshift (x : XHdr) (t s : Nat)
  /-- R270: Adds a source tile into the destination tile row by row. -/
  | tmerge (x : XHdr) (t a : Nat)
  /-- R270: Merges two tiles aligned to the larger row maximum in column 127. -/
  | tmergeAtt (x : XHdr) (t a : Nat)
  /-- R272: Moves a tile's flags into the instruction's sticky flags and clears them. -/
  | tflags (x : XHdr) (t : Nat)
  /-- R267: Assigns a tile to the hart, waiting until it is free. -/
  | talloc (x : XHdr) (t : Nat)
  /-- R267: Releases a tile the hart holds. -/
  | tfree (x : XHdr) (t : Nat)
  /-- R312: Streams N elements from memory into a vector register through a slot. -/
  | sld (k q d a b : Nat)
  /-- R312: Streams N elements of a vector register to memory. -/
  | sst (k q d a b : Nat)
  /-- R314: Copies N elements memory to memory, transposing between layouts. -/
  | scpy (k q d a b : Nat)
  /-- R312: Streams the top p planes of bit-sliced data into a register. -/
  | spln (k q d a b : Nat)
  /-- R313: Requests a gang multicast load into the same register of every member. -/
  | sldG (k q d a b : Nat)
  /-- R315: Gathers key-value tokens through a block table into a register. -/
  | sind (k q d a b : Nat)
  /-- R316: Loads the tokens a pattern record selects into a register. -/
  | spat (k q d a : Nat)
  /-- R317: Binds a slot to a register for a ring stream consumed by later readers. -/
  | sbind (k q d a b : Nat)
  /-- R319: Ends a binding after its consumers retire and frees the slot. -/
  | sunbind (k q : Nat)
  /-- R320: Sends bytes to a target context and adds a completion increment there. -/
  | ssend (k q d a b : Nat)
  /-- R323: Waits for a slot's transfers to complete or its EA to reach a threshold. -/
  | swait (q b : Nat)
  /-- R323: Returns a slot's elements-available counter. -/
  | savail (q d : Nat)
  /-- R323: Returns slot status, the STALE count or a context generation by selector. -/
  | sstat (q d b : Nat)
  /-- R50: A word with an unassigned or permanently illegal encoding traps precisely with ILLINS. -/
  | illegalEncoding (w : Nat)
  /-- R17: A dispatch stalled on a full queue proceeds once an entry frees. -/
  | queueEntryFree (h q : Nat)
  /-- R92: The sequencer starts a convoy, probing each member's access in order. -/
  | convoyStart (h : Nat)
  /-- R94: At an element-group boundary the sequencer chooses a ready hart and runs one element group of its convoy. -/
  | elementGroup (core : Nat)
  /-- R95: A ready hart idle for 2^20 cycles receives one element group ahead of all levels. -/
  | starvationGrant (core h : Nat)
  /-- R84: A re-deal entry issues and moves kept operands and masks to the new grant. -/
  | redeal (h : Nat)
  /-- R87: Spilled groups are refilled into their old grant indices when enough groups can be had at vector issue. -/
  | groupRefill (h : Nat)
  /-- R72: A waiting hart's lane groups are parked once its earlier vector instructions retire. -/
  | parking (h : Nat)
  /-- R80: A waiting joiner retries the Yard grant and joins once it holds GG groups. -/
  | gangJoinRetry (h : Nat)
  /-- R100: At a scalar boundary the hart takes a pending engine fault, setting VCP and ESTART. -/
  | takeEngineFault (h : Nat)
  /-- R180: At a scalar boundary the hart takes the highest enabled pending interrupt. -/
  | takeInterrupt (h : Nat)
  /-- R108: The slice timer reaches EFFECTIVE and raises PREEMPT on the hart, restarting the slice. -/
  | preempt (h : Nat)
  /-- R163: A write to the watched line at the scope's point wakes WAITW to read again. -/
  | waitwWake (h : Nat)
  /-- R164: A token arriving in the partner-to-scalar FIFO ends a TKPOP wait. -/
  | tkpopWake (h : Nat)
  /-- R323: The slot's transfers complete or EA reaches the threshold and SWAIT returns. -/
  | swaitWake (h : Nat)
  /-- R267: A freed tile is assigned to the waiting TALLOC or restore of highest priority. -/
  | tileGrant (core t : Nat)
  /-- R303: A stream engine probes and performs one burst of a transfer and advances its progress and EA. -/
  | streamBurst (h q : Nat)
  /-- R313: Multicast k issues once every current member has issued its k-th SLD.G. -/
  | sldGMulticast (ctx die num : Nat)
  /-- R320: An SSEND burst reaches the home die, is checked for staleness and written at home, with the completion after the last. -/
  | ssendBurstArrival (h q : Nat)
  /-- R345: An expander decodes and checks one block into its buffer. -/
  | expanderBlock (h : Nat)
  /-- R346: XDEC writes one element group of decoded output when its conditions hold. -/
  | xdecWriteStep (h : Nat)
  /-- R353: When free sectors rise the pool admits held writes in order while they fit. -/
  | admitHeldWrite (die pool : Nat)
  /-- R356: The Weir recompresses a cold frame at highest effort and returns freed sectors. -/
  | recompress (die pool : Nat)
  /-- R355: The Weir moves a cold frame to a free host slot and returns its sectors. -/
  | migrate (die pool : Nat)
  /-- R355: With recompression and migration exhausted the Weir raises WEIRLOW once. -/
  | balloon (die pool : Nat)
  /-- R359: A held write's WEIRBOUND expires and it takes a held-write table entry and is reported. -/
  | weirboundExpiry (die id : Nat)
  /-- R360: A load of WOOSREC returns the oldest delivered entry and latches its address in WOOSADDR. -/
  | woosrecRead (die d : Nat)
  /-- R360: WOOSACT ACT 01 admits the held write out of turn if it fits above 128 sectors, else restarts WEIRBOUND. -/
  | replay (die w : Nat)
  /-- R361: WOOSACT ACT 10 drops the held write and delivers its outcome to the writer. -/
  | cancel (die w : Nat)
  /-- R366: WCMD OP 1 zeroes a frame and frees its sectors and host slot. -/
  | discard (die fr : Nat)
  /-- R366: WCMD OP 2 makes a frame class none, recalling it first, or is refused. -/
  | setnone (die fr : Nat)
  /-- R366: WCMD OP 3 makes a frame class lossless with its bytes unchanged. -/
  | setlossless (die fr : Nat)
  /-- R366: WCMD OP 4 recalls a migrated frame, or is refused if it does not fit. -/
  | weirRecall (die fr : Nat)
  /-- R366: A WCMD with an unassigned OP ends with status invalid. -/
  | wcmdInvalid (die : Nat)
  /-- R366: A running Weir command ends and WCMDST takes its outcome. -/
  | weirCommandDone (die : Nat)
  /-- R350: Setting WPCFG.ENABLE fixes RATIO, builds the sector map and makes every frame lossless zero. -/
  | poolEnable (die pool : Nat)
  /-- R373: A store to a device register with no behaviour of its own updates its fields under the access rules. -/
  | deviceRegisterWrite (pa w : Nat)
  /-- R152: Setting STATUS.SVH on one hart clears it on every other hart of the context. -/
  | svhSet (h : Nat)
  /-- R107: A write to TSLICE.SLICE sets the slice for every hart of the context. -/
  | tsliceWrite (h w : Nat)
  /-- R23: A write to TKROUTE sets its partner fields, leaving any field set to its own engine unchanged. -/
  | tkrouteWrite (h w : Nat)
  /-- R251: SBCAP.FLUSH commits the open strip's buffer and keeps the strip open. -/
  | flush (h : Nat)
  /-- R251: SBCAP.DROP discards the open strip's buffer and keeps the strip open. -/
  | drop (h : Nat)
  /-- R183: TRAPCAUSE ACT 01 resumes or discards the frozen master that TRAPVAL names. -/
  | unfreeze (hd : Nat)
  /-- R183: TRAPCAUSE ACT 10 destroys the frozen master's context and frees its resources. -/
  | destroy (hd : Nat)
  /-- R420: An uncorrectable array error sets HERR and freezes, drops or raises STRIPFATAL as located. The master of the read is
  the hart in bits 12:0 of h, or its engine instruction: 1 more than the QUEUE code in bits 14:13, the slot in bits 20:15. -/
  | uncorrectableError (src die pa h : Nat)
  /-- R420: A correctable array error is corrected with no state change. -/
  | correctableError (src die pa : Nat)
  /-- R381: Every INTERVAL the governor evaluates open steps, updates DLSLACK and chooses TARGET. -/
  | governorEvaluation (die stn : Nat)
  /-- R371: The domain completes one adjacent step toward TARGET. -/
  | operatingPointStep (die stn : Nat)
  /-- R390: Every 10,000 ns the package controller sets each station's power cap within PCAP. -/
  | powerCapUpdate
  /-- R389: A package whose demand exceeds PCAP sends a REQUEST on each peer port. -/
  | budgetShortfall (demand : Nat)
  /-- R389: A received budget REQUEST is answered with a GRANT if surplus exists, lowering the lender's cap. -/
  | request (port watts rseq : Nat)
  /-- R389: A received GRANT raises the borrower's cap until tend unless it is late or unmatched. -/
  | grant (port watts ns rseq : Nat)
  /-- R389: PLEASE ns after sending a GRANT the lender restores its cap. -/
  | leaseReclaim
  /-- R389: 20,000 ns before tend the borrower begins lowering its points. -/
  | leaseWindDown
  /-- R389: At tend the borrower's cap falls by the leased amount. -/
  | leaseEnd
  /-- R392: A sensor at or above WARN sets THROT and starts lowering the thermal cap. -/
  | thermalWarning (die stn temp : Nat)
  /-- R392: Every 100,000 ns under warning the thermal cap falls by one point. -/
  | thermalCapDown (die stn : Nat)
  /-- R392: After cooling, every 1,000,000 ns the thermal cap rises by one point. -/
  | thermalCapUp (die stn : Nat)
  /-- R393: A sensor at CRIT makes every armed die stop its harts and write its save area. -/
  | emergencySave (die stn temp : Nat)
  /-- R396: At 115 C the module removes core power at once. -/
  | trip
  /-- R396: Core power returns and the firmware scans each save area before any hart runs. -/
  | powerUp
  /-- R414: A package reset starts each die's boot ROM and the boot sequence. -/
  | packageReset
  /-- R397: First application of standby power resets the kept save registers. -/
  | standbyPowerApplied
  /-- R397: Loss of standby power ends HBM4 self-refresh and the kept save registers. -/
  | standbyPowerLoss
  /-- R383: After power-up, reset or package idle the next station leaves gating every 2,000 ns. -/
  | stationWake (die : Nat)
  /-- R385: A lane group idle for 256 cycles is gated with retention of its contents. -/
  | laneGroupGate (core grp : Nat)
  /-- R384: While droop is reported one CHPERM bit is cleared every 64 cycles. -/
  | droopWithdraw (die stn : Nat)
  /-- R384: After 4,096 droop-free cycles one CHPERM bit is set every 4,096 cycles. -/
  | droopRestore (die stn : Nat)
  /-- R112: The station cache writes back dirty bytes of a line by itself. -/
  | stationCacheWriteback (die stn line : Nat)
  /-- R112: The station cache fills a line of an idempotent page by itself. -/
  | stationCacheFill (die stn line : Nat)
  /-- R403: An inbound BAR2 request is routed through its window and performed at home in 64-byte pieces. -/
  | inboundMemoryRequest (rid wr off len data : Nat)
  /-- R399: An inbound PCIe AtomicOp completes with Unsupported Request. -/
  | inboundAtomicop (rid : Nat)
  /-- R401: A configuration write to ONWCTL places or enables the ordered-notify window for later requests. -/
  | onwctlWrite (w : Nat)
  /-- R404: A non-posted outbound request completing with an error freezes its master: the hart in bits 12:0, the QUEUE code
  in bits 14:13 (3 for the hart itself), the slot in bits 20:15, the host address from bit 21 on. -/
  | outboundCompletion (req : Nat)
  /-- R404: A non-posted outbound request without completion in 50,000,000 ns freezes its master, named as above. -/
  | outboundTimeout (req : Nat)
  /-- R407: A module whose retry fails retrains and is retired after three failures: the module in bits 3:0 of md, and in bit 4
  whether the retrain succeeds. -/
  | towpathRetryFailure (die link md : Nat)
  /-- R407: A link coming up lets held requests proceed. -/
  | towpathLinkUp (die link mds : Nat)
  /-- R410: A fabric port changes STATE, failing unacknowledged transfers when it goes down. -/
  | draborPortState (port st peer : Nat)
  /-- R411: A store to FPOST posts a fabric transfer descriptor, or is refused when 64 are in flight. -/
  | fpost (die w : Nat)
  /-- R411: A transfer reaches the peer's receiving die and is written at home or rejected. -/
  | fabricTransferArrival (die dst len data cpa inc : Nat)
  /-- R411: The acknowledgement returns and the local completion word is updated. -/
  | fabricAck (id code : Nat)
  /-- R417: SVCCMD 0x01 verifies an image, writes it to flash and installs it under the live update rules. -/
  | loadimg (a0 a1 : Nat)
  /-- R416: SVCCMD 0x02 writes a signed attestation report for a nonce. -/
  | attest (a0 : Nat)
  /-- R417: SVCCMD 0x03 creates a supervisor hart of context 0 in the named slot. -/
  | start (a0 a1 a2 : Nat)
  /-- R418: SVCCMD 0x04 makes a station draining, blocks spawns and raises PREEMPT on its harts. -/
  | drain (a0 : Nat)
  /-- R418: SVCCMD 0x05 replaces a drained station by the spare. -/
  | swap (a0 : Nat)
  /-- R417: SVCCMD 0x06 returns a draining or drained station to active. -/
  | undrain (a0 : Nat)
  /-- R419: SVCCMD 0x07 moves the sectors of an HBM4 pseudo-channel and takes it out of use. -/
  | retire (a0 : Nat)
  /-- R417: A service command with an unassigned OP or bad argument ends with status invalid. -/
  | svcInvalid (op : Nat)
  /-- R417: A running service command ends, setting SVCST and HEVT bit 7. -/
  | svcCommandEnd
  /-- R418: A draining station whose last hart has gone cleans its caches and becomes drained. -/
  | stationDrained (die stn : Nat)
  /-- R423: MCMD OP 00 runs one march element over every row of the target. -/
  | marchElement (die k w : Nat)
  /-- R424: MCMD OP 01 tests spares for listed rows, fills the repair table and updates MSUM. -/
  | marchFinish (die k w : Nat)
  /-- R373: Writing GLEARN.CLEAR empties the station's learning table. -/
  | glearnClear (die stn : Nat)
  /-- R391: Writing ESCTL.ARM 1 arms the save area and advances EGEN when the area is valid. -/
  | arm (die : Nat)
  /-- R105: A VFRAME.RESTORE that waited because fewer than Gneed groups could be had obtains its grant and loads the frame's state. -/
  | vframeRestoreGrant (h : Nat)
  /-- R180: At an instruction boundary the fetch of the next word fails translation or its class check and the hart traps precisely with PGFLT.X or ATTRCONFL. -/
  | fetchFault (h : Nat)
  /-- R392: When every sensor of a station reads below WARN, THROT clears and the thermal cap stops falling. -/
  | thermalWarningClear (die stn : Nat)
  deriving DecidableEq, Repr

end Sys2Proof
end

