-- ==== Sys2Proof/WellFormed.lean ====
section
/-! DEFINITION. Which instructions are well formed: the bounds that the encodings put on each field.
The limits that depend on the type state (R40, R46) are checked by the meanings. -/

namespace Sys2Proof

/-- The assigned sysreg numbers of R53. -/
def sysNumbers : List Nat :=
  [0x000, 0x001, 0x002, 0x003, 0x004, 0x005, 0x006, 0x010, 0x011, 0x012, 0x020, 0x021, 0x030, 0x031,
   0x040, 0x041, 0x042, 0x043, 0x050, 0x051, 0x052, 0x053, 0x054, 0x060, 0x061, 0x062]

/-- A 12-bit number names an assigned sysreg (R53). -/
def sysAssigned (n : Nat) : Bool := sysNumbers.contains n

/-- The fields of an instruction lie in the ranges its encoding gives (R30, R31, R42 to R49); the arguments of
an event name things that the part has. -/
def Instr.wf : Instr → Bool
  | .addi d a i => decide (d < 32) && decide (a < 32) && decide (i < 65536)
  | .andi d a i => decide (d < 32) && decide (a < 32) && decide (i < 65536)
  | .ori d a i => decide (d < 32) && decide (a < 32) && decide (i < 65536)
  | .xori d a i => decide (d < 32) && decide (a < 32) && decide (i < 65536)
  | .slti d a i => decide (d < 32) && decide (a < 32) && decide (i < 65536)
  | .sltiu d a i => decide (d < 32) && decide (a < 32) && decide (i < 65536)
  | .slli d a s => decide (d < 32) && decide (a < 32) && decide (s < 64)
  | .srli d a s => decide (d < 32) && decide (a < 32) && decide (s < 64)
  | .srai d a s => decide (d < 32) && decide (a < 32) && decide (s < 64)
  | .lui d i => decide (d < 32) && decide (i < 65536)
  | .addpc d i => decide (d < 32) && decide (i < 65536)
  | .jalr d a i => decide (d < 32) && decide (a < 32) && decide (i < 65536)
  | .j o => decide (o < 67108864)
  | .jal o => decide (o < 67108864)
  | .beq a b o => decide (a < 32) && decide (b < 32) && decide (o < 65536)
  | .bne a b o => decide (a < 32) && decide (b < 32) && decide (o < 65536)
  | .blt a b o => decide (a < 32) && decide (b < 32) && decide (o < 65536)
  | .bge a b o => decide (a < 32) && decide (b < 32) && decide (o < 65536)
  | .bltu a b o => decide (a < 32) && decide (b < 32) && decide (o < 65536)
  | .bgeu a b o => decide (a < 32) && decide (b < 32) && decide (o < 65536)
  | .lb d a i => decide (d < 32) && decide (a < 32) && decide (i < 65536)
  | .lbu d a i => decide (d < 32) && decide (a < 32) && decide (i < 65536)
  | .lh d a i => decide (d < 32) && decide (a < 32) && decide (i < 65536)
  | .lhu d a i => decide (d < 32) && decide (a < 32) && decide (i < 65536)
  | .lw d a i => decide (d < 32) && decide (a < 32) && decide (i < 65536)
  | .lwu d a i => decide (d < 32) && decide (a < 32) && decide (i < 65536)
  | .ld d a i => decide (d < 32) && decide (a < 32) && decide (i < 65536)
  | .flw d a i => decide (d < 16) && decide (a < 32) && decide (i < 65536)
  | .sb d a i => decide (d < 32) && decide (a < 32) && decide (i < 65536)
  | .sh d a i => decide (d < 32) && decide (a < 32) && decide (i < 65536)
  | .sw d a i => decide (d < 32) && decide (a < 32) && decide (i < 65536)
  | .sd d a i => decide (d < 32) && decide (a < 32) && decide (i < 65536)
  | .fsw d a i => decide (d < 16) && decide (a < 32) && decide (i < 65536)
  | .add d a b => decide (d < 32) && decide (a < 32) && decide (b < 32)
  | .sub d a b => decide (d < 32) && decide (a < 32) && decide (b < 32)
  | .and d a b => decide (d < 32) && decide (a < 32) && decide (b < 32)
  | .or d a b => decide (d < 32) && decide (a < 32) && decide (b < 32)
  | .xor d a b => decide (d < 32) && decide (a < 32) && decide (b < 32)
  | .sll d a b => decide (d < 32) && decide (a < 32) && decide (b < 32)
  | .srl d a b => decide (d < 32) && decide (a < 32) && decide (b < 32)
  | .sra d a b => decide (d < 32) && decide (a < 32) && decide (b < 32)
  | .slt d a b => decide (d < 32) && decide (a < 32) && decide (b < 32)
  | .sltu d a b => decide (d < 32) && decide (a < 32) && decide (b < 32)
  | .mul d a b => decide (d < 32) && decide (a < 32) && decide (b < 32)
  | .mulh d a b => decide (d < 32) && decide (a < 32) && decide (b < 32)
  | .mulhu d a b => decide (d < 32) && decide (a < 32) && decide (b < 32)
  | .div d a b => decide (d < 32) && decide (a < 32) && decide (b < 32)
  | .divu d a b => decide (d < 32) && decide (a < 32) && decide (b < 32)
  | .rem d a b => decide (d < 32) && decide (a < 32) && decide (b < 32)
  | .remu d a b => decide (d < 32) && decide (a < 32) && decide (b < 32)
  | .min d a b => decide (d < 32) && decide (a < 32) && decide (b < 32)
  | .max d a b => decide (d < 32) && decide (a < 32) && decide (b < 32)
  | .minu d a b => decide (d < 32) && decide (a < 32) && decide (b < 32)
  | .maxu d a b => decide (d < 32) && decide (a < 32) && decide (b < 32)
  | .clz d a => decide (d < 32) && decide (a < 32)
  | .ctz d a => decide (d < 32) && decide (a < 32)
  | .popc d a => decide (d < 32) && decide (a < 32)
  | .fadd d a b r => decide (d < 16) && decide (a < 16) && decide (b < 16) && decide (r < 5)
  | .fsub d a b r => decide (d < 16) && decide (a < 16) && decide (b < 16) && decide (r < 5)
  | .fmul d a b r => decide (d < 16) && decide (a < 16) && decide (b < 16) && decide (r < 5)
  | .fdiv d a b r => decide (d < 16) && decide (a < 16) && decide (b < 16) && decide (r < 5)
  | .fsqrt d a r => decide (d < 16) && decide (a < 16) && decide (r < 5)
  | .fmin d a b => decide (d < 16) && decide (a < 16) && decide (b < 16)
  | .fmax d a b => decide (d < 16) && decide (a < 16) && decide (b < 16)
  | .feq d a b => decide (d < 32) && decide (a < 16) && decide (b < 16)
  | .flt d a b => decide (d < 32) && decide (a < 16) && decide (b < 16)
  | .fle d a b => decide (d < 32) && decide (a < 16) && decide (b < 16)
  | .fcvtGF d a r => decide (d < 32) && decide (a < 16) && decide (r < 5)
  | .fcvtFG d a r => decide (d < 16) && decide (a < 32) && decide (r < 5)
  | .fmvGf d a => decide (d < 32) && decide (a < 16)
  | .fmvFg d a => decide (d < 16) && decide (a < 32)
  | .amoadd d a b s w => decide (d < 32) && decide (a < 32) && decide (b < 32) && decide (s < 8) && decide (w < 2)
  | .amoor d a b s w => decide (d < 32) && decide (a < 32) && decide (b < 32) && decide (s < 8) && decide (w < 2)
  | .amoand d a b s w => decide (d < 32) && decide (a < 32) && decide (b < 32) && decide (s < 8) && decide (w < 2)
  | .amomin d a b s w => decide (d < 32) && decide (a < 32) && decide (b < 32) && decide (s < 8) && decide (w < 2)
  | .amomax d a b s w => decide (d < 32) && decide (a < 32) && decide (b < 32) && decide (s < 8) && decide (w < 2)
  | .amoswap d a b s w => decide (d < 32) && decide (a < 32) && decide (b < 32) && decide (s < 8) && decide (w < 2)
  | .amocas d a b s w => decide (d < 32) && decide (a < 32) && decide (b < 32) && decide (s < 8) && decide (w < 2)
  | .lda d a s w => decide (d < 32) && decide (a < 32) && decide (s < 8) && decide (w < 2)
  | .str a b s w => decide (a < 32) && decide (b < 32) && decide (s < 8) && decide (w < 2)
  | .fence s => decide (s < 8)
  | .lsync => true
  | .bar s => decide (1 ≤ s) && decide (s < 5)
  | .waitw d a b s => decide (d < 32) && decide (a < 32) && decide (b < 32) && decide (3 ≤ s) && decide (s < 8)
  | .tkpush a => decide (a < 32)
  | .tkpop a => decide (a < 32)
  | .spawn d a b => decide (d < 32) && decide (a < 32) && decide (b < 32)
  | .halt => true
  | .gangJoin d a b => decide (d < 32) && decide (a < 32) && decide (b < 32)
  | .gangLeave => true
  | .yield => true
  | .prio d a => decide (d < 32) && decide (a < 32)
  | .sysrd d s => decide (d < 32) && sysAssigned s
  | .syswr a s => decide (a < 32) && sysAssigned s
  | .sysswap d a s => decide (d < 32) && decide (a < 32) && sysAssigned s
  | .trap c => decide (c < 4096)
  | .retT => true
  | .invpg a => decide (a < 32)
  | .invall a => decide (a < 32)
  | .vframeSave d a => decide (d < 32) && decide (a < 32)
  | .vframeRestore d a => decide (d < 32) && decide (a < 32)
  | .bkpt c => decide (c < 4096)
  | .vsetvl d a b => decide (d < 32) && decide (a < 32) && decide (b < 32)
  | .vcfg d a => decide (d < 32) && decide (a < 32)
  | .vmread d a b => decide (d < 32) && decide (a < 8) && decide (b < 32)
  | .vmpopc d a => decide (d < 32) && decide (a < 8)
  | .stepBegin d a b => decide (d < 32) && decide (a < 32) && decide (b < 32)
  | .stepEnd d => decide (d < 32)
  | .stepQuery d => decide (d < 32)
  | .weirHint d a b => decide (d < 32) && decide (a < 32) && decide (b < 32)
  | .weirQuery d a => decide (d < 32) && decide (a < 32)
  | .vaddV h d a b => decide (h.av < 2) && decide (h.tk < 4) && decide (h.c < 2) && decide (h.msk < 8) && decide (d < 32) && decide (a < 32) && decide (b < 32)
  | .vaddVX h d a b => decide (h.av < 2) && decide (h.tk < 4) && decide (h.c < 2) && decide (h.msk < 8) && decide (d < 32) && decide (a < 32) && decide (b < 32)
  | .vsubV h d a b => decide (h.av < 2) && decide (h.tk < 4) && decide (h.c < 2) && decide (h.msk < 8) && decide (d < 32) && decide (a < 32) && decide (b < 32)
  | .vsubVX h d a b => decide (h.av < 2) && decide (h.tk < 4) && decide (h.c < 2) && decide (h.msk < 8) && decide (d < 32) && decide (a < 32) && decide (b < 32)
  | .vrsub h d a b => decide (h.av < 2) && decide (h.tk < 4) && decide (h.c < 2) && decide (h.msk < 8) && decide (d < 32) && decide (a < 32) && decide (b < 32)
  | .vminV h d a b => decide (h.av < 2) && decide (h.tk < 4) && decide (h.c < 2) && decide (h.msk < 8) && decide (d < 32) && decide (a < 32) && decide (b < 32)
  | .vminVX h d a b => decide (h.av < 2) && decide (h.tk < 4) && decide (h.c < 2) && decide (h.msk < 8) && decide (d < 32) && decide (a < 32) && decide (b < 32)
  | .vmaxV h d a b => decide (h.av < 2) && decide (h.tk < 4) && decide (h.c < 2) && decide (h.msk < 8) && decide (d < 32) && decide (a < 32) && decide (b < 32)
  | .vmaxVX h d a b => decide (h.av < 2) && decide (h.tk < 4) && decide (h.c < 2) && decide (h.msk < 8) && decide (d < 32) && decide (a < 32) && decide (b < 32)
  | .vandV h d a b => decide (h.av < 2) && decide (h.tk < 4) && decide (h.c < 2) && decide (h.msk < 8) && decide (d < 32) && decide (a < 32) && decide (b < 32)
  | .vandVX h d a b => decide (h.av < 2) && decide (h.tk < 4) && decide (h.c < 2) && decide (h.msk < 8) && decide (d < 32) && decide (a < 32) && decide (b < 32)
  | .vorV h d a b => decide (h.av < 2) && decide (h.tk < 4) && decide (h.c < 2) && decide (h.msk < 8) && decide (d < 32) && decide (a < 32) && decide (b < 32)
  | .vorVX h d a b => decide (h.av < 2) && decide (h.tk < 4) && decide (h.c < 2) && decide (h.msk < 8) && decide (d < 32) && decide (a < 32) && decide (b < 32)
  | .vxorV h d a b => decide (h.av < 2) && decide (h.tk < 4) && decide (h.c < 2) && decide (h.msk < 8) && decide (d < 32) && decide (a < 32) && decide (b < 32)
  | .vxorVX h d a b => decide (h.av < 2) && decide (h.tk < 4) && decide (h.c < 2) && decide (h.msk < 8) && decide (d < 32) && decide (a < 32) && decide (b < 32)
  | .vsllV h d a b => decide (h.av < 2) && decide (h.tk < 4) && decide (h.c < 2) && decide (h.msk < 8) && decide (d < 32) && decide (a < 32) && decide (b < 32)
  | .vsllVX h d a b => decide (h.av < 2) && decide (h.tk < 4) && decide (h.c < 2) && decide (h.msk < 8) && decide (d < 32) && decide (a < 32) && decide (b < 32)
  | .vsrlV h d a b => decide (h.av < 2) && decide (h.tk < 4) && decide (h.c < 2) && decide (h.msk < 8) && decide (d < 32) && decide (a < 32) && decide (b < 32)
  | .vsrlVX h d a b => decide (h.av < 2) && decide (h.tk < 4) && decide (h.c < 2) && decide (h.msk < 8) && decide (d < 32) && decide (a < 32) && decide (b < 32)
  | .vsraV h d a b => decide (h.av < 2) && decide (h.tk < 4) && decide (h.c < 2) && decide (h.msk < 8) && decide (d < 32) && decide (a < 32) && decide (b < 32)
  | .vsraVX h d a b => decide (h.av < 2) && decide (h.tk < 4) && decide (h.c < 2) && decide (h.msk < 8) && decide (d < 32) && decide (a < 32) && decide (b < 32)
  | .vsaddV h d a b => decide (h.av < 2) && decide (h.tk < 4) && decide (h.c < 2) && decide (h.msk < 8) && decide (d < 32) && decide (a < 32) && decide (b < 32)
  | .vsaddVX h d a b => decide (h.av < 2) && decide (h.tk < 4) && decide (h.c < 2) && decide (h.msk < 8) && decide (d < 32) && decide (a < 32) && decide (b < 32)
  | .vssubV h d a b => decide (h.av < 2) && decide (h.tk < 4) && decide (h.c < 2) && decide (h.msk < 8) && decide (d < 32) && decide (a < 32) && decide (b < 32)
  | .vssubVX h d a b => decide (h.av < 2) && decide (h.tk < 4) && decide (h.c < 2) && decide (h.msk < 8) && decide (d < 32) && decide (a < 32) && decide (b < 32)
  | .vavgV h d a b => decide (h.av < 2) && decide (h.tk < 4) && decide (h.c < 2) && decide (h.msk < 8) && decide (d < 32) && decide (a < 32) && decide (b < 32)
  | .vavgVX h d a b => decide (h.av < 2) && decide (h.tk < 4) && decide (h.c < 2) && decide (h.msk < 8) && decide (d < 32) && decide (a < 32) && decide (b < 32)
  | .vabs h d a => decide (h.av < 2) && decide (h.tk < 4) && decide (h.c < 2) && decide (h.msk < 8) && decide (d < 32) && decide (a < 32)
  | .vneg h d a => decide (h.av < 2) && decide (h.tk < 4) && decide (h.c < 2) && decide (h.msk < 8) && decide (d < 32) && decide (a < 32)
  | .vseqV h d a b => decide (h.av < 2) && decide (h.tk < 4) && decide (h.c < 2) && decide (h.msk < 8) && decide (d < 32) && decide (a < 32) && decide (b < 32)
  | .vseqVX h d a b => decide (h.av < 2) && decide (h.tk < 4) && decide (h.c < 2) && decide (h.msk < 8) && decide (d < 32) && decide (a < 32) && decide (b < 32)
  | .vsneV h d a b => decide (h.av < 2) && decide (h.tk < 4) && decide (h.c < 2) && decide (h.msk < 8) && decide (d < 32) && decide (a < 32) && decide (b < 32)
  | .vsneVX h d a b => decide (h.av < 2) && decide (h.tk < 4) && decide (h.c < 2) && decide (h.msk < 8) && decide (d < 32) && decide (a < 32) && decide (b < 32)
  | .vsltV h d a b => decide (h.av < 2) && decide (h.tk < 4) && decide (h.c < 2) && decide (h.msk < 8) && decide (d < 32) && decide (a < 32) && decide (b < 32)
  | .vsltVX h d a b => decide (h.av < 2) && decide (h.tk < 4) && decide (h.c < 2) && decide (h.msk < 8) && decide (d < 32) && decide (a < 32) && decide (b < 32)
  | .vsleV h d a b => decide (h.av < 2) && decide (h.tk < 4) && decide (h.c < 2) && decide (h.msk < 8) && decide (d < 32) && decide (a < 32) && decide (b < 32)
  | .vsleVX h d a b => decide (h.av < 2) && decide (h.tk < 4) && decide (h.c < 2) && decide (h.msk < 8) && decide (d < 32) && decide (a < 32) && decide (b < 32)
  | .vsgtV h d a b => decide (h.av < 2) && decide (h.tk < 4) && decide (h.c < 2) && decide (h.msk < 8) && decide (d < 32) && decide (a < 32) && decide (b < 32)
  | .vsgtVX h d a b => decide (h.av < 2) && decide (h.tk < 4) && decide (h.c < 2) && decide (h.msk < 8) && decide (d < 32) && decide (a < 32) && decide (b < 32)
  | .vsgeV h d a b => decide (h.av < 2) && decide (h.tk < 4) && decide (h.c < 2) && decide (h.msk < 8) && decide (d < 32) && decide (a < 32) && decide (b < 32)
  | .vsgeVX h d a b => decide (h.av < 2) && decide (h.tk < 4) && decide (h.c < 2) && decide (h.msk < 8) && decide (d < 32) && decide (a < 32) && decide (b < 32)
  | .vselV h d a b => decide (h.av < 2) && decide (h.tk < 4) && decide (h.c < 2) && decide (h.msk < 8) && decide (d < 32) && decide (a < 32) && decide (b < 32)
  | .vselVX h d a b => decide (h.av < 2) && decide (h.tk < 4) && decide (h.c < 2) && decide (h.msk < 8) && decide (d < 32) && decide (a < 32) && decide (b < 32)
  | .vmvV h d a => decide (h.av < 2) && decide (h.tk < 4) && decide (h.c < 2) && decide (h.msk < 8) && decide (d < 32) && decide (a < 32)
  | .vmvVX h d b => decide (h.av < 2) && decide (h.tk < 4) && decide (h.c < 2) && decide (h.msk < 8) && decide (d < 32) && decide (b < 32)
  | .vcvt h d a b => decide (h.av < 2) && decide (h.tk < 4) && decide (h.c < 2) && decide (h.msk < 8) && decide (d < 32) && decide (a < 32) && decide (b < 13)
  | .vmulV h d a b => decide (h.av < 2) && decide (h.tk < 4) && decide (h.c < 2) && decide (h.msk < 8) && decide (d < 32) && decide (a < 32) && decide (b < 32)
  | .vmulVX h d a b => decide (h.av < 2) && decide (h.tk < 4) && decide (h.c < 2) && decide (h.msk < 8) && decide (d < 32) && decide (a < 32) && decide (b < 32)
  | .vmulhV h d a b => decide (h.av < 2) && decide (h.tk < 4) && decide (h.c < 2) && decide (h.msk < 8) && decide (d < 32) && decide (a < 32) && decide (b < 32)
  | .vmulhVX h d a b => decide (h.av < 2) && decide (h.tk < 4) && decide (h.c < 2) && decide (h.msk < 8) && decide (d < 32) && decide (a < 32) && decide (b < 32)
  | .vmaccV h d a b => decide (h.av < 2) && decide (h.tk < 4) && decide (h.c < 2) && decide (h.msk < 8) && decide (d < 32) && decide (a < 32) && decide (b < 32)
  | .vmaccVX h d a b => decide (h.av < 2) && decide (h.tk < 4) && decide (h.c < 2) && decide (h.msk < 8) && decide (d < 32) && decide (a < 32) && decide (b < 32)
  | .vdivV h d a b => decide (h.av < 2) && decide (h.tk < 4) && decide (h.c < 2) && decide (h.msk < 8) && decide (d < 32) && decide (a < 32) && decide (b < 32)
  | .vdivVX h d a b => decide (h.av < 2) && decide (h.tk < 4) && decide (h.c < 2) && decide (h.msk < 8) && decide (d < 32) && decide (a < 32) && decide (b < 32)
  | .vremV h d a b => decide (h.av < 2) && decide (h.tk < 4) && decide (h.c < 2) && decide (h.msk < 8) && decide (d < 32) && decide (a < 32) && decide (b < 32)
  | .vremVX h d a b => decide (h.av < 2) && decide (h.tk < 4) && decide (h.c < 2) && decide (h.msk < 8) && decide (d < 32) && decide (a < 32) && decide (b < 32)
  | .vsmulV h d a b => decide (h.av < 2) && decide (h.tk < 4) && decide (h.c < 2) && decide (h.msk < 8) && decide (d < 32) && decide (a < 32) && decide (b < 32)
  | .vsmulVX h d a b => decide (h.av < 2) && decide (h.tk < 4) && decide (h.c < 2) && decide (h.msk < 8) && decide (d < 32) && decide (a < 32) && decide (b < 32)
  | .vexp2 h d a => decide (h.av < 2) && decide (h.tk < 4) && decide (h.c < 2) && decide (h.msk < 8) && decide (d < 32) && decide (a < 32)
  | .vlog2 h d a => decide (h.av < 2) && decide (h.tk < 4) && decide (h.c < 2) && decide (h.msk < 8) && decide (d < 32) && decide (a < 32)
  | .vmand h d a b => decide (h.av < 2) && decide (h.tk < 4) && decide (h.c < 2) && decide (h.msk < 8) && decide (d < 32) && decide (a < 32) && decide (b < 32)
  | .vmor h d a b => decide (h.av < 2) && decide (h.tk < 4) && decide (h.c < 2) && decide (h.msk < 8) && decide (d < 32) && decide (a < 32) && decide (b < 32)
  | .vmxor h d a b => decide (h.av < 2) && decide (h.tk < 4) && decide (h.c < 2) && decide (h.msk < 8) && decide (d < 32) && decide (a < 32) && decide (b < 32)
  | .vmandn h d a b => decide (h.av < 2) && decide (h.tk < 4) && decide (h.c < 2) && decide (h.msk < 8) && decide (d < 32) && decide (a < 32) && decide (b < 32)
  | .vmnot h d a => decide (h.av < 2) && decide (h.tk < 4) && decide (h.c < 2) && decide (h.msk < 8) && decide (d < 32) && decide (a < 32)
  | .vslideup h d a b => decide (h.av < 2) && decide (h.tk < 4) && decide (h.c < 2) && decide (h.msk < 8) && decide (d < 32) && decide (a < 32) && decide (b < 32)
  | .vslidedn h d a b => decide (h.av < 2) && decide (h.tk < 4) && decide (h.c < 2) && decide (h.msk < 8) && decide (d < 32) && decide (a < 32) && decide (b < 32)
  | .vperm h d a b => decide (h.av < 2) && decide (h.tk < 4) && decide (h.c < 2) && decide (h.msk < 8) && decide (d < 32) && decide (a < 32) && decide (b < 32)
  | .vcompress h d a => decide (h.av < 2) && decide (h.tk < 4) && decide (h.c < 2) && decide (h.msk < 8) && decide (d < 32) && decide (a < 32)
  | .viota h d a => decide (h.av < 2) && decide (h.tk < 4) && decide (h.c < 2) && decide (h.msk < 8) && decide (d < 32) && decide (a < 32)
  | .vindex h d => decide (h.av < 2) && decide (h.tk < 4) && decide (h.c < 2) && decide (h.msk < 8) && decide (d < 32)
  | .vconfl h d a => decide (h.av < 2) && decide (h.tk < 4) && decide (h.c < 2) && decide (h.msk < 8) && decide (d < 32) && decide (a < 32)
  | .vred h d a b => decide (h.av < 2) && decide (h.tk < 4) && decide (h.c < 2) && decide (h.msk < 8) && decide (d < 32) && decide (a < 32) && decide (b < 6)
  | .vscan h d a b => decide (h.av < 2) && decide (h.tk < 4) && decide (h.c < 2) && decide (h.msk < 8) && decide (d < 32) && decide (a < 32) && decide (b < 3)
  | .vredoF h d a => decide (h.av < 2) && decide (h.tk < 4) && decide (h.c < 2) && decide (h.msk < 8) && decide (d < 32) && decide (a < 32)
  | .vredx h d a => decide (h.av < 2) && decide (h.tk < 4) && decide (h.c < 2) && decide (h.msk < 8) && decide (d < 32) && decide (a < 32)
  | .mxq h d a b => decide (h.av < 1) && decide (h.tk < 4) && decide (h.c < 2) && decide (h.msk < 8) && decide (d < 32) && decide (a < 32) && decide (4 ≤ b) && decide (b < 7)
  | .mxdq h d a b => decide (h.av < 1) && decide (h.tk < 4) && decide (h.c < 2) && decide (h.msk < 8) && decide (d < 32) && decide (a < 32) && decide (7 ≤ b) && decide (b < 13)
  | .fcvtV h d a b => decide (h.av < 1) && decide (h.tk < 4) && decide (h.c < 2) && decide (h.msk < 8) && decide (d < 32) && decide (a < 32) && decide (4 ≤ b) && decide (b < 12)
  | .bsexp h d a b => decide (h.av < 1) && decide (h.tk < 4) && decide (h.c < 2) && decide (h.msk < 8) && decide (d < 32) && decide (a < 32) && decide (4 ≤ b) && decide (b < 13)
  | .srseed h b => decide (h.av < 1) && decide (h.tk < 4) && decide (h.c < 2) && decide (h.msk = 0) && decide (b < 32)
  | .srskip h b => decide (h.av < 1) && decide (h.tk < 4) && decide (h.c < 2) && decide (h.msk = 0) && decide (b < 32)
  | .xaccClr h d => decide (h.av < 1) && decide (h.tk < 4) && decide (h.c < 2) && decide (h.msk = 0) && decide (d < 32)
  | .xaccAdd h d a => decide (h.av < 1) && decide (h.tk < 4) && decide (h.c < 2) && decide (h.msk = 0) && decide (d < 32) && decide (a < 32)
  | .xaccRd h d a b => decide (h.av < 1) && decide (h.tk < 4) && decide (h.c < 2) && decide (h.msk = 0) && decide (d < 32) && decide (a < 32) && decide (b < 32)
  | .xdec h d a => decide (h.av < 1) && decide (h.tk < 4) && decide (h.c < 2) && decide (h.msk = 0) && decide (d < 32) && decide (a < 32)
  | .xstateSave h b => decide (h.av < 1) && decide (h.tk = 0) && decide (h.c = 0) && decide (h.msk = 0) && decide (b < 32)
  | .xstateRestore h b => decide (h.av < 1) && decide (h.tk = 0) && decide (h.c = 0) && decide (h.msk = 0) && decide (b < 32)
  | .vld h d a => decide (h.av < 1) && decide (h.tk < 4) && decide (h.c < 2) && decide (h.msk < 8) && decide (d < 32) && decide (a < 32)
  | .vlds h d a b => decide (h.av < 1) && decide (h.tk < 4) && decide (h.c < 2) && decide (h.msk < 8) && decide (d < 32) && decide (a < 32) && decide (b < 32)
  | .vldx h d a b => decide (h.av < 1) && decide (h.tk < 4) && decide (h.c < 2) && decide (h.msk < 8) && decide (d < 32) && decide (a < 32) && decide (b < 32)
  | .vldff h d a f => decide (h.av < 1) && decide (h.tk < 4) && decide (h.c < 2) && decide (h.msk < 8) && decide (d < 32) && decide (a < 32) && decide (f < 8)
  | .vlda h d a s => decide (h.av < 1) && decide (h.tk < 4) && decide (h.c < 2) && decide (h.msk < 8) && decide (d < 32) && decide (a < 32) && decide (0 < s) && decide (s < 8)
  | .vst h d a => decide (h.av < 1) && decide (h.tk < 4) && decide (h.c < 2) && decide (h.msk < 8) && decide (d < 32) && decide (a < 32)
  | .vsts h d a b => decide (h.av < 1) && decide (h.tk < 4) && decide (h.c < 2) && decide (h.msk < 8) && decide (d < 32) && decide (a < 32) && decide (b < 32)
  | .vstx h d a b => decide (h.av < 1) && decide (h.tk < 4) && decide (h.c < 2) && decide (h.msk < 8) && decide (d < 32) && decide (a < 32) && decide (b < 32)
  | .vstr h d a s => decide (h.av < 1) && decide (h.tk < 4) && decide (h.c < 2) && decide (h.msk < 8) && decide (d < 32) && decide (a < 32) && decide (0 < s) && decide (s < 8)
  | .vamoadd h d a b => decide (h.av < 1) && decide (h.tk < 4) && decide (h.c < 2) && decide (h.msk < 8) && decide (d < 32) && decide (a < 32) && decide (b < 32)
  | .vamoor h d a b => decide (h.av < 1) && decide (h.tk < 4) && decide (h.c < 2) && decide (h.msk < 8) && decide (d < 32) && decide (a < 32) && decide (b < 32)
  | .vamoand h d a b => decide (h.av < 1) && decide (h.tk < 4) && decide (h.c < 2) && decide (h.msk < 8) && decide (d < 32) && decide (a < 32) && decide (b < 32)
  | .vamomin h d a b => decide (h.av < 1) && decide (h.tk < 4) && decide (h.c < 2) && decide (h.msk < 8) && decide (d < 32) && decide (a < 32) && decide (b < 32)
  | .vamomax h d a b => decide (h.av < 1) && decide (h.tk < 4) && decide (h.c < 2) && decide (h.msk < 8) && decide (d < 32) && decide (a < 32) && decide (b < 32)
  | .vamoswap h d a b => decide (h.av < 1) && decide (h.tk < 4) && decide (h.c < 2) && decide (h.msk < 8) && decide (d < 32) && decide (a < 32) && decide (b < 32)
  | .vamocas h d a b => decide (h.av < 1) && decide (h.tk < 4) && decide (h.c < 2) && decide (h.msk < 8) && decide (d < 32) && decide (a < 32) && decide (b < 32)
  | .stripBegin h a => decide (h.av < 1) && decide (h.tk < 4) && decide (h.c < 2) && decide (h.msk = 0) && decide (a < 32)
  | .stripCommit h => decide (h.av < 1) && decide (h.tk < 4) && decide (h.c < 2) && decide (h.msk = 0)
  | .stripAbort h => decide (h.av < 1) && decide (h.tk < 4) && decide (h.c < 2) && decide (h.msk = 0)
  | .opa x t a b => decide (x.tk < 4) && decide (x.msk < 8) && decide (t < 4) && decide (a < 32) && decide (b < 32)
  | .opas x t a b => decide (x.tk < 4) && decide (x.msk < 8) && decide (t < 4) && decide (a < 32) && decide (b < 32)
  | .tzero x t => decide (x.tk < 4) && decide (x.msk < 8) && decide (t < 4)
  | .trd x t a b => decide (x.tk < 4) && decide (x.msk < 8) && decide (t < 4) && decide (a < 32) && decide (b < 32)
  | .twr x t a b => decide (x.tk < 4) && decide (x.msk < 8) && decide (t < 4) && decide (a < 32) && decide (b < 32)
  | .tshift x t s => decide (x.tk < 4) && decide (x.msk < 8) && decide (t < 4) && decide (s < 1024)
  | .tmerge x t a => decide (x.tk < 4) && decide (x.msk < 8) && decide (t < 4) && decide (a < 32)
  | .tmergeAtt x t a => decide (x.tk < 4) && decide (x.msk < 8) && decide (t < 4) && decide (a < 32)
  | .tflags x t => decide (x.tk < 4) && decide (x.msk = 0) && decide (t < 4)
  | .talloc x t => decide (x.tk < 4) && decide (x.msk = 0) && decide (t < 4)
  | .tfree x t => decide (x.tk < 4) && decide (x.msk = 0) && decide (t < 4)
  | .sld k q d a b => decide (q < 8) && decide (d < 32) && decide (a < 32) && decide (b < 32) && decide (k < 4)
  | .sst k q d a b => decide (q < 8) && decide (d < 32) && decide (a < 32) && decide (b < 32) && decide (k < 4)
  | .scpy k q d a b => decide (q < 8) && decide (d < 32) && decide (a < 32) && decide (b < 32) && decide (k < 4)
  | .spln k q d a b => decide (q < 8) && decide (d < 32) && decide (a < 32) && decide (b < 32) && decide (k < 4)
  | .sldG k q d a b => decide (q < 8) && decide (d < 32) && decide (a < 32) && decide (b < 32) && decide (k < 4)
  | .sind k q d a b => decide (q < 8) && decide (d < 32) && decide (a < 32) && decide (b < 32) && decide (k < 4)
  | .spat k q d a => decide (q < 8) && decide (d < 32) && decide (a < 32) && decide (k < 4)
  | .sbind k q d a b => decide (q < 8) && decide (d < 32) && decide (a < 32) && decide (b < 32) && decide (k < 4)
  | .sunbind k q => decide (q < 8) && decide (k < 4)
  | .ssend k q d a b => decide (q < 8) && decide (d < 32) && decide (a < 32) && decide (b < 32) && decide (k < 4)
  | .swait q b => decide (q < 8) && decide (b < 32)
  | .savail q d => decide (q < 8) && decide (d < 32)
  | .sstat q d b => decide (q < 8) && decide (d < 32) && decide (b < 32)
  | .illegalEncoding w => decide (w < 4294967296)
  | .queueEntryFree h q => decide (h < 8192) && decide (q < 3)
  | .convoyStart h => decide (h < 8192)
  | .elementGroup core => decide (core < 2048)
  | .starvationGrant core h => decide (core < 2048) && decide (h < 8192)
  | .redeal h => decide (h < 8192)
  | .groupRefill h => decide (h < 8192)
  | .parking h => decide (h < 8192)
  | .gangJoinRetry h => decide (h < 8192)
  | .takeEngineFault h => decide (h < 8192)
  | .takeInterrupt h => decide (h < 8192)
  | .preempt h => decide (h < 8192)
  | .waitwWake h => decide (h < 8192)
  | .tkpopWake h => decide (h < 8192)
  | .swaitWake h => decide (h < 8192)
  | .tileGrant core t => decide (core < 2048) && decide (t < 4)
  | .streamBurst h q => decide (h < 8192) && decide (q < 8)
  | .sldGMulticast ctx die num => decide (ctx < 64) && decide (die < 8) && decide (num < 256)
  | .ssendBurstArrival h q => decide (h < 8192) && decide (q < 8)
  | .expanderBlock h => decide (h < 8192)
  | .xdecWriteStep h => decide (h < 8192)
  | .admitHeldWrite die pool => decide (die < 8) && decide (pool < 2)
  | .recompress die pool => decide (die < 8) && decide (pool < 2)
  | .migrate die pool => decide (die < 8) && decide (pool < 2)
  | .balloon die pool => decide (die < 8) && decide (pool < 2)
  | .weirboundExpiry die _ => decide (die < 8)
  | .woosrecRead die d => decide (die < 8) && decide (d < 32)
  | .replay die _ => decide (die < 8)
  | .cancel die _ => decide (die < 8)
  | .discard die _ => decide (die < 8)
  | .setnone die _ => decide (die < 8)
  | .setlossless die _ => decide (die < 8)
  | .weirRecall die _ => decide (die < 8)
  | .wcmdInvalid die => decide (die < 8)
  | .weirCommandDone die => decide (die < 8)
  | .poolEnable die pool => decide (die < 8) && decide (pool < 2)
  | .deviceRegisterWrite _ _ => true
  | .svhSet h => decide (h < 8192)
  | .tsliceWrite h _ => decide (h < 8192)
  | .tkrouteWrite h _ => decide (h < 8192)
  | .flush h => decide (h < 8192)
  | .drop h => decide (h < 8192)
  | .unfreeze _ => true
  | .destroy _ => true
  | .uncorrectableError _ die _ h => decide (die < 8) && decide (h < 2 ^ 21)
  | .correctableError _ die _ => decide (die < 8)
  | .governorEvaluation die stn => decide (die < 8) && decide (stn < 36)
  | .operatingPointStep die stn => decide (die < 8) && decide (stn < 36)
  | .powerCapUpdate => true
  | .budgetShortfall _ => true
  | .request port _ _ => decide (port < 32)
  | .grant port _ _ _ => decide (port < 32)
  | .leaseReclaim => true
  | .leaseWindDown => true
  | .leaseEnd => true
  | .thermalWarning die stn _ => decide (die < 8) && decide (stn < 36)
  | .thermalCapDown die stn => decide (die < 8) && decide (stn < 36)
  | .thermalCapUp die stn => decide (die < 8) && decide (stn < 36)
  | .emergencySave die stn _ => decide (die < 8) && decide (stn < 36)
  | .trip => true
  | .powerUp => true
  | .packageReset => true
  | .standbyPowerApplied => true
  | .standbyPowerLoss => true
  | .stationWake die => decide (die < 8)
  | .laneGroupGate core grp => decide (core < 2048) && decide (grp < 64)
  | .droopWithdraw die stn => decide (die < 8) && decide (stn < 36)
  | .droopRestore die stn => decide (die < 8) && decide (stn < 36)
  | .stationCacheWriteback die stn _ => decide (die < 8) && decide (stn < 36)
  | .stationCacheFill die stn _ => decide (die < 8) && decide (stn < 36)
  | .inboundMemoryRequest rid wr _ _ _ => decide (rid < 65536) && decide (wr < 2)
  | .inboundAtomicop rid => decide (rid < 65536)
  | .onwctlWrite _ => true
  | .outboundCompletion req => decide (req < 2 ^ 72)
  | .outboundTimeout req => decide (req < 2 ^ 72)
  | .towpathRetryFailure die link md => decide (die < 8) && decide (link < 2) && decide (md < 32)
  | .towpathLinkUp die link mds => decide (die < 8) && decide (link < 2) && decide (mds < 65536)
  | .draborPortState port st _ => decide (port < 32) && decide (st < 3)
  | .fpost die _ => decide (die < 8)
  | .fabricTransferArrival die _ _ _ _ _ => decide (die < 8)
  | .fabricAck _ _ => true
  | .loadimg _ _ => true
  | .attest _ => true
  | .start _ _ _ => true
  | .drain _ => true
  | .swap _ => true
  | .undrain _ => true
  | .retire _ => true
  | .svcInvalid _ => true
  | .svcCommandEnd => true
  | .stationDrained die stn => decide (die < 8) && decide (stn < 36)
  | .marchElement die k _ => decide (die < 8) && decide (k < 148)
  | .marchFinish die k _ => decide (die < 8) && decide (k < 148)
  | .glearnClear die stn => decide (die < 8) && decide (stn < 36)
  | .arm die => decide (die < 8)
  | .vframeRestoreGrant h => decide (h < 8192)
  | .fetchFault h => decide (h < 8192)
  | .thermalWarningClear die stn => decide (die < 8) && decide (stn < 36)

/-- The instruction is well formed. -/
abbrev Instr.WellFormed (i : Instr) : Prop := i.wf = true

end Sys2Proof
end

