-- ==== Sys2Proof/Decode.lean ====
section
/-! DEFINITION. Decoding of the LX9's 32-bit words (R29, R30, R41 to R50), and the encoder.

The decoder makes the checks that the bits alone decide: unassigned majors and functions, reserved fields that
are not zero, kinds, scopes and sub-operations outside their range, unassigned sysregs, and for the scalar words
the register fields of R31. The checks of R50 that depend on the type state or on the mode are in the meanings. -/

namespace Sys2Proof

/-- Why the bits of a word are refused (R50, step 1; `registerField` is step 3 for a scalar word, R31). -/
inductive Reject where
  /-- Not a 32-bit word. -/
  | width
  /-- An unassigned or illegal major (R29, R41). -/
  | major
  /-- An unassigned function code, form or sub-operation. -/
  | function
  /-- A reserved or unused field is not zero. -/
  | reserved
  /-- A scope, kind, width or rounding code outside the range of the entry. -/
  | range
  /-- The SYS field names an unassigned sysreg (R53). -/
  | sysreg
  /-- A scalar word names an f- or m-register that does not exist (R31). -/
  | registerField
  deriving DecidableEq, Repr

/-- Bits [lo+n-1:lo] of a word (R1). -/
def fld (w lo n : Nat) : Nat := w / 2 ^ lo % 2 ^ n

/-- An instruction if the check holds, else the reason. -/
def okIf (c : Bool) (e : Reject) (i : Instr) : Except Reject Instr := if c then .ok i else .error e

/-- The header of a VEC word (R201). -/
def vecHdr (w : Nat) : VHdr := { av := fld w 28 1, tk := fld w 26 2, c := fld w 25 1, msk := fld w 7 3 }
/-- The header of a BSX word (R289). -/
def bsxHdr (w : Nat) : VHdr := { av := 0, tk := fld w 26 2, c := fld w 25 1, msk := fld w 7 3 }
/-- The header of a VMU word (R231). -/
def vmuHdr (w : Nat) : VHdr := { av := 0, tk := fld w 5 2, c := fld w 25 1, msk := fld w 7 3 }
/-- The header of an X-format word (R263). -/
def mtxHdr (w : Nat) : XHdr := { tk := fld w 9 2, msk := fld w 11 3 }

/-- R42: the functions of this class. -/
def decodeShi (w f : Nat) : Except Reject Instr :=
  if f = 0x0 then okIf (fld w 8 8 = 0) .reserved (.slli (fld w 21 5) (fld w 16 5) (fld w 0 6)) else
  if f = 0x1 then okIf (fld w 8 8 = 0) .reserved (.srli (fld w 21 5) (fld w 16 5) (fld w 0 6)) else
  if f = 0x2 then okIf (fld w 8 8 = 0) .reserved (.srai (fld w 21 5) (fld w 16 5) (fld w 0 6)) else
  .error .function

/-- R42: the functions of this class. -/
def decodeAlu (w f : Nat) : Except Reject Instr :=
  if f = 0x0 then .ok (.add (fld w 21 5) (fld w 16 5) (fld w 11 5)) else
  if f = 0x1 then .ok (.sub (fld w 21 5) (fld w 16 5) (fld w 11 5)) else
  if f = 0x2 then .ok (.and (fld w 21 5) (fld w 16 5) (fld w 11 5)) else
  if f = 0x3 then .ok (.or (fld w 21 5) (fld w 16 5) (fld w 11 5)) else
  if f = 0x4 then .ok (.xor (fld w 21 5) (fld w 16 5) (fld w 11 5)) else
  if f = 0x5 then .ok (.sll (fld w 21 5) (fld w 16 5) (fld w 11 5)) else
  if f = 0x6 then .ok (.srl (fld w 21 5) (fld w 16 5) (fld w 11 5)) else
  if f = 0x7 then .ok (.sra (fld w 21 5) (fld w 16 5) (fld w 11 5)) else
  if f = 0x8 then .ok (.slt (fld w 21 5) (fld w 16 5) (fld w 11 5)) else
  if f = 0x9 then .ok (.sltu (fld w 21 5) (fld w 16 5) (fld w 11 5)) else
  if f = 0xA then .ok (.mul (fld w 21 5) (fld w 16 5) (fld w 11 5)) else
  if f = 0xB then .ok (.mulh (fld w 21 5) (fld w 16 5) (fld w 11 5)) else
  if f = 0xC then .ok (.mulhu (fld w 21 5) (fld w 16 5) (fld w 11 5)) else
  if f = 0xD then .ok (.div (fld w 21 5) (fld w 16 5) (fld w 11 5)) else
  if f = 0xE then .ok (.divu (fld w 21 5) (fld w 16 5) (fld w 11 5)) else
  if f = 0xF then .ok (.rem (fld w 21 5) (fld w 16 5) (fld w 11 5)) else
  if f = 0x10 then .ok (.remu (fld w 21 5) (fld w 16 5) (fld w 11 5)) else
  if f = 0x11 then .ok (.min (fld w 21 5) (fld w 16 5) (fld w 11 5)) else
  if f = 0x12 then .ok (.max (fld w 21 5) (fld w 16 5) (fld w 11 5)) else
  if f = 0x13 then .ok (.minu (fld w 21 5) (fld w 16 5) (fld w 11 5)) else
  if f = 0x14 then .ok (.maxu (fld w 21 5) (fld w 16 5) (fld w 11 5)) else
  if f = 0x15 then okIf (fld w 11 5 = 0) .reserved (.clz (fld w 21 5) (fld w 16 5)) else
  if f = 0x16 then okIf (fld w 11 5 = 0) .reserved (.ctz (fld w 21 5) (fld w 16 5)) else
  if f = 0x17 then okIf (fld w 11 5 = 0) .reserved (.popc (fld w 21 5) (fld w 16 5)) else
  .error .function

/-- R43: the functions of this class. -/
def decodeFpu (w f : Nat) : Except Reject Instr :=
  if f = 0x0 then if fld w 8 3 < 5 then if fld w 21 5 < 16 then if fld w 16 5 < 16 then okIf (fld w 11 5 < 16) .registerField (.fadd (fld w 21 5) (fld w 16 5) (fld w 11 5) (fld w 8 3)) else .error .registerField else .error .registerField else .error .range else
  if f = 0x1 then if fld w 8 3 < 5 then if fld w 21 5 < 16 then if fld w 16 5 < 16 then okIf (fld w 11 5 < 16) .registerField (.fsub (fld w 21 5) (fld w 16 5) (fld w 11 5) (fld w 8 3)) else .error .registerField else .error .registerField else .error .range else
  if f = 0x2 then if fld w 8 3 < 5 then if fld w 21 5 < 16 then if fld w 16 5 < 16 then okIf (fld w 11 5 < 16) .registerField (.fmul (fld w 21 5) (fld w 16 5) (fld w 11 5) (fld w 8 3)) else .error .registerField else .error .registerField else .error .range else
  if f = 0x3 then if fld w 8 3 < 5 then if fld w 21 5 < 16 then if fld w 16 5 < 16 then okIf (fld w 11 5 < 16) .registerField (.fdiv (fld w 21 5) (fld w 16 5) (fld w 11 5) (fld w 8 3)) else .error .registerField else .error .registerField else .error .range else
  if f = 0x4 then if fld w 11 5 = 0 then if fld w 8 3 < 5 then if fld w 21 5 < 16 then okIf (fld w 16 5 < 16) .registerField (.fsqrt (fld w 21 5) (fld w 16 5) (fld w 8 3)) else .error .registerField else .error .range else .error .reserved else
  if f = 0x5 then if fld w 8 3 = 0 then if fld w 21 5 < 16 then if fld w 16 5 < 16 then okIf (fld w 11 5 < 16) .registerField (.fmin (fld w 21 5) (fld w 16 5) (fld w 11 5)) else .error .registerField else .error .registerField else .error .reserved else
  if f = 0x6 then if fld w 8 3 = 0 then if fld w 21 5 < 16 then if fld w 16 5 < 16 then okIf (fld w 11 5 < 16) .registerField (.fmax (fld w 21 5) (fld w 16 5) (fld w 11 5)) else .error .registerField else .error .registerField else .error .reserved else
  if f = 0x7 then if fld w 8 3 = 0 then if fld w 16 5 < 16 then okIf (fld w 11 5 < 16) .registerField (.feq (fld w 21 5) (fld w 16 5) (fld w 11 5)) else .error .registerField else .error .reserved else
  if f = 0x8 then if fld w 8 3 = 0 then if fld w 16 5 < 16 then okIf (fld w 11 5 < 16) .registerField (.flt (fld w 21 5) (fld w 16 5) (fld w 11 5)) else .error .registerField else .error .reserved else
  if f = 0x9 then if fld w 8 3 = 0 then if fld w 16 5 < 16 then okIf (fld w 11 5 < 16) .registerField (.fle (fld w 21 5) (fld w 16 5) (fld w 11 5)) else .error .registerField else .error .reserved else
  if f = 0xA then if fld w 11 5 = 0 then if fld w 8 3 < 5 then okIf (fld w 16 5 < 16) .registerField (.fcvtGF (fld w 21 5) (fld w 16 5) (fld w 8 3)) else .error .range else .error .reserved else
  if f = 0xB then if fld w 11 5 = 0 then if fld w 8 3 < 5 then okIf (fld w 21 5 < 16) .registerField (.fcvtFG (fld w 21 5) (fld w 16 5) (fld w 8 3)) else .error .range else .error .reserved else
  if f = 0xC then if fld w 8 8 = 0 then okIf (fld w 16 5 < 16) .registerField (.fmvGf (fld w 21 5) (fld w 16 5)) else .error .reserved else
  if f = 0xD then if fld w 8 8 = 0 then okIf (fld w 21 5 < 16) .registerField (.fmvFg (fld w 21 5) (fld w 16 5)) else .error .reserved else
  .error .function

/-- R44: the functions of this class. -/
def decodeAmo (w f : Nat) : Except Reject Instr :=
  if f = 0x0 then okIf (fld w 5 1 = 0 && fld w 9 2 = 0) .reserved (.amoadd (fld w 21 5) (fld w 16 5) (fld w 11 5) (fld w 6 3) (fld w 4 1)) else
  if f = 0x1 then okIf (fld w 5 1 = 0 && fld w 9 2 = 0) .reserved (.amoor (fld w 21 5) (fld w 16 5) (fld w 11 5) (fld w 6 3) (fld w 4 1)) else
  if f = 0x2 then okIf (fld w 5 1 = 0 && fld w 9 2 = 0) .reserved (.amoand (fld w 21 5) (fld w 16 5) (fld w 11 5) (fld w 6 3) (fld w 4 1)) else
  if f = 0x3 then okIf (fld w 5 1 = 0 && fld w 9 2 = 0) .reserved (.amomin (fld w 21 5) (fld w 16 5) (fld w 11 5) (fld w 6 3) (fld w 4 1)) else
  if f = 0x4 then okIf (fld w 5 1 = 0 && fld w 9 2 = 0) .reserved (.amomax (fld w 21 5) (fld w 16 5) (fld w 11 5) (fld w 6 3) (fld w 4 1)) else
  if f = 0x5 then okIf (fld w 5 1 = 0 && fld w 9 2 = 0) .reserved (.amoswap (fld w 21 5) (fld w 16 5) (fld w 11 5) (fld w 6 3) (fld w 4 1)) else
  if f = 0x6 then okIf (fld w 5 1 = 0 && fld w 9 2 = 0) .reserved (.amocas (fld w 21 5) (fld w 16 5) (fld w 11 5) (fld w 6 3) (fld w 4 1)) else
  if f = 0x7 then okIf (fld w 5 1 = 0 && fld w 9 7 = 0) .reserved (.lda (fld w 21 5) (fld w 16 5) (fld w 6 3) (fld w 4 1)) else
  if f = 0x8 then okIf (fld w 5 1 = 0 && fld w 9 2 = 0 && fld w 21 5 = 0) .reserved (.str (fld w 16 5) (fld w 11 5) (fld w 6 3) (fld w 4 1)) else
  .error .function

/-- R44, R161: the functions of this class. -/
def decodeSync (w f : Nat) : Except Reject Instr :=
  if f = 0x0 then okIf (fld w 9 17 = 0) .reserved (.fence (fld w 6 3)) else
  if f = 0x1 then okIf (fld w 6 20 = 0) .reserved (.lsync) else
  if f = 0x2 then if fld w 9 17 = 0 then okIf (1 ≤ fld w 6 3 && fld w 6 3 < 5) .range (.bar (fld w 6 3)) else .error .reserved else
  if f = 0x3 then if fld w 9 2 = 0 then okIf (3 ≤ fld w 6 3) .range (.waitw (fld w 21 5) (fld w 16 5) (fld w 11 5) (fld w 6 3)) else .error .reserved else
  if f = 0x4 then okIf (fld w 6 10 = 0 && fld w 21 5 = 0) .reserved (.tkpush (fld w 16 5)) else
  if f = 0x5 then okIf (fld w 6 10 = 0 && fld w 21 5 = 0) .reserved (.tkpop (fld w 16 5)) else
  if f = 0x6 then okIf (fld w 6 5 = 0) .reserved (.spawn (fld w 21 5) (fld w 16 5) (fld w 11 5)) else
  if f = 0x7 then okIf (fld w 6 20 = 0) .reserved (.halt) else
  if f = 0x8 then okIf (fld w 6 5 = 0) .reserved (.gangJoin (fld w 21 5) (fld w 16 5) (fld w 11 5)) else
  if f = 0x9 then okIf (fld w 6 20 = 0) .reserved (.gangLeave) else
  if f = 0xA then okIf (fld w 6 20 = 0) .reserved (.yield) else
  if f = 0xB then okIf (fld w 6 10 = 0) .reserved (.prio (fld w 21 5) (fld w 16 5)) else
  .error .function

/-- R45, R170: the functions of this class. -/
def decodeSys (w f : Nat) : Except Reject Instr :=
  if f = 0x0 then if fld w 16 5 = 0 then okIf (sysAssigned (fld w 4 12)) .sysreg (.sysrd (fld w 21 5) (fld w 4 12)) else .error .reserved else
  if f = 0x1 then if fld w 21 5 = 0 then okIf (sysAssigned (fld w 4 12)) .sysreg (.syswr (fld w 16 5) (fld w 4 12)) else .error .reserved else
  if f = 0x2 then okIf (sysAssigned (fld w 4 12)) .sysreg (.sysswap (fld w 21 5) (fld w 16 5) (fld w 4 12)) else
  if f = 0x3 then okIf (fld w 16 10 = 0) .reserved (.trap (fld w 4 12)) else
  if f = 0x4 then okIf (fld w 4 22 = 0) .reserved (.retT) else
  if f = 0x5 then okIf (fld w 4 12 = 0 && fld w 21 5 = 0) .reserved (.invpg (fld w 16 5)) else
  if f = 0x6 then okIf (fld w 4 12 = 0 && fld w 21 5 = 0) .reserved (.invall (fld w 16 5)) else
  if f = 0x7 then okIf (fld w 4 12 = 0) .reserved (.vframeSave (fld w 21 5) (fld w 16 5)) else
  if f = 0x8 then okIf (fld w 4 12 = 0) .reserved (.vframeRestore (fld w 21 5) (fld w 16 5)) else
  if f = 0x9 then okIf (fld w 16 10 = 0) .reserved (.bkpt (fld w 4 12)) else
  .error .function

/-- R45: the functions of this class. -/
def decodeVconf (w f : Nat) : Except Reject Instr :=
  if f = 0x0 then .ok (.vsetvl (fld w 21 5) (fld w 16 5) (fld w 11 5)) else
  if f = 0x1 then okIf (fld w 11 5 = 0) .reserved (.vcfg (fld w 21 5) (fld w 16 5)) else
  if f = 0x2 then okIf (fld w 16 5 < 8) .registerField (.vmread (fld w 21 5) (fld w 16 5) (fld w 11 5)) else
  if f = 0x3 then if fld w 11 5 = 0 then okIf (fld w 16 5 < 8) .registerField (.vmpopc (fld w 21 5) (fld w 16 5)) else .error .reserved else
  .error .function

/-- R45: the functions of this class. -/
def decodeGov (w f : Nat) : Except Reject Instr :=
  if f = 0x0 then .ok (.stepBegin (fld w 21 5) (fld w 16 5) (fld w 11 5)) else
  if f = 0x1 then okIf (fld w 11 10 = 0) .reserved (.stepEnd (fld w 21 5)) else
  if f = 0x2 then okIf (fld w 11 10 = 0) .reserved (.stepQuery (fld w 21 5)) else
  .error .function

/-- R45: the functions of this class. -/
def decodeWeir (w f : Nat) : Except Reject Instr :=
  if f = 0x0 then .ok (.weirHint (fld w 21 5) (fld w 16 5) (fld w 11 5)) else
  if f = 0x1 then okIf (fld w 11 5 = 0) .reserved (.weirQuery (fld w 21 5) (fld w 16 5)) else
  .error .function

/-- More of `decodeVec`. -/
def decodeVec3 (w f : Nat) : Except Reject Instr :=
  if f = 0x3C then okIf (fld w 10 5 < 6) .function (.vred (vecHdr w) (fld w 20 5) (fld w 15 5) (fld w 10 5)) else
  if f = 0x3D then okIf (fld w 10 5 < 3) .function (.vscan (vecHdr w) (fld w 20 5) (fld w 15 5) (fld w 10 5)) else
  if f = 0x3E then okIf (fld w 10 5 = 0) .reserved (.vredoF (vecHdr w) (fld w 20 5) (fld w 15 5)) else
  if f = 0x3F then okIf (fld w 10 5 = 0) .reserved (.vredx (vecHdr w) (fld w 20 5) (fld w 15 5)) else
  .error .function

/-- More of `decodeVec`. -/
def decodeVec2 (w f : Nat) : Except Reject Instr :=
  if f = 0x21 then .ok (.vmulhV (vecHdr w) (fld w 20 5) (fld w 15 5) (fld w 10 5)) else
  if f = 0x61 then .ok (.vmulhVX (vecHdr w) (fld w 20 5) (fld w 15 5) (fld w 10 5)) else
  if f = 0x22 then .ok (.vmaccV (vecHdr w) (fld w 20 5) (fld w 15 5) (fld w 10 5)) else
  if f = 0x62 then .ok (.vmaccVX (vecHdr w) (fld w 20 5) (fld w 15 5) (fld w 10 5)) else
  if f = 0x23 then .ok (.vdivV (vecHdr w) (fld w 20 5) (fld w 15 5) (fld w 10 5)) else
  if f = 0x63 then .ok (.vdivVX (vecHdr w) (fld w 20 5) (fld w 15 5) (fld w 10 5)) else
  if f = 0x24 then .ok (.vremV (vecHdr w) (fld w 20 5) (fld w 15 5) (fld w 10 5)) else
  if f = 0x64 then .ok (.vremVX (vecHdr w) (fld w 20 5) (fld w 15 5) (fld w 10 5)) else
  if f = 0x25 then .ok (.vsmulV (vecHdr w) (fld w 20 5) (fld w 15 5) (fld w 10 5)) else
  if f = 0x65 then .ok (.vsmulVX (vecHdr w) (fld w 20 5) (fld w 15 5) (fld w 10 5)) else
  if f = 0x26 then okIf (fld w 10 5 = 0) .reserved (.vexp2 (vecHdr w) (fld w 20 5) (fld w 15 5)) else
  if f = 0x27 then okIf (fld w 10 5 = 0) .reserved (.vlog2 (vecHdr w) (fld w 20 5) (fld w 15 5)) else
  if f = 0x30 then .ok (.vmand (vecHdr w) (fld w 20 5) (fld w 15 5) (fld w 10 5)) else
  if f = 0x31 then .ok (.vmor (vecHdr w) (fld w 20 5) (fld w 15 5) (fld w 10 5)) else
  if f = 0x32 then .ok (.vmxor (vecHdr w) (fld w 20 5) (fld w 15 5) (fld w 10 5)) else
  if f = 0x33 then .ok (.vmandn (vecHdr w) (fld w 20 5) (fld w 15 5) (fld w 10 5)) else
  if f = 0x34 then okIf (fld w 10 5 = 0) .reserved (.vmnot (vecHdr w) (fld w 20 5) (fld w 15 5)) else
  if f = 0x75 then .ok (.vslideup (vecHdr w) (fld w 20 5) (fld w 15 5) (fld w 10 5)) else
  if f = 0x76 then .ok (.vslidedn (vecHdr w) (fld w 20 5) (fld w 15 5) (fld w 10 5)) else
  if f = 0x37 then .ok (.vperm (vecHdr w) (fld w 20 5) (fld w 15 5) (fld w 10 5)) else
  if f = 0x38 then okIf (fld w 10 5 = 0) .reserved (.vcompress (vecHdr w) (fld w 20 5) (fld w 15 5)) else
  if f = 0x39 then okIf (fld w 10 5 = 0) .reserved (.viota (vecHdr w) (fld w 20 5) (fld w 15 5)) else
  if f = 0x3A then okIf (fld w 10 10 = 0) .reserved (.vindex (vecHdr w) (fld w 20 5)) else
  if f = 0x3B then okIf (fld w 10 5 = 0) .reserved (.vconfl (vecHdr w) (fld w 20 5) (fld w 15 5)) else
  decodeVec3 w f

/-- More of `decodeVec`. -/
def decodeVec1 (w f : Nat) : Except Reject Instr :=
  if f = 0x4C then .ok (.vssubVX (vecHdr w) (fld w 20 5) (fld w 15 5) (fld w 10 5)) else
  if f = 0xD then .ok (.vavgV (vecHdr w) (fld w 20 5) (fld w 15 5) (fld w 10 5)) else
  if f = 0x4D then .ok (.vavgVX (vecHdr w) (fld w 20 5) (fld w 15 5) (fld w 10 5)) else
  if f = 0xE then okIf (fld w 10 5 = 0) .reserved (.vabs (vecHdr w) (fld w 20 5) (fld w 15 5)) else
  if f = 0xF then okIf (fld w 10 5 = 0) .reserved (.vneg (vecHdr w) (fld w 20 5) (fld w 15 5)) else
  if f = 0x10 then .ok (.vseqV (vecHdr w) (fld w 20 5) (fld w 15 5) (fld w 10 5)) else
  if f = 0x50 then .ok (.vseqVX (vecHdr w) (fld w 20 5) (fld w 15 5) (fld w 10 5)) else
  if f = 0x11 then .ok (.vsneV (vecHdr w) (fld w 20 5) (fld w 15 5) (fld w 10 5)) else
  if f = 0x51 then .ok (.vsneVX (vecHdr w) (fld w 20 5) (fld w 15 5) (fld w 10 5)) else
  if f = 0x12 then .ok (.vsltV (vecHdr w) (fld w 20 5) (fld w 15 5) (fld w 10 5)) else
  if f = 0x52 then .ok (.vsltVX (vecHdr w) (fld w 20 5) (fld w 15 5) (fld w 10 5)) else
  if f = 0x13 then .ok (.vsleV (vecHdr w) (fld w 20 5) (fld w 15 5) (fld w 10 5)) else
  if f = 0x53 then .ok (.vsleVX (vecHdr w) (fld w 20 5) (fld w 15 5) (fld w 10 5)) else
  if f = 0x14 then .ok (.vsgtV (vecHdr w) (fld w 20 5) (fld w 15 5) (fld w 10 5)) else
  if f = 0x54 then .ok (.vsgtVX (vecHdr w) (fld w 20 5) (fld w 15 5) (fld w 10 5)) else
  if f = 0x15 then .ok (.vsgeV (vecHdr w) (fld w 20 5) (fld w 15 5) (fld w 10 5)) else
  if f = 0x55 then .ok (.vsgeVX (vecHdr w) (fld w 20 5) (fld w 15 5) (fld w 10 5)) else
  if f = 0x16 then .ok (.vselV (vecHdr w) (fld w 20 5) (fld w 15 5) (fld w 10 5)) else
  if f = 0x56 then .ok (.vselVX (vecHdr w) (fld w 20 5) (fld w 15 5) (fld w 10 5)) else
  if f = 0x17 then okIf (fld w 10 5 = 0) .reserved (.vmvV (vecHdr w) (fld w 20 5) (fld w 15 5)) else
  if f = 0x57 then okIf (fld w 15 5 = 0) .reserved (.vmvVX (vecHdr w) (fld w 20 5) (fld w 10 5)) else
  if f = 0x18 then okIf (fld w 10 5 < 13) .range (.vcvt (vecHdr w) (fld w 20 5) (fld w 15 5) (fld w 10 5)) else
  if f = 0x20 then .ok (.vmulV (vecHdr w) (fld w 20 5) (fld w 15 5) (fld w 10 5)) else
  if f = 0x60 then .ok (.vmulVX (vecHdr w) (fld w 20 5) (fld w 15 5) (fld w 10 5)) else
  decodeVec2 w f

/-- R46, R202: the functions of this class. -/
def decodeVec (w f : Nat) : Except Reject Instr :=
  if f = 0x0 then .ok (.vaddV (vecHdr w) (fld w 20 5) (fld w 15 5) (fld w 10 5)) else
  if f = 0x40 then .ok (.vaddVX (vecHdr w) (fld w 20 5) (fld w 15 5) (fld w 10 5)) else
  if f = 0x1 then .ok (.vsubV (vecHdr w) (fld w 20 5) (fld w 15 5) (fld w 10 5)) else
  if f = 0x41 then .ok (.vsubVX (vecHdr w) (fld w 20 5) (fld w 15 5) (fld w 10 5)) else
  if f = 0x42 then .ok (.vrsub (vecHdr w) (fld w 20 5) (fld w 15 5) (fld w 10 5)) else
  if f = 0x3 then .ok (.vminV (vecHdr w) (fld w 20 5) (fld w 15 5) (fld w 10 5)) else
  if f = 0x43 then .ok (.vminVX (vecHdr w) (fld w 20 5) (fld w 15 5) (fld w 10 5)) else
  if f = 0x4 then .ok (.vmaxV (vecHdr w) (fld w 20 5) (fld w 15 5) (fld w 10 5)) else
  if f = 0x44 then .ok (.vmaxVX (vecHdr w) (fld w 20 5) (fld w 15 5) (fld w 10 5)) else
  if f = 0x5 then .ok (.vandV (vecHdr w) (fld w 20 5) (fld w 15 5) (fld w 10 5)) else
  if f = 0x45 then .ok (.vandVX (vecHdr w) (fld w 20 5) (fld w 15 5) (fld w 10 5)) else
  if f = 0x6 then .ok (.vorV (vecHdr w) (fld w 20 5) (fld w 15 5) (fld w 10 5)) else
  if f = 0x46 then .ok (.vorVX (vecHdr w) (fld w 20 5) (fld w 15 5) (fld w 10 5)) else
  if f = 0x7 then .ok (.vxorV (vecHdr w) (fld w 20 5) (fld w 15 5) (fld w 10 5)) else
  if f = 0x47 then .ok (.vxorVX (vecHdr w) (fld w 20 5) (fld w 15 5) (fld w 10 5)) else
  if f = 0x8 then .ok (.vsllV (vecHdr w) (fld w 20 5) (fld w 15 5) (fld w 10 5)) else
  if f = 0x48 then .ok (.vsllVX (vecHdr w) (fld w 20 5) (fld w 15 5) (fld w 10 5)) else
  if f = 0x9 then .ok (.vsrlV (vecHdr w) (fld w 20 5) (fld w 15 5) (fld w 10 5)) else
  if f = 0x49 then .ok (.vsrlVX (vecHdr w) (fld w 20 5) (fld w 15 5) (fld w 10 5)) else
  if f = 0xA then .ok (.vsraV (vecHdr w) (fld w 20 5) (fld w 15 5) (fld w 10 5)) else
  if f = 0x4A then .ok (.vsraVX (vecHdr w) (fld w 20 5) (fld w 15 5) (fld w 10 5)) else
  if f = 0xB then .ok (.vsaddV (vecHdr w) (fld w 20 5) (fld w 15 5) (fld w 10 5)) else
  if f = 0x4B then .ok (.vsaddVX (vecHdr w) (fld w 20 5) (fld w 15 5) (fld w 10 5)) else
  if f = 0xC then .ok (.vssubV (vecHdr w) (fld w 20 5) (fld w 15 5) (fld w 10 5)) else
  decodeVec1 w f

/-- R47, R289: the functions of this class. -/
def decodeBsx (w f : Nat) : Except Reject Instr :=
  if f = 0x0 then okIf (4 ≤ fld w 10 5 && fld w 10 5 < 7) .range (.mxq (bsxHdr w) (fld w 20 5) (fld w 15 5) (fld w 10 5)) else
  if f = 0x1 then okIf (7 ≤ fld w 10 5 && fld w 10 5 < 13) .range (.mxdq (bsxHdr w) (fld w 20 5) (fld w 15 5) (fld w 10 5)) else
  if f = 0x2 then okIf (4 ≤ fld w 10 5 && fld w 10 5 < 12) .range (.fcvtV (bsxHdr w) (fld w 20 5) (fld w 15 5) (fld w 10 5)) else
  if f = 0x3 then okIf (4 ≤ fld w 10 5 && fld w 10 5 < 13) .range (.bsexp (bsxHdr w) (fld w 20 5) (fld w 15 5) (fld w 10 5)) else
  if f = 0x44 then okIf (fld w 7 3 = 0 && fld w 15 10 = 0) .reserved (.srseed { bsxHdr w with msk := 0 } (fld w 10 5)) else
  if f = 0x45 then okIf (fld w 7 3 = 0 && fld w 15 10 = 0) .reserved (.srskip { bsxHdr w with msk := 0 } (fld w 10 5)) else
  if f = 0x6 then okIf (fld w 7 13 = 0) .reserved (.xaccClr { bsxHdr w with msk := 0 } (fld w 20 5)) else
  if f = 0x7 then okIf (fld w 7 8 = 0) .reserved (.xaccAdd { bsxHdr w with msk := 0 } (fld w 20 5) (fld w 15 5)) else
  if f = 0x48 then okIf (fld w 7 3 = 0) .reserved (.xaccRd { bsxHdr w with msk := 0 } (fld w 20 5) (fld w 15 5) (fld w 10 5)) else
  if f = 0x10 then okIf (fld w 7 8 = 0) .reserved (.xdec { bsxHdr w with msk := 0 } (fld w 20 5) (fld w 15 5)) else
  if f = 0x51 then okIf (fld w 7 3 = 0 && fld w 15 13 = 0) .reserved (.xstateSave { av := 0, tk := 0, c := 0, msk := 0 } (fld w 10 5)) else
  if f = 0x52 then okIf (fld w 7 3 = 0 && fld w 15 13 = 0) .reserved (.xstateRestore { av := 0, tk := 0, c := 0, msk := 0 } (fld w 10 5)) else
  .error .function

/-- R48, R231: the functions of this class. -/
def decodeVmu (w f : Nat) : Except Reject Instr :=
  if f = 0x0 then okIf (fld w 10 5 = 0) .reserved (.vld (vmuHdr w) (fld w 20 5) (fld w 15 5)) else
  if f = 0x1 then .ok (.vlds (vmuHdr w) (fld w 20 5) (fld w 15 5) (fld w 10 5)) else
  if f = 0x2 then .ok (.vldx (vmuHdr w) (fld w 20 5) (fld w 15 5) (fld w 10 5)) else
  if f = 0x3 then okIf (fld w 13 2 = 0) .reserved (.vldff (vmuHdr w) (fld w 20 5) (fld w 15 5) (fld w 10 3)) else
  if f = 0x4 then if fld w 13 2 = 0 then okIf (0 < fld w 10 3) .range (.vlda (vmuHdr w) (fld w 20 5) (fld w 15 5) (fld w 10 3)) else .error .reserved else
  if f = 0x8 then okIf (fld w 10 5 = 0) .reserved (.vst (vmuHdr w) (fld w 20 5) (fld w 15 5)) else
  if f = 0x9 then .ok (.vsts (vmuHdr w) (fld w 20 5) (fld w 15 5) (fld w 10 5)) else
  if f = 0xA then .ok (.vstx (vmuHdr w) (fld w 20 5) (fld w 15 5) (fld w 10 5)) else
  if f = 0xC then if fld w 13 2 = 0 then okIf (0 < fld w 10 3) .range (.vstr (vmuHdr w) (fld w 20 5) (fld w 15 5) (fld w 10 3)) else .error .reserved else
  if f = 0x10 then .ok (.vamoadd (vmuHdr w) (fld w 20 5) (fld w 15 5) (fld w 10 5)) else
  if f = 0x11 then .ok (.vamoor (vmuHdr w) (fld w 20 5) (fld w 15 5) (fld w 10 5)) else
  if f = 0x12 then .ok (.vamoand (vmuHdr w) (fld w 20 5) (fld w 15 5) (fld w 10 5)) else
  if f = 0x13 then .ok (.vamomin (vmuHdr w) (fld w 20 5) (fld w 15 5) (fld w 10 5)) else
  if f = 0x14 then .ok (.vamomax (vmuHdr w) (fld w 20 5) (fld w 15 5) (fld w 10 5)) else
  if f = 0x15 then .ok (.vamoswap (vmuHdr w) (fld w 20 5) (fld w 15 5) (fld w 10 5)) else
  if f = 0x16 then .ok (.vamocas (vmuHdr w) (fld w 20 5) (fld w 15 5) (fld w 10 5)) else
  if f = 0x18 then okIf (fld w 7 8 = 0 && fld w 20 5 = 0) .reserved (.stripBegin { vmuHdr w with msk := 0 } (fld w 15 5)) else
  if f = 0x19 then okIf (fld w 7 18 = 0) .reserved (.stripCommit { vmuHdr w with msk := 0 }) else
  if f = 0x1A then okIf (fld w 7 18 = 0) .reserved (.stripAbort { vmuHdr w with msk := 0 }) else
  .error .function

/-- R49, R263: the matrix functions. A TMERGE whose VB is above 1 is refused as a `range` (R264). -/
def decodeMtx (w f : Nat) : Except Reject Instr :=
  if f = 0x0 then .ok (.opa (mtxHdr w) (fld w 24 2) (fld w 19 5) (fld w 14 5)) else
  if f = 0x1 then .ok (.opas (mtxHdr w) (fld w 24 2) (fld w 19 5) (fld w 14 5)) else
  if f = 0x2 then okIf (fld w 14 10 = 0) .reserved (.tzero (mtxHdr w) (fld w 24 2)) else
  if f = 0x3 then .ok (.trd (mtxHdr w) (fld w 24 2) (fld w 19 5) (fld w 14 5)) else
  if f = 0x4 then .ok (.twr (mtxHdr w) (fld w 24 2) (fld w 19 5) (fld w 14 5)) else
  if f = 0x5 then .ok (.tshift (mtxHdr w) (fld w 24 2) (fld w 14 10)) else
  if f = 0x7 then okIf (fld w 11 13 = 0) .reserved (.tflags { mtxHdr w with msk := 0 } (fld w 24 2)) else
  if f = 0x8 then okIf (fld w 11 13 = 0) .reserved (.talloc { mtxHdr w with msk := 0 } (fld w 24 2)) else
  if f = 0x9 then okIf (fld w 11 13 = 0) .reserved (.tfree { mtxHdr w with msk := 0 } (fld w 24 2)) else
  if f = 0x6 then (if fld w 14 5 = 0 then .ok (.tmerge (mtxHdr w) (fld w 24 2) (fld w 19 5)) else okIf (fld w 14 5 = 1) .range (.tmergeAtt (mtxHdr w) (fld w 24 2) (fld w 19 5))) else
  .error .function

/-- R49, R307: the functions of this class. -/
def decodeStrm (w f : Nat) : Except Reject Instr :=
  if f = 0x0 then .ok (.sld (fld w 6 2) (fld w 23 3) (fld w 18 5) (fld w 13 5) (fld w 8 5)) else
  if f = 0x1 then .ok (.sst (fld w 6 2) (fld w 23 3) (fld w 18 5) (fld w 13 5) (fld w 8 5)) else
  if f = 0x2 then .ok (.scpy (fld w 6 2) (fld w 23 3) (fld w 18 5) (fld w 13 5) (fld w 8 5)) else
  if f = 0x3 then .ok (.spln (fld w 6 2) (fld w 23 3) (fld w 18 5) (fld w 13 5) (fld w 8 5)) else
  if f = 0x4 then .ok (.sldG (fld w 6 2) (fld w 23 3) (fld w 18 5) (fld w 13 5) (fld w 8 5)) else
  if f = 0x5 then .ok (.sind (fld w 6 2) (fld w 23 3) (fld w 18 5) (fld w 13 5) (fld w 8 5)) else
  if f = 0x6 then okIf (fld w 8 5 = 0) .reserved (.spat (fld w 6 2) (fld w 23 3) (fld w 18 5) (fld w 13 5)) else
  if f = 0x7 then .ok (.sbind (fld w 6 2) (fld w 23 3) (fld w 18 5) (fld w 13 5) (fld w 8 5)) else
  if f = 0x8 then okIf (fld w 8 15 = 0) .reserved (.sunbind (fld w 6 2) (fld w 23 3)) else
  if f = 0x9 then .ok (.ssend (fld w 6 2) (fld w 23 3) (fld w 18 5) (fld w 13 5) (fld w 8 5)) else
  if f = 0xA then okIf (fld w 6 2 = 0 && fld w 13 10 = 0) .reserved (.swait (fld w 23 3) (fld w 8 5)) else
  if f = 0xB then okIf (fld w 6 12 = 0) .reserved (.savail (fld w 23 3) (fld w 18 5)) else
  if f = 0xC then okIf (fld w 6 2 = 0 && fld w 13 5 = 0) .reserved (.sstat (fld w 23 3) (fld w 18 5) (fld w 8 5)) else
  .error .function

/-- R41: the majors 0x01 to 0x1F with one instruction each. -/
def decodeBase (w m : Nat) : Except Reject Instr :=
  if m = 0x1 then .ok (.addi (fld w 21 5) (fld w 16 5) (fld w 0 16)) else
  if m = 0x2 then .ok (.andi (fld w 21 5) (fld w 16 5) (fld w 0 16)) else
  if m = 0x3 then .ok (.ori (fld w 21 5) (fld w 16 5) (fld w 0 16)) else
  if m = 0x4 then .ok (.xori (fld w 21 5) (fld w 16 5) (fld w 0 16)) else
  if m = 0x5 then .ok (.slti (fld w 21 5) (fld w 16 5) (fld w 0 16)) else
  if m = 0x6 then .ok (.sltiu (fld w 21 5) (fld w 16 5) (fld w 0 16)) else
  if m = 0x8 then okIf (fld w 16 5 = 0) .reserved (.lui (fld w 21 5) (fld w 0 16)) else
  if m = 0x9 then okIf (fld w 16 5 = 0) .reserved (.addpc (fld w 21 5) (fld w 0 16)) else
  if m = 0xA then .ok (.jalr (fld w 21 5) (fld w 16 5) (fld w 0 16)) else
  if m = 0xB then .ok (.j (fld w 0 26)) else
  if m = 0xC then .ok (.jal (fld w 0 26)) else
  if m = 0xD then .ok (.beq (fld w 21 5) (fld w 16 5) (fld w 0 16)) else
  if m = 0xE then .ok (.bne (fld w 21 5) (fld w 16 5) (fld w 0 16)) else
  if m = 0xF then .ok (.blt (fld w 21 5) (fld w 16 5) (fld w 0 16)) else
  if m = 0x10 then .ok (.bge (fld w 21 5) (fld w 16 5) (fld w 0 16)) else
  if m = 0x11 then .ok (.bltu (fld w 21 5) (fld w 16 5) (fld w 0 16)) else
  if m = 0x12 then .ok (.bgeu (fld w 21 5) (fld w 16 5) (fld w 0 16)) else
  if m = 0x13 then .ok (.lb (fld w 21 5) (fld w 16 5) (fld w 0 16)) else
  if m = 0x14 then .ok (.lbu (fld w 21 5) (fld w 16 5) (fld w 0 16)) else
  if m = 0x15 then .ok (.lh (fld w 21 5) (fld w 16 5) (fld w 0 16)) else
  if m = 0x16 then .ok (.lhu (fld w 21 5) (fld w 16 5) (fld w 0 16)) else
  if m = 0x17 then .ok (.lw (fld w 21 5) (fld w 16 5) (fld w 0 16)) else
  if m = 0x18 then .ok (.lwu (fld w 21 5) (fld w 16 5) (fld w 0 16)) else
  if m = 0x19 then .ok (.ld (fld w 21 5) (fld w 16 5) (fld w 0 16)) else
  if m = 0x1A then okIf (fld w 21 5 < 16) .registerField (.flw (fld w 21 5) (fld w 16 5) (fld w 0 16)) else
  if m = 0x1B then .ok (.sb (fld w 21 5) (fld w 16 5) (fld w 0 16)) else
  if m = 0x1C then .ok (.sh (fld w 21 5) (fld w 16 5) (fld w 0 16)) else
  if m = 0x1D then .ok (.sw (fld w 21 5) (fld w 16 5) (fld w 0 16)) else
  if m = 0x1E then .ok (.sd (fld w 21 5) (fld w 16 5) (fld w 0 16)) else
  if m = 0x1F then okIf (fld w 21 5 < 16) .registerField (.fsw (fld w 21 5) (fld w 16 5) (fld w 0 16)) else
  .error .major

/-- R41: which class a major belongs to. -/
def decodeMajor (w m : Nat) : Except Reject Instr :=
  if m = 0x07 then decodeShi w (fld w 6 2) else
  if m < 0x20 then decodeBase w m else
  if m < 0x28 then decodeVec w (fld w 0 7) else
  if m < 0x2C then decodeBsx w (fld w 0 7) else
  if m = 0x2C then decodeVmu w (fld w 0 5) else
  if m = 0x2D then decodeMtx w (fld w 0 9) else
  if m = 0x2E then decodeStrm w (fld w 0 6) else
  if m = 0x30 then decodeAlu w (fld w 0 11) else
  if m = 0x31 then decodeFpu w (fld w 0 8) else
  if m = 0x32 then decodeAmo w (fld w 0 4) else
  if m = 0x33 then decodeSync w (fld w 0 6) else
  if m = 0x34 then decodeSys w (fld w 0 4) else
  if m = 0x35 then decodeVconf w (fld w 0 11) else
  if m = 0x36 then decodeGov w (fld w 0 11) else
  if m = 0x37 then decodeWeir w (fld w 0 11) else
  .error .major

/-- The instruction a 32-bit word stands for, or why its bits are refused (R29, R50). -/
def decode (w : Nat) : Except Reject Instr :=
  if w < 2 ^ 32 then decodeMajor w (fld w 26 6) else .error .width

/-- The decoder's answer on a word numbered as the operation table numbers it: the word of four bytes, stored
little-endian (R29), is the number itself. -/
def decodeTableWord (nbits w : Nat) : Option Instr :=
  if nbits ≤ 32 then (decode w).toOption else none

/-- R30, R263: the bits of the header of a VEC, BSX word. -/
def VHdr.vecBits (h : VHdr) : Nat := h.av * 2 ^ 28 + h.tk * 2 ^ 26 + h.c * 2 ^ 25 + h.msk * 2 ^ 7
/-- R231: the bits of the header of a VMU word. -/
def VHdr.vmuBits (h : VHdr) : Nat := h.c * 2 ^ 25 + h.msk * 2 ^ 7 + h.tk * 2 ^ 5
/-- R263: the bits of the header of an X-format word. -/
def XHdr.bits (x : XHdr) : Nat := x.tk * 2 ^ 9 + x.msk * 2 ^ 11

/-- A base word with 1 field put at their places. -/
def with1 (m x1 p1 : Nat) : Nat := m + x1 * 2 ^ p1
/-- A base word with 2 fields put at their places. -/
def with2 (m x1 p1 x2 p2 : Nat) : Nat := m + x1 * 2 ^ p1 + x2 * 2 ^ p2
/-- A base word with 3 fields put at their places. -/
def with3 (m x1 p1 x2 p2 x3 p3 : Nat) : Nat := m + x1 * 2 ^ p1 + x2 * 2 ^ p2 + x3 * 2 ^ p3
/-- A base word with 4 fields put at their places. -/
def with4 (m x1 p1 x2 p2 x3 p3 x4 p4 : Nat) : Nat := m + x1 * 2 ^ p1 + x2 * 2 ^ p2 + x3 * 2 ^ p3 + x4 * 2 ^ p4
/-- A base word with 5 fields put at their places. -/
def with5 (m x1 p1 x2 p2 x3 p3 x4 p4 x5 p5 : Nat) : Nat := m + x1 * 2 ^ p1 + x2 * 2 ^ p2 + x3 * 2 ^ p3 + x4 * 2 ^ p4 + x5 * 2 ^ p5

/-- The word of an instruction, from the encodings of R30, R42 to R49, R201, R231, R263, R289 and R307.
An event has no word and answers 0, which is no instruction (R29). -/
def encode : Instr → Nat
  | .addi d a i => with3 0x4000000 d 21 a 16 i 0
  | .andi d a i => with3 0x8000000 d 21 a 16 i 0
  | .ori d a i => with3 0xC000000 d 21 a 16 i 0
  | .xori d a i => with3 0x10000000 d 21 a 16 i 0
  | .slti d a i => with3 0x14000000 d 21 a 16 i 0
  | .sltiu d a i => with3 0x18000000 d 21 a 16 i 0
  | .slli d a s => with3 0x1C000000 d 21 a 16 s 0
  | .srli d a s => with3 0x1C000040 d 21 a 16 s 0
  | .srai d a s => with3 0x1C000080 d 21 a 16 s 0
  | .lui d i => with2 0x20000000 d 21 i 0
  | .addpc d i => with2 0x24000000 d 21 i 0
  | .jalr d a i => with3 0x28000000 d 21 a 16 i 0
  | .j o => with1 0x2C000000 o 0
  | .jal o => with1 0x30000000 o 0
  | .beq a b o => with3 0x34000000 a 21 b 16 o 0
  | .bne a b o => with3 0x38000000 a 21 b 16 o 0
  | .blt a b o => with3 0x3C000000 a 21 b 16 o 0
  | .bge a b o => with3 0x40000000 a 21 b 16 o 0
  | .bltu a b o => with3 0x44000000 a 21 b 16 o 0
  | .bgeu a b o => with3 0x48000000 a 21 b 16 o 0
  | .lb d a i => with3 0x4C000000 d 21 a 16 i 0
  | .lbu d a i => with3 0x50000000 d 21 a 16 i 0
  | .lh d a i => with3 0x54000000 d 21 a 16 i 0
  | .lhu d a i => with3 0x58000000 d 21 a 16 i 0
  | .lw d a i => with3 0x5C000000 d 21 a 16 i 0
  | .lwu d a i => with3 0x60000000 d 21 a 16 i 0
  | .ld d a i => with3 0x64000000 d 21 a 16 i 0
  | .flw d a i => with3 0x68000000 d 21 a 16 i 0
  | .sb d a i => with3 0x6C000000 d 21 a 16 i 0
  | .sh d a i => with3 0x70000000 d 21 a 16 i 0
  | .sw d a i => with3 0x74000000 d 21 a 16 i 0
  | .sd d a i => with3 0x78000000 d 21 a 16 i 0
  | .fsw d a i => with3 0x7C000000 d 21 a 16 i 0
  | .add d a b => with3 0xC0000000 d 21 a 16 b 11
  | .sub d a b => with3 0xC0000001 d 21 a 16 b 11
  | .and d a b => with3 0xC0000002 d 21 a 16 b 11
  | .or d a b => with3 0xC0000003 d 21 a 16 b 11
  | .xor d a b => with3 0xC0000004 d 21 a 16 b 11
  | .sll d a b => with3 0xC0000005 d 21 a 16 b 11
  | .srl d a b => with3 0xC0000006 d 21 a 16 b 11
  | .sra d a b => with3 0xC0000007 d 21 a 16 b 11
  | .slt d a b => with3 0xC0000008 d 21 a 16 b 11
  | .sltu d a b => with3 0xC0000009 d 21 a 16 b 11
  | .mul d a b => with3 0xC000000A d 21 a 16 b 11
  | .mulh d a b => with3 0xC000000B d 21 a 16 b 11
  | .mulhu d a b => with3 0xC000000C d 21 a 16 b 11
  | .div d a b => with3 0xC000000D d 21 a 16 b 11
  | .divu d a b => with3 0xC000000E d 21 a 16 b 11
  | .rem d a b => with3 0xC000000F d 21 a 16 b 11
  | .remu d a b => with3 0xC0000010 d 21 a 16 b 11
  | .min d a b => with3 0xC0000011 d 21 a 16 b 11
  | .max d a b => with3 0xC0000012 d 21 a 16 b 11
  | .minu d a b => with3 0xC0000013 d 21 a 16 b 11
  | .maxu d a b => with3 0xC0000014 d 21 a 16 b 11
  | .clz d a => with2 0xC0000015 d 21 a 16
  | .ctz d a => with2 0xC0000016 d 21 a 16
  | .popc d a => with2 0xC0000017 d 21 a 16
  | .fadd d a b r => with4 0xC4000000 d 21 a 16 b 11 r 8
  | .fsub d a b r => with4 0xC4000001 d 21 a 16 b 11 r 8
  | .fmul d a b r => with4 0xC4000002 d 21 a 16 b 11 r 8
  | .fdiv d a b r => with4 0xC4000003 d 21 a 16 b 11 r 8
  | .fsqrt d a r => with3 0xC4000004 d 21 a 16 r 8
  | .fmin d a b => with3 0xC4000005 d 21 a 16 b 11
  | .fmax d a b => with3 0xC4000006 d 21 a 16 b 11
  | .feq d a b => with3 0xC4000007 d 21 a 16 b 11
  | .flt d a b => with3 0xC4000008 d 21 a 16 b 11
  | .fle d a b => with3 0xC4000009 d 21 a 16 b 11
  | .fcvtGF d a r => with3 0xC400000A d 21 a 16 r 8
  | .fcvtFG d a r => with3 0xC400000B d 21 a 16 r 8
  | .fmvGf d a => with2 0xC400000C d 21 a 16
  | .fmvFg d a => with2 0xC400000D d 21 a 16
  | .amoadd d a b s w => with5 0xC8000000 d 21 a 16 b 11 s 6 w 4
  | .amoor d a b s w => with5 0xC8000001 d 21 a 16 b 11 s 6 w 4
  | .amoand d a b s w => with5 0xC8000002 d 21 a 16 b 11 s 6 w 4
  | .amomin d a b s w => with5 0xC8000003 d 21 a 16 b 11 s 6 w 4
  | .amomax d a b s w => with5 0xC8000004 d 21 a 16 b 11 s 6 w 4
  | .amoswap d a b s w => with5 0xC8000005 d 21 a 16 b 11 s 6 w 4
  | .amocas d a b s w => with5 0xC8000006 d 21 a 16 b 11 s 6 w 4
  | .lda d a s w => with4 0xC8000007 d 21 a 16 s 6 w 4
  | .str a b s w => with4 0xC8000008 a 16 b 11 s 6 w 4
  | .fence s => with1 0xCC000000 s 6
  | .lsync => 0xCC000001
  | .bar s => with1 0xCC000002 s 6
  | .waitw d a b s => with4 0xCC000003 d 21 a 16 b 11 s 6
  | .tkpush a => with1 0xCC000004 a 16
  | .tkpop a => with1 0xCC000005 a 16
  | .spawn d a b => with3 0xCC000006 d 21 a 16 b 11
  | .halt => 0xCC000007
  | .gangJoin d a b => with3 0xCC000008 d 21 a 16 b 11
  | .gangLeave => 0xCC000009
  | .yield => 0xCC00000A
  | .prio d a => with2 0xCC00000B d 21 a 16
  | .sysrd d s => with2 0xD0000000 d 21 s 4
  | .syswr a s => with2 0xD0000001 a 16 s 4
  | .sysswap d a s => with3 0xD0000002 d 21 a 16 s 4
  | .trap c => with1 0xD0000003 c 4
  | .retT => 0xD0000004
  | .invpg a => with1 0xD0000005 a 16
  | .invall a => with1 0xD0000006 a 16
  | .vframeSave d a => with2 0xD0000007 d 21 a 16
  | .vframeRestore d a => with2 0xD0000008 d 21 a 16
  | .bkpt c => with1 0xD0000009 c 4
  | .vsetvl d a b => with3 0xD4000000 d 21 a 16 b 11
  | .vcfg d a => with2 0xD4000001 d 21 a 16
  | .vmread d a b => with3 0xD4000002 d 21 a 16 b 11
  | .vmpopc d a => with2 0xD4000003 d 21 a 16
  | .stepBegin d a b => with3 0xD8000000 d 21 a 16 b 11
  | .stepEnd d => with1 0xD8000001 d 21
  | .stepQuery d => with1 0xD8000002 d 21
  | .weirHint d a b => with3 0xDC000000 d 21 a 16 b 11
  | .weirQuery d a => with2 0xDC000001 d 21 a 16
  | .vaddV h d a b => with3 (Nat.add 0x80000000 h.vecBits) d 20 a 15 b 10
  | .vaddVX h d a b => with3 (Nat.add 0x80000040 h.vecBits) d 20 a 15 b 10
  | .vsubV h d a b => with3 (Nat.add 0x80000001 h.vecBits) d 20 a 15 b 10
  | .vsubVX h d a b => with3 (Nat.add 0x80000041 h.vecBits) d 20 a 15 b 10
  | .vrsub h d a b => with3 (Nat.add 0x80000042 h.vecBits) d 20 a 15 b 10
  | .vminV h d a b => with3 (Nat.add 0x80000003 h.vecBits) d 20 a 15 b 10
  | .vminVX h d a b => with3 (Nat.add 0x80000043 h.vecBits) d 20 a 15 b 10
  | .vmaxV h d a b => with3 (Nat.add 0x80000004 h.vecBits) d 20 a 15 b 10
  | .vmaxVX h d a b => with3 (Nat.add 0x80000044 h.vecBits) d 20 a 15 b 10
  | .vandV h d a b => with3 (Nat.add 0x80000005 h.vecBits) d 20 a 15 b 10
  | .vandVX h d a b => with3 (Nat.add 0x80000045 h.vecBits) d 20 a 15 b 10
  | .vorV h d a b => with3 (Nat.add 0x80000006 h.vecBits) d 20 a 15 b 10
  | .vorVX h d a b => with3 (Nat.add 0x80000046 h.vecBits) d 20 a 15 b 10
  | .vxorV h d a b => with3 (Nat.add 0x80000007 h.vecBits) d 20 a 15 b 10
  | .vxorVX h d a b => with3 (Nat.add 0x80000047 h.vecBits) d 20 a 15 b 10
  | .vsllV h d a b => with3 (Nat.add 0x80000008 h.vecBits) d 20 a 15 b 10
  | .vsllVX h d a b => with3 (Nat.add 0x80000048 h.vecBits) d 20 a 15 b 10
  | .vsrlV h d a b => with3 (Nat.add 0x80000009 h.vecBits) d 20 a 15 b 10
  | .vsrlVX h d a b => with3 (Nat.add 0x80000049 h.vecBits) d 20 a 15 b 10
  | .vsraV h d a b => with3 (Nat.add 0x8000000A h.vecBits) d 20 a 15 b 10
  | .vsraVX h d a b => with3 (Nat.add 0x8000004A h.vecBits) d 20 a 15 b 10
  | .vsaddV h d a b => with3 (Nat.add 0x8000000B h.vecBits) d 20 a 15 b 10
  | .vsaddVX h d a b => with3 (Nat.add 0x8000004B h.vecBits) d 20 a 15 b 10
  | .vssubV h d a b => with3 (Nat.add 0x8000000C h.vecBits) d 20 a 15 b 10
  | .vssubVX h d a b => with3 (Nat.add 0x8000004C h.vecBits) d 20 a 15 b 10
  | .vavgV h d a b => with3 (Nat.add 0x8000000D h.vecBits) d 20 a 15 b 10
  | .vavgVX h d a b => with3 (Nat.add 0x8000004D h.vecBits) d 20 a 15 b 10
  | .vabs h d a => with2 (Nat.add 0x8000000E h.vecBits) d 20 a 15
  | .vneg h d a => with2 (Nat.add 0x8000000F h.vecBits) d 20 a 15
  | .vseqV h d a b => with3 (Nat.add 0x80000010 h.vecBits) d 20 a 15 b 10
  | .vseqVX h d a b => with3 (Nat.add 0x80000050 h.vecBits) d 20 a 15 b 10
  | .vsneV h d a b => with3 (Nat.add 0x80000011 h.vecBits) d 20 a 15 b 10
  | .vsneVX h d a b => with3 (Nat.add 0x80000051 h.vecBits) d 20 a 15 b 10
  | .vsltV h d a b => with3 (Nat.add 0x80000012 h.vecBits) d 20 a 15 b 10
  | .vsltVX h d a b => with3 (Nat.add 0x80000052 h.vecBits) d 20 a 15 b 10
  | .vsleV h d a b => with3 (Nat.add 0x80000013 h.vecBits) d 20 a 15 b 10
  | .vsleVX h d a b => with3 (Nat.add 0x80000053 h.vecBits) d 20 a 15 b 10
  | .vsgtV h d a b => with3 (Nat.add 0x80000014 h.vecBits) d 20 a 15 b 10
  | .vsgtVX h d a b => with3 (Nat.add 0x80000054 h.vecBits) d 20 a 15 b 10
  | .vsgeV h d a b => with3 (Nat.add 0x80000015 h.vecBits) d 20 a 15 b 10
  | .vsgeVX h d a b => with3 (Nat.add 0x80000055 h.vecBits) d 20 a 15 b 10
  | .vselV h d a b => with3 (Nat.add 0x80000016 h.vecBits) d 20 a 15 b 10
  | .vselVX h d a b => with3 (Nat.add 0x80000056 h.vecBits) d 20 a 15 b 10
  | .vmvV h d a => with2 (Nat.add 0x80000017 h.vecBits) d 20 a 15
  | .vmvVX h d b => with2 (Nat.add 0x80000057 h.vecBits) d 20 b 10
  | .vcvt h d a b => with3 (Nat.add 0x80000018 h.vecBits) d 20 a 15 b 10
  | .vmulV h d a b => with3 (Nat.add 0x80000020 h.vecBits) d 20 a 15 b 10
  | .vmulVX h d a b => with3 (Nat.add 0x80000060 h.vecBits) d 20 a 15 b 10
  | .vmulhV h d a b => with3 (Nat.add 0x80000021 h.vecBits) d 20 a 15 b 10
  | .vmulhVX h d a b => with3 (Nat.add 0x80000061 h.vecBits) d 20 a 15 b 10
  | .vmaccV h d a b => with3 (Nat.add 0x80000022 h.vecBits) d 20 a 15 b 10
  | .vmaccVX h d a b => with3 (Nat.add 0x80000062 h.vecBits) d 20 a 15 b 10
  | .vdivV h d a b => with3 (Nat.add 0x80000023 h.vecBits) d 20 a 15 b 10
  | .vdivVX h d a b => with3 (Nat.add 0x80000063 h.vecBits) d 20 a 15 b 10
  | .vremV h d a b => with3 (Nat.add 0x80000024 h.vecBits) d 20 a 15 b 10
  | .vremVX h d a b => with3 (Nat.add 0x80000064 h.vecBits) d 20 a 15 b 10
  | .vsmulV h d a b => with3 (Nat.add 0x80000025 h.vecBits) d 20 a 15 b 10
  | .vsmulVX h d a b => with3 (Nat.add 0x80000065 h.vecBits) d 20 a 15 b 10
  | .vexp2 h d a => with2 (Nat.add 0x80000026 h.vecBits) d 20 a 15
  | .vlog2 h d a => with2 (Nat.add 0x80000027 h.vecBits) d 20 a 15
  | .vmand h d a b => with3 (Nat.add 0x80000030 h.vecBits) d 20 a 15 b 10
  | .vmor h d a b => with3 (Nat.add 0x80000031 h.vecBits) d 20 a 15 b 10
  | .vmxor h d a b => with3 (Nat.add 0x80000032 h.vecBits) d 20 a 15 b 10
  | .vmandn h d a b => with3 (Nat.add 0x80000033 h.vecBits) d 20 a 15 b 10
  | .vmnot h d a => with2 (Nat.add 0x80000034 h.vecBits) d 20 a 15
  | .vslideup h d a b => with3 (Nat.add 0x80000075 h.vecBits) d 20 a 15 b 10
  | .vslidedn h d a b => with3 (Nat.add 0x80000076 h.vecBits) d 20 a 15 b 10
  | .vperm h d a b => with3 (Nat.add 0x80000037 h.vecBits) d 20 a 15 b 10
  | .vcompress h d a => with2 (Nat.add 0x80000038 h.vecBits) d 20 a 15
  | .viota h d a => with2 (Nat.add 0x80000039 h.vecBits) d 20 a 15
  | .vindex h d => with1 (Nat.add 0x8000003A h.vecBits) d 20
  | .vconfl h d a => with2 (Nat.add 0x8000003B h.vecBits) d 20 a 15
  | .vred h d a b => with3 (Nat.add 0x8000003C h.vecBits) d 20 a 15 b 10
  | .vscan h d a b => with3 (Nat.add 0x8000003D h.vecBits) d 20 a 15 b 10
  | .vredoF h d a => with2 (Nat.add 0x8000003E h.vecBits) d 20 a 15
  | .vredx h d a => with2 (Nat.add 0x8000003F h.vecBits) d 20 a 15
  | .mxq h d a b => with3 (Nat.add 0xA0000000 h.vecBits) d 20 a 15 b 10
  | .mxdq h d a b => with3 (Nat.add 0xA0000001 h.vecBits) d 20 a 15 b 10
  | .fcvtV h d a b => with3 (Nat.add 0xA0000002 h.vecBits) d 20 a 15 b 10
  | .bsexp h d a b => with3 (Nat.add 0xA0000003 h.vecBits) d 20 a 15 b 10
  | .srseed h b => with1 (Nat.add 0xA0000044 h.vecBits) b 10
  | .srskip h b => with1 (Nat.add 0xA0000045 h.vecBits) b 10
  | .xaccClr h d => with1 (Nat.add 0xA0000006 h.vecBits) d 20
  | .xaccAdd h d a => with2 (Nat.add 0xA0000007 h.vecBits) d 20 a 15
  | .xaccRd h d a b => with3 (Nat.add 0xA0000048 h.vecBits) d 20 a 15 b 10
  | .xdec h d a => with2 (Nat.add 0xA0000010 h.vecBits) d 20 a 15
  | .xstateSave h b => with1 (Nat.add 0xA0000051 h.vecBits) b 10
  | .xstateRestore h b => with1 (Nat.add 0xA0000052 h.vecBits) b 10
  | .vld h d a => with2 (Nat.add 0xB0000000 h.vmuBits) d 20 a 15
  | .vlds h d a b => with3 (Nat.add 0xB0000001 h.vmuBits) d 20 a 15 b 10
  | .vldx h d a b => with3 (Nat.add 0xB0000002 h.vmuBits) d 20 a 15 b 10
  | .vldff h d a f => with3 (Nat.add 0xB0000003 h.vmuBits) d 20 a 15 f 10
  | .vlda h d a s => with3 (Nat.add 0xB0000004 h.vmuBits) d 20 a 15 s 10
  | .vst h d a => with2 (Nat.add 0xB0000008 h.vmuBits) d 20 a 15
  | .vsts h d a b => with3 (Nat.add 0xB0000009 h.vmuBits) d 20 a 15 b 10
  | .vstx h d a b => with3 (Nat.add 0xB000000A h.vmuBits) d 20 a 15 b 10
  | .vstr h d a s => with3 (Nat.add 0xB000000C h.vmuBits) d 20 a 15 s 10
  | .vamoadd h d a b => with3 (Nat.add 0xB0000010 h.vmuBits) d 20 a 15 b 10
  | .vamoor h d a b => with3 (Nat.add 0xB0000011 h.vmuBits) d 20 a 15 b 10
  | .vamoand h d a b => with3 (Nat.add 0xB0000012 h.vmuBits) d 20 a 15 b 10
  | .vamomin h d a b => with3 (Nat.add 0xB0000013 h.vmuBits) d 20 a 15 b 10
  | .vamomax h d a b => with3 (Nat.add 0xB0000014 h.vmuBits) d 20 a 15 b 10
  | .vamoswap h d a b => with3 (Nat.add 0xB0000015 h.vmuBits) d 20 a 15 b 10
  | .vamocas h d a b => with3 (Nat.add 0xB0000016 h.vmuBits) d 20 a 15 b 10
  | .stripBegin h a => with1 (Nat.add 0xB0000018 h.vmuBits) a 15
  | .stripCommit h => (Nat.add 0xB0000019 h.vmuBits)
  | .stripAbort h => (Nat.add 0xB000001A h.vmuBits)
  | .opa x t a b => with3 (Nat.add 0xB4000000 x.bits) t 24 a 19 b 14
  | .opas x t a b => with3 (Nat.add 0xB4000001 x.bits) t 24 a 19 b 14
  | .tzero x t => with1 (Nat.add 0xB4000002 x.bits) t 24
  | .trd x t a b => with3 (Nat.add 0xB4000003 x.bits) t 24 a 19 b 14
  | .twr x t a b => with3 (Nat.add 0xB4000004 x.bits) t 24 a 19 b 14
  | .tshift x t s => with2 (Nat.add 0xB4000005 x.bits) t 24 s 14
  | .tmerge x t a => with2 (Nat.add 0xB4000006 x.bits) t 24 a 19
  | .tmergeAtt x t a => with2 (Nat.add 0xB4004006 x.bits) t 24 a 19
  | .tflags x t => with1 (Nat.add 0xB4000007 x.bits) t 24
  | .talloc x t => with1 (Nat.add 0xB4000008 x.bits) t 24
  | .tfree x t => with1 (Nat.add 0xB4000009 x.bits) t 24
  | .sld k q d a b => with5 0xB8000000 k 6 q 23 d 18 a 13 b 8
  | .sst k q d a b => with5 0xB8000001 k 6 q 23 d 18 a 13 b 8
  | .scpy k q d a b => with5 0xB8000002 k 6 q 23 d 18 a 13 b 8
  | .spln k q d a b => with5 0xB8000003 k 6 q 23 d 18 a 13 b 8
  | .sldG k q d a b => with5 0xB8000004 k 6 q 23 d 18 a 13 b 8
  | .sind k q d a b => with5 0xB8000005 k 6 q 23 d 18 a 13 b 8
  | .spat k q d a => with4 0xB8000006 k 6 q 23 d 18 a 13
  | .sbind k q d a b => with5 0xB8000007 k 6 q 23 d 18 a 13 b 8
  | .sunbind k q => with2 0xB8000008 k 6 q 23
  | .ssend k q d a b => with5 0xB8000009 k 6 q 23 d 18 a 13 b 8
  | .swait q b => with2 0xB800000A q 23 b 8
  | .savail q d => with2 0xB800000B q 23 d 18
  | .sstat q d b => with3 0xB800000C q 23 d 18 b 8
  | .illegalEncoding _ => 0
  | .queueEntryFree _ _ => 0
  | .convoyStart _ => 0
  | .elementGroup _ => 0
  | .starvationGrant _ _ => 0
  | .redeal _ => 0
  | .groupRefill _ => 0
  | .parking _ => 0
  | .gangJoinRetry _ => 0
  | .takeEngineFault _ => 0
  | .takeInterrupt _ => 0
  | .preempt _ => 0
  | .waitwWake _ => 0
  | .tkpopWake _ => 0
  | .swaitWake _ => 0
  | .tileGrant _ _ => 0
  | .streamBurst _ _ => 0
  | .sldGMulticast _ _ _ => 0
  | .ssendBurstArrival _ _ => 0
  | .expanderBlock _ => 0
  | .xdecWriteStep _ => 0
  | .admitHeldWrite _ _ => 0
  | .recompress _ _ => 0
  | .migrate _ _ => 0
  | .balloon _ _ => 0
  | .weirboundExpiry _ _ => 0
  | .woosrecRead _ _ => 0
  | .replay _ _ => 0
  | .cancel _ _ => 0
  | .discard _ _ => 0
  | .setnone _ _ => 0
  | .setlossless _ _ => 0
  | .weirRecall _ _ => 0
  | .wcmdInvalid _ => 0
  | .weirCommandDone _ => 0
  | .poolEnable _ _ => 0
  | .deviceRegisterWrite _ _ => 0
  | .svhSet _ => 0
  | .tsliceWrite _ _ => 0
  | .tkrouteWrite _ _ => 0
  | .flush _ => 0
  | .drop _ => 0
  | .unfreeze _ => 0
  | .destroy _ => 0
  | .uncorrectableError _ _ _ _ => 0
  | .correctableError _ _ _ => 0
  | .governorEvaluation _ _ => 0
  | .operatingPointStep _ _ => 0
  | .powerCapUpdate => 0
  | .budgetShortfall _ => 0
  | .request _ _ _ => 0
  | .grant _ _ _ _ => 0
  | .leaseReclaim => 0
  | .leaseWindDown => 0
  | .leaseEnd => 0
  | .thermalWarning _ _ _ => 0
  | .thermalCapDown _ _ => 0
  | .thermalCapUp _ _ => 0
  | .emergencySave _ _ _ => 0
  | .trip => 0
  | .powerUp => 0
  | .packageReset => 0
  | .standbyPowerApplied => 0
  | .standbyPowerLoss => 0
  | .stationWake _ => 0
  | .laneGroupGate _ _ => 0
  | .droopWithdraw _ _ => 0
  | .droopRestore _ _ => 0
  | .stationCacheWriteback _ _ _ => 0
  | .stationCacheFill _ _ _ => 0
  | .inboundMemoryRequest _ _ _ _ _ => 0
  | .inboundAtomicop _ => 0
  | .onwctlWrite _ => 0
  | .outboundCompletion _ => 0
  | .outboundTimeout _ => 0
  | .towpathRetryFailure _ _ _ => 0
  | .towpathLinkUp _ _ _ => 0
  | .draborPortState _ _ _ => 0
  | .fpost _ _ => 0
  | .fabricTransferArrival _ _ _ _ _ _ => 0
  | .fabricAck _ _ => 0
  | .loadimg _ _ => 0
  | .attest _ => 0
  | .start _ _ _ => 0
  | .drain _ => 0
  | .swap _ => 0
  | .undrain _ => 0
  | .retire _ => 0
  | .svcInvalid _ => 0
  | .svcCommandEnd => 0
  | .stationDrained _ _ => 0
  | .marchElement _ _ _ => 0
  | .marchFinish _ _ _ => 0
  | .glearnClear _ _ => 0
  | .arm _ => 0
  | .vframeRestoreGrant _ => 0
  | .fetchFault _ => 0
  | .thermalWarningClear _ _ => 0

/-- The rows that have an encoding; the others are events. -/
def Instr.encodable : Instr → Bool
  | .illegalEncoding _ => false
  | .queueEntryFree _ _ => false
  | .convoyStart _ => false
  | .elementGroup _ => false
  | .starvationGrant _ _ => false
  | .redeal _ => false
  | .groupRefill _ => false
  | .parking _ => false
  | .gangJoinRetry _ => false
  | .takeEngineFault _ => false
  | .takeInterrupt _ => false
  | .preempt _ => false
  | .waitwWake _ => false
  | .tkpopWake _ => false
  | .swaitWake _ => false
  | .tileGrant _ _ => false
  | .streamBurst _ _ => false
  | .sldGMulticast _ _ _ => false
  | .ssendBurstArrival _ _ => false
  | .expanderBlock _ => false
  | .xdecWriteStep _ => false
  | .admitHeldWrite _ _ => false
  | .recompress _ _ => false
  | .migrate _ _ => false
  | .balloon _ _ => false
  | .weirboundExpiry _ _ => false
  | .woosrecRead _ _ => false
  | .replay _ _ => false
  | .cancel _ _ => false
  | .discard _ _ => false
  | .setnone _ _ => false
  | .setlossless _ _ => false
  | .weirRecall _ _ => false
  | .wcmdInvalid _ => false
  | .weirCommandDone _ => false
  | .poolEnable _ _ => false
  | .deviceRegisterWrite _ _ => false
  | .svhSet _ => false
  | .tsliceWrite _ _ => false
  | .tkrouteWrite _ _ => false
  | .flush _ => false
  | .drop _ => false
  | .unfreeze _ => false
  | .destroy _ => false
  | .uncorrectableError _ _ _ _ => false
  | .correctableError _ _ _ => false
  | .governorEvaluation _ _ => false
  | .operatingPointStep _ _ => false
  | .powerCapUpdate => false
  | .budgetShortfall _ => false
  | .request _ _ _ => false
  | .grant _ _ _ _ => false
  | .leaseReclaim => false
  | .leaseWindDown => false
  | .leaseEnd => false
  | .thermalWarning _ _ _ => false
  | .thermalCapDown _ _ => false
  | .thermalCapUp _ _ => false
  | .emergencySave _ _ _ => false
  | .trip => false
  | .powerUp => false
  | .packageReset => false
  | .standbyPowerApplied => false
  | .standbyPowerLoss => false
  | .stationWake _ => false
  | .laneGroupGate _ _ => false
  | .droopWithdraw _ _ => false
  | .droopRestore _ _ => false
  | .stationCacheWriteback _ _ _ => false
  | .stationCacheFill _ _ _ => false
  | .inboundMemoryRequest _ _ _ _ _ => false
  | .inboundAtomicop _ => false
  | .onwctlWrite _ => false
  | .outboundCompletion _ => false
  | .outboundTimeout _ => false
  | .towpathRetryFailure _ _ _ => false
  | .towpathLinkUp _ _ _ => false
  | .draborPortState _ _ _ => false
  | .fpost _ _ => false
  | .fabricTransferArrival _ _ _ _ _ _ => false
  | .fabricAck _ _ => false
  | .loadimg _ _ => false
  | .attest _ => false
  | .start _ _ _ => false
  | .drain _ => false
  | .swap _ => false
  | .undrain _ => false
  | .retire _ => false
  | .svcInvalid _ => false
  | .svcCommandEnd => false
  | .stationDrained _ _ => false
  | .marchElement _ _ _ => false
  | .marchFinish _ _ _ => false
  | .glearnClear _ _ => false
  | .arm _ => false
  | .vframeRestoreGrant _ => false
  | .fetchFault _ => false
  | .thermalWarningClear _ _ => false
  | _ => true

end Sys2Proof
end

