-- ==== Sys2Proof/Word.lean ====
section
/-! DEFINITION. The word types of the LX9: 64-bit scalar registers and addresses, 32-bit f-registers, bytes, and
the 136-bit exact accumulators (R52). -/

namespace Sys2Proof

/-- A g-register, an address, a sysreg. -/
abbrev W64 := BitVec 64
/-- An f-register: an fp32 pattern. -/
abbrev W32 := BitVec 32
/-- A byte of memory. -/
abbrev Byte := BitVec 8
/-- An exact accumulator. -/
abbrev Acc := BitVec 136

end Sys2Proof
end

