-- ==== Sys2Proof/Config.lean ====
section
/-! DEFINITION. What the manual leaves open (R9, R104, R108, R348, R372, R386, R415): constants with no body, so
that no proof can see a value of them. A statement that holds of them holds whatever they are. -/

namespace Sys2Proof.Config

/-- A bit of register contents that the manual calls undefined (R9): of the filling `seed`, at `position`. -/
opaque freeBit : (seed position : Nat) → Bool

/-- A byte of memory whose value the manual leaves opaque (R104, R86), of the writing `seed`, at an address. -/
opaque freeByte : (seed address : Nat) → Byte

/-- The ns that pass with step number `tick` of the machine (R4, R372: times are not part of a result). -/
opaque elapsed : (tick : Nat) → Nat

/-- The sectors that the internal algorithm needs for the nonzero bytes of a frame (R348), before the bounds of R348. -/
opaque sectors : (contents : List Host.Cell) → Nat

/-- The same after a recompression at the highest effort (R356). -/
opaque bestSectors : (contents : List Host.Cell) → Nat

/-- The ns that a save or a restore lasts (R108), by step number. -/
opaque duration : (tick : Nat) → Nat

/-- How many parts of its save a die has written when core power is removed (R396), by step number and die. -/
opaque saveParts : (tick die : Nat) → Nat

/-- The energy in µJ charged with step number `tick` (R386: the tables are not given) to a context, to 64 + the number of a
die for the die's own work, or, for an interval of a station, to 128 + the station. -/
opaque energy : (tick who : Nat) → Nat

/-- The estimated draw in W of a station at a point, at an update (R388, R390: how draw is estimated is not given). -/
opaque draw : (tick station point : Nat) → Nat

/-- What a package lends of its surplus (R389), by event number. -/
opaque lend : (tick : Nat) → Nat

/-- A sensor's reading in °C (R373, R392: an outside input), by event number. -/
opaque sensor : (tick : Nat) → Nat

/-- The address of a failed outbound request (R402, R404), by event number. -/
opaque failedAddress : (tick : Nat) → Nat

/-- The images in the module's flash when it is delivered (R414), by kind. -/
opaque delivered : (kind : Nat) → List Byte

/-- What a row of lane SRAM, or of the mask and tag array, holds after harts have used it (R423): 1 zeros, 2 ones, others
neither. -/
opaque rowLeft : (seed row : Nat) → Nat

/-- The private half of the attestation identity key (R416): 32 bytes that never leave the controller. -/
opaque attestSeed : List Byte

/-- The certificate chain (R416). -/
opaque certChain : List Byte

/-- The vendor key hash fused in die 0 (R415). -/
opaque vendorKeyHash : List Byte

/-- The fused minimum SVN of each image kind, 1 to 4, at manufacture (R415). -/
opaque fusedSvn : (kind : Nat) → Nat

end Sys2Proof.Config
end

