-- ==== Sys2Proof/Machine/State.lean ====
section
/-! DEFINITION. The state of the LX9 package as plain data, and the state right after reset.

Each field cites the rule that gives the machine that piece of state. Collections keyed by a number (harts by
identifier, stations by 64 * die + number, cores by hart identifier / 4) are lists of pairs; a key that is not listed
stands for the reset value of that piece. -/

namespace Sys2Proof.Machine

/-! ### Names -/

/-- The three queues of a hart (R15). -/
inductive Queue where
  | vector
  | matrix
  | stream
  deriving DecidableEq, Repr

/-- The trap causes of R179. -/
inductive Cause where
  | illins | illconvoy | illwidth | vill | pgfltR | pgfltW | pgfltX | attrconfl | align | stripfull | stripfatal
  | oos | xchk | xlen | xfmt | tkovf | gangerr | framebad | frozen | syscall | bkpt | preempt | dlrisk | weirlow
  deriving DecidableEq, Repr

/-- What happens next: a hart reaches its next instruction boundary, an engine makes its next move for a hart, an event
strikes, a station cache drops its clean copy of a line, a lane cache of a hart drops a line (R112, R132), a Drabor port
or a Towpath link repeats a flit (R408, R410) (log 3). -/
inductive Act where
  | hart (id : Nat)
  | engine (id : Nat) (q : Queue)
  | event (e : Instr)
  | dropLine (stn line : Nat)
  | dropLane (id idx line : Nat)
  | flit (port : Nat)
  | linkFlit (die link : Nat)
  deriving DecidableEq, Repr

/-- A translation: the entry, the device-physical address, log2 of the bytes of the page (R123). -/
structure Xlat where
  pte : Nat
  pa : Nat
  size : Nat
  deriving DecidableEq, Repr

/-! ### Registers of the engines -/

/-- The tag of a v-register: width, live-plane count, signed writer (R186). -/
structure Tag where
  w : Nat
  p : Nat
  sgn : Bool
  deriving DecidableEq, Repr

/-- Bits some of which the manual calls undefined (R9). A position with its bit of `known` set holds the bit of
`val`. Any other position holds a free value: that of the first filling of `fills` (seed and positions) that covers
it, or else that of `seed`. -/
structure BitStore where
  seed : Nat
  fills : List (Nat × Nat)
  known : Nat
  val : Nat
  deriving DecidableEq, Repr

/-- A v-register (R184, R186). Bit-row r of lane l is at position l * R + r, R the bit-rows of one register. -/
structure VReg where
  tag : Option Tag
  st : BitStore
  deriving DecidableEq, Repr

/-- The decoder state of a block under decode: the record of R343. -/
structure DecState where
  st : Nat
  off : Nat
  bitpos : Nat
  header : List Byte
  plane : Nat
  pmode : Nat
  pos : Nat
  kleft : Nat
  hist : Nat
  obuf : Nat
  deriving DecidableEq, Repr

/-- A block of an XDEC that is decoded and checked, or skipped (no state), and not yet written whole (R342): its first
element, header offset, elements of its chunks. -/
structure XBlock where
  s : Nat
  off : Nat
  room : Nat
  dec : Option DecState
  deriving DecidableEq, Repr

/-- Where an XDEC stands (R337, R340, R342): the element and header offset of the block it works on, the action
for that block, and its decoder state; the blocks before it that are not yet written whole, oldest first. -/
structure XState where
  s : Nat
  off : Nat
  mode : Nat
  dec : Option DecState
  ahead : List XBlock
  deriving DecidableEq, Repr

/-- Partial state of an instruction between element groups (R103, R218 to R220, R215): the exact running value,
the running encoding, the count written, the XDEC. -/
structure Partial where
  acc : Int
  seen : Bool
  bits : Nat
  cnt : Nat
  xd : Option XState
  deriving DecidableEq, Repr

/-- An entry of a queue (R16, R103): what dispatch captured and how far the instruction has come. -/
structure Entry where
  /-- Dispatch order within the hart. -/
  seq : Nat
  /-- The slot of the queue (R98). -/
  slot : Nat
  pc : W64
  word : Nat
  op : Instr
  /-- The TK code (R34). -/
  tk : Nat
  ga : W64
  gb : W64
  gd : W64
  vl : Nat
  vtype : W64
  tshape : W64
  tkroute : W64
  /-- SRCTR and SRSEED as captured (R207). -/
  srctr : Nat
  srseed : W64
  /-- The mode at dispatch (R122). -/
  sup : Bool
  /-- The bindings whose registers it reads, by the dispatch number of their SBIND, with the positions captured
  (R317); of a SUNBIND, the binding that it ends. -/
  pos : List (Nat × Nat)
  /-- It begins a convoy (R32). -/
  first : Bool
  /-- Its class is already taken in its convoy, or a strip word breaks the convoy (R89, R245). -/
  conflict : Bool
  popped : Bool
  reserved : Bool
  started : Bool
  /-- The effective VL captured at issue (R191). -/
  eff : Nat
  progress : Nat
  part : Partial
  flags : Nat
  /-- REASON of a freeze (R182). -/
  frozen : Option Nat
  /-- Held by the Weir (R354). -/
  held : Bool
  /-- A fault has stopped it (R100). -/
  stopped : Bool
  /-- Results by element that retire will write: of the destination, and of the scale register or mask beside it. -/
  res : List (Nat × Nat)
  res2 : List (Nat × Nat)
  /-- For an SSEND burst in flight: its bytes (R320). -/
  inflight : List Byte
  /-- An OOS fault owed at the end of the element group: its TRAPVAL (R361, device-class page). -/
  owed : Option Nat
  /-- The VMU has probed its access (R92, R238), or a stream has read its parameters (R309); the failure that the probe
  found: cause, element, address. -/
  probed : Bool
  bad : Option (Cause × Nat × Nat)
  /-- The translations of the pages it touches, each made once by the probe, by 64 KiB unit (R126). -/
  xl : List (Nat × Xlat)
  /-- Steps done of the element group in progress, which a stop discards (R195, R199). -/
  sub : Nat
  /-- The cores whose sequencer has run its part of the step in progress (R94). -/
  ran : List Nat
  deriving DecidableEq, Repr

/-- A re-deal entry (R84): the old and new row geometry, the keep-mask, and the spilled groups. -/
structure Redeal where
  keep : Nat
  n : Nat
  group : Nat
  lOld : Nat
  lNew : Nat
  /-- Grant indices whose contents it reads from the spill area. -/
  spilled : List Nat
  deriving DecidableEq, Repr

/-- An item of the vector queue: an instruction or a re-deal. The re-deal's `Entry` carries its place and its VSETVL. -/
structure VItem where
  e : Entry
  redeal : Option Redeal
  deriving DecidableEq, Repr

/-- A fault waiting for delivery at the vector commit pointer (R100). -/
structure EFault where
  q : Queue
  slot : Nat
  pc : W64
  cause : Cause
  val : W64
  estart : Nat
  valid : Bool
  deriving DecidableEq, Repr

/-- A binding (R317), from the dispatch of its SBIND: its address, slot, register and registers of its group, N, width,
KIND, layout, base, mode, elements per lane under the consumers' VTYPE. -/
structure Binding where
  pc : W64
  q : Nat
  vd : Nat
  grp : Nat
  n : Nat
  w : Nat
  kind : Nat
  layout : Nat
  base : Nat
  sup : Bool
  epl : Nat
  /-- SBIND has issued (R317). -/
  issued : Bool
  /-- The dispatch number of its SUNBIND (R318). -/
  closed : Option Nat
  /-- The position the next consumer captures. -/
  pos : Nat
  /-- Landed elements, oldest first, from element `low` on. -/
  low : Nat
  ring : List Nat
  /-- Consumers not yet retired: dispatch number, position, VL and elements completed. -/
  cons : List (Nat × Nat × Nat × Nat)
  /-- The stretch whose bursts are being read (R303): its elements, and the bytes of the bursts read so far as numbers. -/
  under : Option (Nat × Nat × List Nat)
  deriving DecidableEq, Repr

/-- A stream slot (R302, R304, R323). -/
structure Slot where
  holder : Option Nat
  stopped : Bool
  fn : Nat
  /-- The element count N of its transfer (R26). -/
  n : Nat
  /-- The element from which a stopped bound stream restarts (R325). -/
  restart : Nat
  progress : Nat
  ea : Nat
  /-- The binding that holds it: the dispatch number of its SBIND. -/
  bind : Option Nat
  deriving DecidableEq, Repr

/-- An entry of the address-range interlock table (R24): the transfer's dispatch number, its range and directions. -/
structure Ilk where
  seq : Nat
  lo : Nat
  hi : Nat
  rd : Bool
  wr : Bool
  deriving DecidableEq, Repr

/-- Whether a lane group is granted, parked, or spilled and awaiting refill (R72, R78, R87). -/
inductive GroupState where
  | granted | parked | spilled
  deriving DecidableEq, Repr

/-- A lane group of a hart (R78, R79): its grant index, and the core and group it is. -/
structure Grp where
  idx : Nat
  core : Nat
  grp : Nat
  st : GroupState
  deriving DecidableEq, Repr

/-- A strip from the issue of its STRIP.BEGIN (R245 to R247): its base and its buffered bytes by virtual address. -/
structure Strip where
  base : Nat
  /-- Dispatch number of its STRIP.BEGIN. -/
  seq : Nat
  buf : List Host.Cell
  /-- The grant index of the group that holds each buffered line (R252). -/
  at_ : List (Nat × Nat)
  deriving DecidableEq, Repr

/-- A clean line in the lane cache of a group (R114): the grant index, the line, its position in the cache counted down
from the last bank, and its bytes as filled. -/
structure LaneLine where
  idx : Nat
  line : Nat
  pos : Nat
  bytes : List Byte
  deriving DecidableEq, Repr

/-- What a waiting WAITW watches (R163): destination, the value it waits to see change, scope, address, and the translation
that it uses, none once that has been invalidated (R129). -/
structure Watch where
  d : Nat
  b : W64
  sc : Nat
  va : Nat
  x : Option Xlat
  deriving DecidableEq, Repr

/-- Why a hart waits: the waits of R72 (WAITW with what it watches, TKPOP with its partner, SWAIT with its slot and
threshold); GANG.JOIN for groups (R71: destination, gang number, GG, NEXP); VFRAME.RESTORE for groups or tiles (R105, R259:
destination and save generation of the frame it has consumed). -/
inductive Wait where
  | waitw (w : Watch)
  | bar
  | tkpop (partner : Nat)
  | swait (q thr : Nat)
  | yard (d num gg nexp : Nat)
  | restore (d gen : Nat)
  deriving DecidableEq, Repr

/-- The trap that a double trap held back (R177, R183). -/
structure TrapRec where
  cause : Cause
  pc : W64
  val : W64
  deriving DecidableEq, Repr

/-- The open step of a hart (R374): deadline, work estimate, rate, work done, cycles. -/
structure StepRec where
  d : Int
  w : Option Nat
  k : Nat
  done : Nat
  c : Nat
  deriving DecidableEq, Repr

/-- What the admission of a held write does for its master (R353, R351): nothing but run its instruction again; finish
a scalar instruction with a register; apply a scalar AMO (operation, bytes, operand, comparand, destination); finish
the write of element `e` of an engine instruction; apply a vector AMO to element `e`; finish a burst of a stream, after
which `k` bursts are done and the progress is `n` (R304); write the bytes of an arrived fabric transfer, whose completion
word is then to take `inc`; add `v` to a completion word, of an arrived transfer or of the posted transfer `xfer` (R411). -/
inductive Finish where
  | again
  | done (d : Option (Nat × W64))
  | amo (op n y c d : Nat)
  | elem (e : Nat)
  | vamo (op n y c vd e : Nat) (sgn : Bool)
  | burst (k n : Nat)
  | fabric (cpa inc : Nat)
  | count (v : Nat) (xfer : Option Nat)
  deriving DecidableEq, Repr

/-- The state of a hart (R150). -/
structure Hart where
  ctx : Nat
  pc : W64
  g : Vector W64 32
  f : Vector W32 16
  v : Vector VReg 32
  /-- Mask registers (R185): the element's index is the position. -/
  m : Vector BitStore 8
  xacc : Vector Acc 4
  slots : Vector Slot 8
  /-- The bindings by the dispatch number of their SBIND (R317). -/
  binds : List (Nat × Binding)
  /-- STATUS without IPEND (R151). -/
  status : W64
  fflags : Nat
  /-- TRAPCAUSE's INT and CODE, and IPEND (R178). -/
  tcInt : Bool
  tcCode : Nat
  ipend : Nat
  trappc : W64
  trapval : W64
  trapvec : W64
  /-- What each pending interrupt will put in TRAPVAL, by IPEND bit 0 to 4 (R179). -/
  ipval : Vector W64 5
  vl : Nat
  vtype : W64
  vcfg : W64
  vgrant : W64
  vcp : W64
  estart : Nat
  tshape : W64
  srseed : W64
  srctr : Nat
  tkroute : W64
  prio : Nat
  /-- TSLICE.EFFECTIVE after a restore; none before the first, when it is SLICE (R108). -/
  effective : Option Nat
  sliceStart : Nat
  /-- The entry oldest in the vector queue when the slice began (R109), not yet moved by an element group. -/
  sliceHead : Option Nat
  /-- CAP and FSTAT of SBCAP (R251). -/
  sbcap : Nat
  fstat : Nat
  stepid : W64
  dlslack : W64
  step : Option StepRec
  vq : List VItem
  mq : List Entry
  sq : List Entry
  seq : Nat
  /-- A fault has stopped the queues (R100); `inTrap` from the trap's taking to RET.T (R153). -/
  qstop : Bool
  inTrap : Bool
  faults : List EFault
  /-- Token counts by 4 * producer + consumer (R20). -/
  tok : Vector Nat 16
  ilk : List Ilk
  /-- The convoy being dispatched: its classes, and none before the first vector-class word (R32). -/
  convoy : Option (List Nat)
  groups : List Grp
  deficit : Nat
  spill : Nat
  wait : Option Wait
  /-- The step in which the wait began (R79: longest waiting). -/
  waitSince : Nat
  frozen : Option TrapRec
  frozenReason : Nat
  held : Option Nat
  /-- By barrier group, the generation in which it last arrived (R162). -/
  bar : List (Nat × Nat)
  /-- The address and the mode of a BAR whose wait a trap has ended, until it executes again (R162). -/
  barPc : Option (W64 × Bool)
  gang : Option (Nat × Nat)
  /-- Multicasts issued by this member (R313). -/
  mcast : Nat
  strip : Option Strip
  /-- Writes to SBCAP that wait for older vector-queue instructions (R251): dispatch number and value. -/
  sbpend : List (Nat × W64)
  /-- The FLUSH in progress: 0 before its probe, and else one more than its lines performed (R246, R251). -/
  flushAt : Nat
  stale : Nat
  woosaddr : Nat
  /-- When the refill of its spilled groups began to wait (R87). -/
  refillSince : Option Nat
  /-- Its frame is saved, and it has restored none since (R162). -/
  saved : Bool
  /-- Clean lines of the lane caches of its groups, latest filled first (R114). -/
  lcache : List LaneLine
  deriving DecidableEq, Repr

/-! ### Cores, stations, dies -/

/-- A tile register (R256): accumulators by 128 * m + n, those that are not 0; flags at NV, NX, SU, TV bits of FFLAGS. -/
structure Tile where
  acc : List (Nat × Nat)
  flags : Nat
  held : Option Nat
  last : Option Nat
  deriving DecidableEq, Repr

/-- A defect of a row: target, macro, row, and the value it is stuck at (R420, R423). -/
structure Defect where
  target : Nat
  macroNo : Nat
  row : Nat
  one : Bool
  deriving DecidableEq, Repr

/-- An entry of the repair table (R422). -/
structure Rpt where
  unrep : Bool
  target : Nat
  macroNo : Nat
  row : Nat
  spare : Nat
  deriving DecidableEq, Repr

/-- A core: tiles, instruction cache, march block and sequencer credits (R52, R116, R422, R94). -/
structure Core where
  tiles : Vector Tile 4
  icache : List (Nat × List Byte)
  credit : List (Nat × Int)
  /-- The hart whose turn it is in the vector sequencer, by priority level (R94). -/
  turns : List (Nat × Nat)
  /-- Cycles of the steps that the sequencer has run (R95). -/
  clock : Nat
  /-- That clock when a hart last issued or, before it ever did, was first ready (R95). -/
  issued : List (Nat × Nat)
  /-- The harts that were ready when the latest step began (R95). -/
  readyThen : List Nat
  /-- That clock at the latest starvation grant (R95). -/
  starved : Option Nat
  /-- The hart that the matrix engine served last, by priority level (R96). -/
  mtxTurns : List (Nat × Nat)
  merr : Bool
  fin : Nat
  unrep : Nat
  /-- Failing rows per target: target, macro, row (R423). -/
  fails : List (Nat × Nat × Nat)
  /-- The target of the latest accepted command (R422). -/
  target : Nat
  rpt : List Rpt
  /-- What the rows of each target hold: 1 zeros or 2 ones, as the latest element wrote them, or k + 3 what harts have left,
a free value of seed k. -/
  pattern : Vector Nat 4
  defects : List Defect
  deriving DecidableEq, Repr

/-- An entry of the learning table (R378): context, tag, work and rate, most recently written first. -/
structure Learn where
  ctx : Nat
  tag : Nat
  work : Nat
  rate : Nat
  deriving DecidableEq, Repr

/-- A station (R112, R27, R373, R392, R418). -/
structure Station where
  state : Nat
  dirty : List Host.Cell
  clean : List (Nat × List Byte)
  chperm : Nat
  margin : Nat
  guardNs : Nat
  interval : Nat
  idlept : Nat
  target : Nat
  cur : Nat
  throt : Bool
  thermalCap : Nat
  power : Nat
  temp : Nat
  eunattr : Nat
  /-- The fraction of a µJ that EUNATTR carries over, in 1/256 (R387). -/
  efrac : Nat
  /-- The updates of the station's firmware and governor tables that it has taken, by kind (R417). -/
  fw : List (Nat × List Byte)
  drcBase : Nat
  learn : List Learn
  /-- Lane groups that are power-gated: 64 * core + group (R385). -/
  gated : List Nat
  /-- Harts that watch a line at the station's slices, to which no write has been performed since: hart, line (R163). -/
  watch : List (Nat × Nat)
  /-- The hart that the stream engines served last, by priority level (R96). -/
  strmTurns : List (Nat × Nat)
  awake : Bool
  deriving DecidableEq, Repr

/-- A pool of compressed memory (R348 to R355, R365). -/
structure Pool where
  enabled : Bool
  ratio : Nat
  wlow : Nat
  wcrit : Nat
  free : Nat
  step : Nat
  lowRaised : Bool
  /-- Pseudo-channels out of use (R419): 64 * stack + channel. -/
  retired : List Nat
  deriving DecidableEq, Repr

/-- A frame of a pool (R348, R357): class, sectors, COLD, MAXEFF and host slot. -/
structure FrameInfo where
  lossless : Bool
  sectors : Nat
  cold : Bool
  maxeff : Bool
  slot : Option Nat
  deriving DecidableEq, Repr

/-- Who made a write that the Weir holds (R353). -/
inductive Master where
  | hart (id : Nat)
  | engine (id : Nat) (q : Queue) (slot : Nat)
  | inbound (rid : Nat)
  deriving DecidableEq, Repr

/-- A held write (R353, R359): its bytes still to perform by device-physical address, the frame they lie in, the
virtual address, who made it. A recall (R357) has no bytes. A write-back names its station (`wb`). -/
structure HeldWrite where
  id : Nat
  pool : Nat
  fr : Nat
  cells : List Host.Cell
  /-- The bits written of bytes that are written in part (R137). -/
  masks : List Host.Cell
  wb : Option Nat
  va : Nat
  /-- The virtual address of the first byte in each frame after the first (R359). -/
  vas : List (Nat × Nat)
  /-- The target context of an SSEND burst (R322, R360). -/
  target : Option Nat
  pa : Nat
  master : Master
  ctx : Nat
  device : Bool
  finish : Finish
  since : Nat
  /-- The number of its report, when it holds an entry of the held-write table (R359). -/
  reported : Option Nat
  rctx : Nat
  deriving DecidableEq, Repr

/-- A fabric transfer in flight (R411): posted, until it is acknowledged. -/
structure Xfer where
  id : Nat
  /-- The descriptor's address until it is read, at a home that may be out of reach (R407). -/
  desc : Option Nat
  /-- The header and the bytes have left on the port. -/
  sent : Bool
  /-- The outcome that LPA, at a home out of reach, has still to take (R407). -/
  code : Option Nat
  /-- The Weir holds the addition to LPA (R412). -/
  adding : Bool
  /-- The hart that posted it, when a hart did (R412). -/
  poster : Option Nat
  port : Nat
  src : Nat
  dst : Nat
  len : Nat
  cpa : Nat
  inc : Nat
  lpa : Nat
  deriving DecidableEq, Repr

/-- A Drabor port (R410). -/
structure Port where
  state : Nat
  peer : Nat
  retry : Nat
  deriving DecidableEq, Repr

/-- A Towpath link (R407, R408): STATE, retrains, retries, modules in service, and failed retrains per module. -/
structure Link where
  state : Nat
  retrain : Nat
  retry : Nat
  modup : Nat
  failed : List (Nat × Nat)
  deriving DecidableEq, Repr

/-- A die (R364, R365, R391, R408, R410, R418). -/
structure Die where
  pools : Vector Pool 2
  frames : List (Nat × FrameInfo)
  wbound : Nat
  whbase : Nat
  whslots : Nat
  wcmdst : Nat
  /-- The outcome a running Weir command will report. -/
  wcmdNext : Option Nat
  held : List HeldWrite
  crit : Nat
  warn : Nat
  esbase : Nat
  essize : Nat
  arm : Bool
  egen : Nat
  esstate : Nat
  links : Vector Link 2
  ports : Vector Port 4
  finbase : Nat
  finsize : Nat
  ffull : Bool
  fdrop : Nat
  inflight : List Xfer
  /-- Completion words of arrived transfers, at homes out of reach, with what they are still to take (R407, R411). -/
  owed : List (Nat × Nat)
  deriving DecidableEq, Repr

/-- A context (R68, R107, R322, R387). -/
structure Ctx where
  live : Bool
  gen : Nat
  slice : Nat
  energy : Nat
  /-- The fraction of a µJ that the counter carries over, in 1/256 (R387). -/
  frac : Nat
  deriving DecidableEq, Repr

/-! ### The package -/

/-- The translation structures (R125): instruction and data micro-TLB of a core, unit-stride register of a hart, gather
TLB bank of a core, stream TLB of an engine of a station, die TLB, and the walk cache of a die, which holds table pointers. -/
inductive TlbUnit where
  | fetch (core : Nat)
  | data (core : Nat)
  | row (id : Nat)
  | gather (core bank : Nat)
  | stream (stn engine : Nat)
  | die (d : Nat)
  | walk (d : Nat)
  deriving DecidableEq, Repr

/-- An entry of a translation structure (R125): context, page number at the page's size, the entry. An entry of a walk
cache covers what the table below covers: 2^42 or 2^29 bytes; its base is that table. -/
structure TlbEntry where
  unit : TlbUnit
  ctx : Nat
  /-- log2 of the page's bytes: 16, 21 or 29. -/
  size : Nat
  page : Nat
  pte : W64
  /-- Device-physical base of the page. -/
  base : Nat
  deriving DecidableEq, Repr

/-- Who a member of a gang is: a hart, or a saved frame by its save number (R162, R313). -/
inductive Who where
  | hart (id : Nat)
  | saved (gen : Nat)
  deriving DecidableEq, Repr

/-- A member of a gang: its index, the barrier generation from which it takes part, its multicast number. -/
structure Member where
  idx : Nat
  who : Who
  from_ : Nat
  mcast : Nat
  deriving DecidableEq, Repr

/-- A gang (R71, R167, R313). -/
structure Gang where
  gg : Nat
  nexp : Nat
  forming : Bool
  members : List Member
  deriving DecidableEq, Repr

/-- A barrier group (R162): its generation and who has arrived in it. -/
structure Barrier where
  gen : Nat
  arrived : List Who
  deriving DecidableEq, Repr

/-- A saved frame (R103, R104, R175): its save generation, the saver, and what it carries. `emergency` marks a record of
the thermal save (R393); `gang` names the gang of the saved member. -/
structure SavedFrame where
  gen : Nat
  saver : Nat
  emergency : Bool
  ctx : Nat
  ctxGen : Nat
  svh : Bool
  hart : Hart
  tiles : List (Nat × Tile)
  duration : Nat
  stepLeft : Option Int
  consumed : Bool
  deriving DecidableEq, Repr

/-- An inbound request (R400, R403): its BAR offset, bytes and data, and how far it has been performed. -/
structure Inbound where
  wr : Bool
  /-- It addresses BAR0; otherwise BAR2. -/
  bar0 : Bool
  /-- A write into the ordered-notify window as that stood when it arrived (R74, R401). -/
  notify : Bool
  off : Nat
  len : Nat
  data : Nat
  /-- Bytes performed, ascending, and what a read has read. -/
  pos : Nat
  got : Nat
  /-- The number of the held write of its latest piece (R361). -/
  wid : Option Nat
  /-- It has frozen its requester (R182). -/
  frozen : Bool
  deriving DecidableEq, Repr

/-- An inbound requester (R182, R403): its identifier, the reason it is frozen for (0: it is not), and its requests that
are not complete, in the order of their arrival. -/
structure Requester where
  rid : Nat
  reason : Nat
  requests : List Inbound
  deriving DecidableEq, Repr

/-- What the package sends to the outside (R183, R389, R399, R404, R405, R411). -/
inductive Sent where
  | msix (vector : Nat)
  | ur (rid : Nat)
  | readData (rid data : Nat)
  | abort (rid : Nat)
  | budgetRequest (ports pkg watts rseq : Nat)
  | budgetGrant (port pkg watts ns rseq : Nat)
  | fabric (port dst len cpa inc : Nat) (data : List Byte)
  | fabricAck (code : Nat)
  deriving DecidableEq, Repr

/-- A power lease (R389): lent or borrowed watts and the instant it ends. -/
structure Lease where
  lent : Bool
  watts : Nat
  until_ : Nat
  winding : Bool
  deriving DecidableEq, Repr

/-- The package's own registers (R388, R391, R401, R402, R410, R414 to R418). -/
structure Pkg where
  ctxtbase : Nat
  boot : Nat
  hwin : Vector Nat 16
  hevt : Nat
  hevten : Nat
  hfrozen : W64
  hoos : Nat
  herr : Nat
  svcarg : Vector W64 3
  svcst : Nat
  svcNext : Nat
  svcDetail : Nat
  /-- The LOADIMG or ATTEST whose accesses at home still wait: OP, SVCARG0, SVCARG1 (R407, R417). -/
  svcOp : Option (Nat × Nat × Nat)
  onwctl : Nat
  pbase : Nat
  please : Nat
  ppeers : Nat
  preserve : Nat
  pdraw : Nat
  leases : List Lease
  rseq : Nat
  /-- REQUESTs sent: sequence number and instant (R389). -/
  asked : List (Nat × Nat)
  /-- The instant at which a REQUEST was last answered, by port (R413). -/
  answered : List (Nat × Nat)
  eskept : Nat
  eslost : Nat
  esscan : Nat
  /-- Contexts that had a hart on a die at the latest emergency save: context and die (R396). -/
  eshad : List (Nat × Nat)
  fabid : Nat
  meas : List Byte
  reports : Nat
  flash : List (Nat × List Byte)
  /-- By kind, the DIGEST of the image that boot installed (R414), and of those accepted since (R417). -/
  installed : List (Nat × List Byte)
  updates : List (Nat × List Byte)
  svn : List (Nat × Nat)
  marched : Bool
  powered : Bool
  requesters : List Requester
  deriving DecidableEq, Repr

/-- The state of the package. -/
structure State where
  harts : List (Nat × Hart)
  cores : List (Nat × Core)
  stations : List (Nat × Station)
  dies : List (Nat × Die)
  ctxs : List (Nat × Ctx)
  /-- SPARE of each die that is not at reset: STATE and FOR (R418). -/
  spares : List (Nat × Nat × Nat)
  mem : List Host.Cell
  /-- Harts that watch a line at home, to which no write has been performed since: hart, line (R163). -/
  watch : List (Nat × Nat)
  tlb : List TlbEntry
  gangs : List (Nat × Gang)
  barriers : List (Nat × Barrier)
  frames : List SavedFrame
  pkg : Pkg
  /-- The hart whose instruction is executed. -/
  cur : Nat
  /-- The moves to come; when empty, the default order of `Step` (log 3). -/
  agenda : List Act
  /-- An engine instruction runs at once when nothing holds it back (log 3). -/
  eager : Bool
  tick : Nat
  now : Nat
  /-- The counter of free values and of save, write and transfer numbers (log 5). -/
  fresh : Nat
  out : List Sent
  deriving DecidableEq, Repr

/-- Why the machine stops. -/
inductive Fault where
  /-- Raised by `exec` when `cur` names no hart, so that there is no hart to execute a word. It marks a state that
  `step` never executes in; safe, for nothing is claimed of it. -/
  | noHart
  deriving DecidableEq, Repr

/-- Why an instruction has no meaning. -/
inductive Refusal where
  /-- Raised by `exec` for an instruction that has no meaning yet, by its mnemonic; safe. -/
  | notModelled (mnemonic : String)
  deriving DecidableEq, Repr

/-- The answer of a step. -/
abbrev Out := Host.Outcome State Fault Refusal

/-! ### The values at reset -/

/-- An empty slot (R302). -/
def Slot.reset : Slot := { holder := none, stopped := false, fn := 0, n := 0, restart := 0, progress := 0, ea := 0, bind := none }

/-- A tile after boot: free, cleared (R256, R414). -/
def Tile.reset : Tile := { acc := [], flags := 0, held := none, last := none }

/-- A core after reset. -/
def Core.reset : Core :=
  { tiles := Vector.replicate 4 Tile.reset, icache := [], credit := [], turns := [], clock := 0, issued := [],
    readyThen := [], starved := none, mtxTurns := [], merr := false,
    fin := 0, unrep := 0, fails := [], target := 0, rpt := [], pattern := Vector.replicate 4 1, defects := [] }

/-- A station after reset (R27, R373, R390, R392, R418). TEMP is DESIGN CHOICE (log 14). -/
def Station.reset : Station :=
  { state := 0, dirty := [], clean := [], chperm := 0xFF, margin := 16, guardNs := 2000, interval := 1000,
    idlept := 12, target := 12, cur := 12, throt := false, thermalCap := 15, power := 15, temp := 0, eunattr := 0,
    efrac := 0, fw := [], drcBase := 0, learn := [], gated := [], watch := [], strmTurns := [], awake := true }

/-- A pool of `sectors` sectors at reset (R350, R365). -/
def Pool.reset (sectors : Nat) : Pool :=
  { enabled := false, ratio := 16, wlow := 0x40000, wcrit := 0x10000, free := sectors, step := 0, lowRaised := false,
    retired := [] }

/-- A frame of a disabled pool, or outside the pools (R118, R348, R350). -/
def FrameInfo.none : FrameInfo := { lossless := false, sectors := 128, cold := false, maxeff := false, slot := .none }

/-- A die at reset (R365, R391, R408, R410). A pool's DRAM: 96 GiB of HBM4, 256 GiB of LPDDR6 in 512-byte sectors. -/
def Die.reset : Die :=
  { pools := #v[Pool.reset 201326592, Pool.reset 536870912], frames := [], wbound := 1000000, whbase := 0, whslots := 0,
    wcmdst := 0, wcmdNext := .none, held := [], crit := 105, warn := 95, esbase := 0, essize := 0, arm := false,
    egen := 0, esstate := 0,
    links := Vector.replicate 2 { state := 1, retrain := 0, retry := 0, modup := 0, failed := [] },
    ports := Vector.replicate 4 { state := 1, peer := 0, retry := 0 },
    finbase := 0, finsize := 0, ffull := false, fdrop := 0, inflight := [], owed := [] }

/-- A context that is not live (R322). -/
def Ctx.reset : Ctx := { live := false, gen := 0, slice := 0, energy := 0, frac := 0 }

/-- The package's registers at reset (R388, R391, R401, R402, R415). -/
def Pkg.reset : Pkg :=
  { ctxtbase := 0, boot := 0, hwin := Vector.replicate 16 0, hevt := 0, hevten := 0, hfrozen := 0, hoos := 0, herr := 0,
    svcarg := Vector.replicate 3 0, svcst := 0, svcNext := 0, svcDetail := 0, svcOp := none, onwctl := 0, pbase := 6000,
    please := 10000000, ppeers := 0, preserve := 200, pdraw := 0, leases := [], rseq := 0, asked := [], answered := [],
    eskept := 0, eslost := 0, esscan := 0, eshad := [], fabid := 0,
    meas := List.replicate 64 0, reports := 0, flash := [], installed := [], updates := [], svn := [], marched := false, powered := true, requesters := [] }

/-- The package right after reset: no hart, no live context, every register at its reset value, memory with nothing
listed (R414). How a program comes to run: log 2. -/
def State.reset : State :=
  { harts := [], cores := [], stations := [], dies := [], ctxs := [], spares := [], mem := [], watch := [], tlb := [], gangs := [],
    barriers := [], frames := [], pkg := Pkg.reset, cur := 0, agenda := [], eager := true, tick := 0, now := 0, fresh := 1,
    out := [] }

/-- Undefined contents (R9). -/
def BitStore.undef (seed : Nat) : BitStore := { seed := seed, fills := [], known := 0, val := 0 }
/-- A v-register untagged with undefined contents (R69, R76, R84). -/
def VReg.undef (seed : Nat) : VReg := { tag := none, st := BitStore.undef seed }

/-- A hart as SPAWN creates it (R69, R151, R374): user mode, at the entry point, with the reserved group of its slot
alone. `seed` and the 39 numbers after it name its undefined contents. -/
def Hart.spawned (id ctx : Nat) (pc arg0 arg1 : W64) (spill prio now seed : Nat) : Hart :=
  { ctx := ctx, pc := pc &&& ~~~3, g := ((Vector.replicate 32 (0 : W64)).set 1 arg0).set 2 arg1,
    f := Vector.replicate 16 0, v := Vector.ofFn fun i => VReg.undef (seed + i.val),
    m := Vector.ofFn fun i => BitStore.undef (seed + 32 + i.val), xacc := Vector.replicate 4 0,
    slots := Vector.replicate 8 Slot.reset, binds := [], status := 0x1F00, fflags := 0, tcInt := false, tcCode := 0, ipend := 0,
    trappc := 0, trapval := 0, trapvec := 0, ipval := Vector.replicate 5 0, vl := 0, vtype := 0x1000000000,
    vcfg := 0x802, vgrant := 0x10001, vcp := 0, estart := 0, tshape := 0x8000000000000000, srseed := 0, srctr := 0,
    tkroute := 0x15E, prio := prio, effective := none, sliceStart := now, sliceHead := none, sbcap := 0x400, fstat := 0,
    stepid := 0, dlslack := 0x7FFFFFFFFFFFFFFF, step := none, vq := [], mq := [], sq := [], seq := 0, qstop := false,
    inTrap := false, faults := [], tok := Vector.replicate 16 0, ilk := [], convoy := none,
    groups := [{ idx := 0, core := id / 4 % 4, grp := id % 4, st := .granted }], deficit := 0, spill := spill,
    wait := none, waitSince := 0, frozen := none, frozenReason := 0, held := none, bar := [], barPc := none, gang := none, mcast := 0,
    strip := none, sbpend := [], flushAt := 0, stale := 0, woosaddr := 0, refillSince := none, saved := false, lcache := [] }

end Sys2Proof.Machine
end

