-- ==== Sys2Proof/Machine/Bits.lean ====
section
/-! DEFINITION. Bit-field, sign-extension and byte-order helpers (R1, R7, R154), and lists of keyed pieces. -/

namespace Sys2Proof.Machine

/-- Bits [lo+n-1:lo] of a natural number (R1). -/
def bits (x lo n : Nat) : Nat := x / 2 ^ lo % 2 ^ n

/-- `x` with bits [lo+n-1:lo] replaced by `v`. -/
def setBits (x lo n v : Nat) : Nat := x - bits x lo n * 2 ^ lo + v % 2 ^ n * 2 ^ lo

/-- One bit. -/
def bitOf (b : Bool) : Nat := if b then 1 else 0

/-- The natural `x` of `n` bits read as two's complement (R154). -/
def sx (n x : Nat) : Int := if x % 2 ^ n < 2 ^ (n - 1) then (x % 2 ^ n : Nat) else (x % 2 ^ n : Nat) - (2 ^ n : Nat)

/-- An integer modulo 2^n. -/
def wrap (n : Nat) (z : Int) : Nat := (z % (2 ^ n : Nat)).toNat

/-- sext of an n-bit field to a g-register (R154). -/
def sext64 (n x : Nat) : W64 := BitVec.ofInt 64 (sx n x)

/-- A natural number as a g-register. -/
def w64 (x : Nat) : W64 := BitVec.ofNat 64 x

/-- The first `n` bytes of `x`, least significant first: memory is little-endian (R2). -/
def toBytes : (n x : Nat) → List Byte
  | 0, _ => []
  | n + 1, x => BitVec.ofNat 8 x :: toBytes n (x / 256)

/-- Bytes, least significant first, as a number (R2). -/
def ofBytes : List Byte → Nat
  | [] => 0
  | b :: l => b.toNat + 256 * ofBytes l

/-- ceil(a / b). -/
def ceilDiv (a b : Nat) : Nat := (a + b - 1) / b

/-- The consecutive numbers lo, lo+1, …, n of them. -/
def span (lo n : Nat) : List Nat := List.range' lo n

/-- The smallest p with x < 2^p. -/
def bitLen (x : Nat) : Nat := if x = 0 then 0 else Nat.log2 x + 1

/-! ### Lists of keyed pieces -/

/-- The piece with key `k`, if it is listed. -/
def find? {α : Type} (l : List (Nat × α)) (k : Nat) : Option α :=
  match l with
  | [] => none
  | (j, a) :: t => if j = k then some a else find? t k

/-- The list without key `k`. -/
def erase {α : Type} (l : List (Nat × α)) (k : Nat) : List (Nat × α) :=
  match l with
  | [] => []
  | (j, a) :: t => if j = k then erase t k else (j, a) :: erase t k

/-- The list with `a` at key `k`, in ascending key order. -/
def put {α : Type} (l : List (Nat × α)) (k : Nat) (a : α) : List (Nat × α) :=
  match l with
  | [] => [(k, a)]
  | (j, b) :: t => if k < j then (k, a) :: (j, b) :: t else if j = k then (k, a) :: t else (j, b) :: put t k a

/-- The piece at key `k`, or the value that an unlisted key stands for. -/
def getD {α : Type} (l : List (Nat × α)) (k : Nat) (d : α) : α := (find? l k).getD d

/-- The entry of a vector, or a default beyond its end. -/
def vat {α : Type} {n : Nat} (v : Vector α n) (i : Nat) (d : α) : α := (v[i]?).getD d

/-- The smallest of `n` candidates from `lo` that satisfies `p`. -/
def firstFrom (p : Nat → Bool) : (lo n : Nat) → Option Nat
  | _, 0 => none
  | lo, n + 1 => if p lo then some lo else firstFrom p (lo + 1) n

/-- Insert into a list sorted by `le`, after its equals. -/
def insertBy {α : Type} (le : α → α → Bool) (a : α) : List α → List α
  | [] => [a]
  | b :: t => if le b a then b :: insertBy le a t else a :: b :: t

/-- A list sorted by `le`; equals keep their order. -/
def sortBy {α : Type} (le : α → α → Bool) (l : List α) : List α := l.foldl (fun r a => insertBy le a r) []

end Sys2Proof.Machine
end

