-- ==== Sys2Proof/Machine/Num.lean ====
section
/-! DEFINITION. The number formats (R278 to R282), Round, Sat, Philox and Grid (R61 to R64), and the shared
floating-point result procedure (R205, R159). -/

namespace Sys2Proof.Machine

/-- A rounding mode of R37, with the random bits of SR (R61). -/
inductive Rm where
  | rne | rtz | rdn | rup | rmm
  | sr (r : Nat)
  deriving DecidableEq, Repr

/-- The mode of an RM code, with the random bits it uses when the code is 5. -/
def Rm.of (code r : Nat) : Rm :=
  match code with
  | 0 => .rne
  | 1 => .rtz
  | 2 => .rdn
  | 3 => .rup
  | 4 => .rmm
  | _ => .sr r

/-- Whether the all-ones exponent holds infinity and NaN, one NaN, or numbers (R279). -/
inductive Special where
  | ieee | oneNan | numbers
  deriving DecidableEq, Repr

/-- A float or storage float format (R279). -/
structure Fmt where
  e : Nat
  m : Nat
  bias : Int
  sp : Special
  deriving DecidableEq, Repr

def Fmt.fp32 : Fmt := { e := 8, m := 23, bias := 127, sp := .ieee }
def Fmt.bf16 : Fmt := { e := 8, m := 7, bias := 127, sp := .ieee }
def Fmt.fp16 : Fmt := { e := 5, m := 10, bias := 15, sp := .ieee }
def Fmt.e4m3 : Fmt := { e := 4, m := 3, bias := 7, sp := .oneNan }
def Fmt.e5m2 : Fmt := { e := 5, m := 2, bias := 15, sp := .ieee }
def Fmt.e3m2 : Fmt := { e := 3, m := 2, bias := 3, sp := .numbers }
def Fmt.e2m3 : Fmt := { e := 2, m := 3, bias := 1, sp := .numbers }
def Fmt.e2m1 : Fmt := { e := 2, m := 1, bias := 1, sp := .numbers }

/-- The format of a KIND 4 to 11 (R37, R279). -/
def Fmt.ofKind (k : Nat) : Fmt :=
  match k with
  | 4 => .fp32
  | 5 => .bf16
  | 6 => .fp16
  | 7 => .e4m3
  | 8 => .e5m2
  | 9 => .e3m2
  | 10 => .e2m3
  | _ => .e2m1

/-- Bits of an encoding. -/
def Fmt.width (K : Fmt) : Nat := 1 + K.e + K.m
/-- The precision p = m + 1 (R278). -/
def Fmt.p (K : Fmt) : Nat := K.m + 1
/-- The least normal exponent (R279). -/
def Fmt.emin (K : Fmt) : Int := 1 - K.bias
/-- The largest exponent (R279). -/
def Fmt.emax (K : Fmt) : Int :=
  match K.sp with
  | .ieee => (2 ^ K.e : Nat) - 2 - K.bias
  | _ => (2 ^ K.e : Nat) - 1 - K.bias
def Fmt.hasInf (K : Fmt) : Bool := K.sp == .ieee
def Fmt.hasNan (K : Fmt) : Bool := K.sp != .numbers

/-- 2^k for an integer k. -/
def pow2 (k : Int) : Rat := if 0 ≤ k then ((2 ^ k.toNat : Nat) : Rat) else 1 / ((2 ^ (-k).toNat : Nat) : Rat)

/-- The largest finite value (R279). -/
def Fmt.maxfin (K : Fmt) : Rat :=
  match K.sp with
  | .oneNan => (2 - pow2 (1 - (K.m : Int))) * pow2 K.emax
  | _ => (2 - pow2 (-(K.m : Int))) * pow2 K.emax

/-- A value: NaN (signalling or quiet), an infinity, or a finite value with the sign that a zero carries (R278, R280). -/
inductive Val where
  | nan (signalling : Bool)
  | inf (neg : Bool)
  | fin (neg : Bool) (x : Rat)
  deriving DecidableEq, Repr

/-- A finite value with the sign of `x`, + for zero. -/
def Val.ofRat (x : Rat) : Val := .fin (decide (x < 0)) x

def Val.neg : Val → Val
  | .nan s => .nan s
  | .inf n => .inf (!n)
  | .fin n x => .fin (!n) (-x)

def Val.isNan : Val → Bool
  | .nan _ => true
  | _ => false

def Val.isSnan : Val → Bool
  | .nan s => s
  | _ => false

/-- The value of an encoding (R278, R279). -/
def Fmt.value (K : Fmt) (b : Nat) : Val :=
  let s := bits b (K.e + K.m) 1 == 1
  let E := bits b K.m K.e
  let M := bits b 0 K.m
  let sgn : Rat → Rat := fun x => if s then -x else x
  if E = 2 ^ K.e - 1 ∧ K.sp = .ieee then
    if M = 0 then .inf s else .nan (bits M (K.m - 1) 1 == 0)
  else if E = 2 ^ K.e - 1 ∧ K.sp = .oneNan ∧ M = 2 ^ K.m - 1 then .nan false
  else if E = 0 then .fin s (sgn ((M : Rat) * pow2 (K.emin - K.m)))
  else .fin s (sgn (((2 ^ K.m + M : Nat) : Rat) * pow2 ((E : Int) - K.bias - K.m)))

/-- floor(log2 x) of a positive x. -/
def ilog2 (x : Rat) : Int :=
  let k : Int := (Nat.log2 x.num.natAbs : Int) - Nat.log2 x.den
  if pow2 k ≤ x then k else k - 1

def absRat (x : Rat) : Rat := if x < 0 then -x else x

/-- Rounding to a multiple of 1 (R61, with the quantum divided out). -/
def roundInt (x : Rat) (rm : Rm) : Int :=
  let lo := x.floor
  if (lo : Rat) = x then lo
  else
    match rm with
    | .rtz => if 0 < x then lo else lo + 1
    | .rdn => lo
    | .rup => lo + 1
    | .sr r =>
      let m := (absRat x + (r : Rat) / 65536).floor
      if 0 < x then m else -m
    | .rne =>
      if x - lo < 1 / 2 then lo else if 1 / 2 < x - lo then lo + 1 else if lo % 2 = 0 then lo else lo + 1
    | .rmm =>
      if x - lo < 1 / 2 then lo else if 1 / 2 < x - lo then lo + 1 else if 0 < x then lo + 1 else lo

/-- Round to a precision of p bits, with least exponent `emin` where there is one (R61). -/
def roundTo (x : Rat) (p : Nat) (emin : Option Int) (rm : Rm) : Rat :=
  if x = 0 then 0
  else
    let ex := ilog2 (absRat x)
    let ex := match emin with
      | some e => max ex e
      | none => ex
    let q := pow2 (ex - ((p : Int) - 1))
    (roundInt (x / q) rm : Rat) * q

/-- Round (R61) to a float format. -/
def Fmt.round (K : Fmt) (x : Rat) (rm : Rm) : Rat := roundTo x K.p (some K.emin) rm

/-- Round to the grid 2^-frac of an int kind (R61): the raw integer. -/
def roundRaw (x : Rat) (frac : Nat) (rm : Rm) : Int := roundInt (x * pow2 frac) rm

/-- The encoding of a value that the format holds (R278). -/
def Fmt.encodeFin (K : Fmt) (neg : Bool) (y : Rat) : Nat :=
  let a := absRat y
  let body :=
    if a = 0 then 0
    else if a < pow2 K.emin then (a / pow2 (K.emin - K.m)).floor.toNat
    else
      let ex := ilog2 a
      (ex + K.bias).toNat * 2 ^ K.m + ((a / pow2 (ex - K.m)).floor.toNat - 2 ^ K.m)
  bitOf neg * 2 ^ (K.e + K.m) + body

/-- The canonical NaN (R279, R280). -/
def Fmt.canonNan (K : Fmt) : Nat :=
  match K.sp with
  | .oneNan => 2 ^ (K.e + K.m) - 1
  | _ => (2 ^ K.e - 1) * 2 ^ K.m + 2 ^ (K.m - 1)

/-- The encoding of infinity. -/
def Fmt.infBits (K : Fmt) (neg : Bool) : Nat := bitOf neg * 2 ^ (K.e + K.m) + (2 ^ K.e - 1) * 2 ^ K.m

/-- The encoding of the signed largest finite value. -/
def Fmt.maxBits (K : Fmt) (neg : Bool) : Nat := K.encodeFin neg K.maxfin

/-! ### Flags (R151) -/

def flNV : Nat := 1
def flDZ : Nat := 2
def flOF : Nat := 4
def flUF : Nat := 8
def flNX : Nat := 16
def flSV : Nat := 32
def flTV : Nat := 64
def flSU : Nat := 128

/-! ### FloatResult (R205) -/

/-- What an operation on non-NaN operands gives exactly (R205): no value, a division by zero, an infinity, or a
finite value with the sign of a zero. -/
inductive Exact where
  | invalid
  | divZero (neg : Bool)
  | inf (neg : Bool)
  | fin (neg : Bool) (x : Rat)
  deriving DecidableEq, Repr

/-- An infinite result under a format (R205, last lines). -/
def Fmt.infResult (K : Fmt) (sat : Bool) (neg : Bool) : Nat × Nat :=
  if !K.hasInf || sat then (K.maxBits neg, flOF) else (K.infBits neg, 0)

/-- The finite part of FloatResult (R205): the encoding and the flags. -/
def Fmt.finResult (K : Fmt) (sat : Bool) (rm : Rm) (neg : Bool) (z : Rat) : Nat × Nat :=
  if z = 0 then (K.encodeFin neg 0, 0)
  else
    let neg := decide (z < 0)
    let y := K.round z rm
    let nx := if y = z then 0 else flNX
    let uf := if y ≠ z ∧ absRat (roundTo z K.p none rm) < pow2 K.emin then flUF else 0
    if K.maxfin < absRat y then
      let toInf :=
        match rm with
        | .rne => true
        | .rmm => true
        | .rup => !neg
        | .rdn => neg
        | .sr _ => true
        | .rtz => false
      if !K.hasInf || sat then (K.maxBits neg, flOF ||| flNX)
      else if toInf then (K.infBits neg, flOF ||| flNX)
      else (K.maxBits neg, flOF ||| flNX)
    else (K.encodeFin neg y, nx ||| uf)

/-- FloatResult (R205) of an operation whose operands are `ops` and whose exact result is `x`. -/
def Fmt.result (K : Fmt) (sat : Bool) (rm : Rm) (ops : List Val) (x : Exact) : Nat × Nat :=
  let nv := if ops.any Val.isSnan then flNV else 0
  if ops.any Val.isNan then (K.canonNan, nv)
  else
    match x with
    | .invalid => (K.canonNan, flNV)
    | .divZero n =>
      let r := K.infResult sat n
      (r.1, flDZ ||| r.2)
    | .inf n => K.infResult sat n
    | .fin n z => K.finResult sat rm n z

/-- The sum of two values exactly (R205): the sign of a zero sum depends on the rounding mode. -/
def exactAdd (rm : Rm) (a b : Val) : Exact :=
  match a, b with
  | .inf n, .inf k => if n = k then .inf n else .invalid
  | .inf n, _ => .inf n
  | _, .inf k => .inf k
  | .fin n x, .fin k y =>
    let z := x + y
    if z = 0 then
      if x = 0 ∧ y = 0 ∧ n = k then .fin n 0 else .fin (rm = .rdn) 0
    else .fin (decide (z < 0)) z
  | _, _ => .invalid

def exactMul (a b : Val) : Exact :=
  match a, b with
  | .inf n, .inf k => .inf (n != k)
  | .inf n, .fin k y => if y = 0 then .invalid else .inf (n != k)
  | .fin n x, .inf k => if x = 0 then .invalid else .inf (n != k)
  | .fin n x, .fin k y => .fin (n != k) (x * y)
  | _, _ => .invalid

def exactDiv (a b : Val) : Exact :=
  match a, b with
  | .inf _, .inf _ => .invalid
  | .inf n, .fin k _ => .inf (n != k)
  | .fin n _, .inf k => .fin (n != k) 0
  | .fin n x, .fin k y =>
    if y = 0 then (if x = 0 then .invalid else .divZero (n != k)) else .fin (n != k) (x / y)
  | _, _ => .invalid

/-- d + x * y rounded once (R206). -/
def exactMacc (rm : Rm) (d x y : Val) : Exact :=
  match exactMul x y with
  | .inf n => exactAdd rm d (.inf n)
  | .fin n z => exactAdd rm d (.fin n z)
  | _ => .invalid

/-- An encoding of a value as the result of a conversion that keeps it (R212, R222): FloatResult of the value itself. -/
def Fmt.ofVal (K : Fmt) (sat : Bool) (rm : Rm) (v : Val) : Nat × Nat :=
  match v with
  | .nan s => (K.canonNan, if s then flNV else 0)
  | .inf n => K.infResult sat n
  | .fin n x => K.finResult sat rm n x

/-- FMIN, FMAX (R159, R206) on encodings: the encoding chosen, and the flags. `maxi` selects the maximum. -/
def Fmt.minMax (K : Fmt) (maxi : Bool) (a b : Nat) : Nat × Nat :=
  let va := K.value a
  let vb := K.value b
  let nv := if va.isSnan || vb.isSnan then flNV else 0
  let below : Val → Val → Bool := fun x y =>
    match x, y with
    | .inf n, .inf k => n && !k
    | .inf n, _ => n
    | _, .inf k => !k
    | .fin n p, .fin k q => decide (p < q) || (decide (p = 0) && decide (q = 0) && n && !k)
    | _, _ => false
  if va.isNan && vb.isNan then (K.canonNan, nv)
  else if va.isNan then (b, nv)
  else if vb.isNan then (a, nv)
  else if maxi then (if below va vb then b else a, nv)
  else (if below vb va then b else a, nv)

/-- The order of two values that are not NaN: less, equal (R159: -0 equals +0). -/
def Val.lt (x y : Val) : Bool :=
  match x, y with
  | .inf n, .inf k => n && !k
  | .inf n, .fin _ _ => n
  | .fin _ _, .inf k => !k
  | .fin _ p, .fin _ q => decide (p < q)
  | _, _ => false

def Val.eqv (x y : Val) : Bool :=
  match x, y with
  | .inf n, .inf k => n == k
  | .fin _ p, .fin _ q => decide (p = q)
  | _, _ => false

/-! ### Square root (R159) -/

/-- The largest s below 2^k above r with s * s ≤ n. -/
def isqrtGo (n : Nat) : Nat → Nat → Nat
  | 0, r => r
  | k + 1, r => if (r + 2 ^ k) * (r + 2 ^ k) ≤ n then isqrtGo n k (r + 2 ^ k) else isqrtGo n k r

/-- floor(sqrt n) for n below 2^460. -/
def isqrt (n : Nat) : Nat := isqrtGo n 230 0

/-- A rational that rounds to 24 bits as the square root of x does: the root itself where it is exact, else a value
strictly between the same two neighbours of 80 bits or more. -/
def sqrtRat (x : Rat) : Rat :=
  let n := (x * pow2 320).floor.toNat
  let s := isqrt n
  (if s * s = n then (s : Rat) else (s : Rat) + 1 / 2) * pow2 (-160)

def exactSqrt (a : Val) : Exact :=
  match a with
  | .inf n => if n then .invalid else .inf false
  | .fin n x => if x < 0 then .invalid else if x = 0 then .fin n 0 else .fin false (sqrtRat x)
  | .nan _ => .invalid

/-! ### Philox (R63) -/

def philoxRound (k0 k1 : Nat) (c : Nat × Nat × Nat × Nat) : Nat × Nat × Nat × Nat :=
  let p0 := 0xD2511F53 * c.1
  let p1 := 0xCD9E8D57 * c.2.2.1
  let h0 := p0 / 2 ^ 32 % 2 ^ 32
  let l0 := p0 % 2 ^ 32
  let h1 := p1 / 2 ^ 32 % 2 ^ 32
  let l1 := p1 % 2 ^ 32
  ((h1 ^^^ c.2.1) ^^^ k0, l1, (h0 ^^^ c.2.2.2) ^^^ k1, l0)

def philoxGo : Nat → Nat → Nat → Nat × Nat × Nat × Nat → Nat × Nat × Nat × Nat
  | 0, _, _, c => c
  | n + 1, k0, k1, c =>
    philoxGo n ((k0 + 0x9E3779B9) % 2 ^ 32) ((k1 + 0xBB67AE85) % 2 ^ 32) (philoxRound k0 k1 c)

/-- Philox4x32-10. -/
def philox (key : W64) (ctr : Nat × Nat × Nat × Nat) : Nat × Nat × Nat × Nat :=
  philoxGo 10 (bits key.toNat 0 32) (bits key.toNat 32 32) ctr

/-- The random bits of an element (R207, R283). -/
def srBits (key : W64) (c e : Nat) : Nat := (philox key (c % 2 ^ 32, e % 2 ^ 32, 0, 0)).1 % 65536

/-! ### Grid (R64) and the exact accumulators -/

/-- Grid(x, XBASE). -/
def grid (x : Rat) (xbase : Int) : Int := roundInt (x * pow2 (-xbase)) .rne

/-- An accumulator read as two's complement. -/
def accInt (a : Nat) : Int := sx 136 a

/-! ### Values of elements by kind -/

/-- Whether a KIND is of the int class of R37; mxint8 is a storage kind. -/
def kindInt (k : Nat) : Bool := k < 4
def kindFloat (k : Nat) : Bool := 4 ≤ k && k < 9
def kindStorage (k : Nat) : Bool := 9 ≤ k && k < 13
/-- Signed int kinds (R186). -/
def kindSigned (k : Nat) : Bool := k == 0 || k == 2
/-- The width a float or storage kind has (R37); 0 for the int kinds, which have none of their own. -/
def kindWidth (k : Nat) : Nat :=
  match k with
  | 4 => 32
  | 5 => 16
  | 6 => 16
  | 7 => 8
  | 8 => 8
  | 9 => 6
  | 10 => 6
  | 11 => 4
  | 12 => 8
  | _ => 0
/-- Fraction bits of a kind: VTYPE.FRAC for 2 and 3, 6 for mxint8 (R282). -/
def kindFrac (k frac : Nat) : Nat := if k = 2 ∨ k = 3 then frac else if k = 12 then 6 else 0

/-- The raw integer of an int kind or mxint8 at width w (R282). -/
def rawInt (k w x : Nat) : Int := if kindSigned k || k == 12 then sx w x else (x % 2 ^ w : Nat)

/-- The value of an encoding of a kind at width w (R278, R282). -/
def kindValue (k frac w x : Nat) : Val :=
  if kindInt k || k == 12 then .ofRat ((rawInt k w x : Rat) * pow2 (-(kindFrac k frac : Int)))
  else (Fmt.ofKind k).value x

/-- The least and the greatest raw integer of a signed or natural width (R62). -/
def rawMin (sgn : Bool) (w : Nat) : Int := if sgn then -((2 ^ (w - 1) : Nat) : Int) else 0
def rawMax (sgn : Bool) (w : Nat) : Int := if sgn then ((2 ^ (w - 1) : Nat) : Int) - 1 else ((2 ^ w : Nat) : Int) - 1

/-- Sat on raw integers (R62). -/
def satRaw (sgn : Bool) (w : Nat) (z : Int) : Int := max (rawMin sgn w) (min (rawMax sgn w) z)

/-- write() of R203 on raw integers: the stored bits, and the flags. -/
def writeRaw (sgn : Bool) (w : Nat) (sat : Bool) (z : Int) : Nat × Nat :=
  if rawMin sgn w ≤ z ∧ z ≤ rawMax sgn w then (wrap w z, 0)
  else if sat then (wrap w (satRaw sgn w z), flSV)
  else (wrap w z, 0)

/-- clamp() of R203 on raw integers. -/
def clampRaw (sgn : Bool) (w : Nat) (z : Int) : Nat × Nat :=
  (wrap w (satRaw sgn w z), if satRaw sgn w z = z then 0 else flSV)

/-- Extension or truncation of an element from width w to width r (R188). -/
def extend (sgn : Bool) (w r x : Nat) : Nat := if sgn then wrap r (sx w x) else x % 2 ^ w % 2 ^ r

/-- VCVT of a value into a destination kind (R212, R288): the stored encoding, and the flags. `src` is the source
kind. -/
def convertVal (src : Nat) (v : Val) (k frac w : Nat) (sat : Bool) (rm : Rm) : Nat × Nat :=
  if kindInt k || k == 12 then
    let sgn := kindSigned k || k == 12
    match v with
    | .nan _ => (0, flNV)
    | .inf n => (wrap w (if n then rawMin sgn w else rawMax sgn w), flNV)
    | .fin _ x =>
      let fr := kindFrac k frac
      let z := roundRaw x fr rm
      let fromFloat := 4 ≤ src && src < 12
      if fromFloat && !(decide (rawMin sgn w ≤ z) && decide (z ≤ rawMax sgn w)) then
        (wrap w (satRaw sgn w z), flNV)
      else
        let r := writeRaw sgn w sat z
        (r.1, r.2 ||| (if (z : Rat) * pow2 (-(fr : Int)) = x then 0 else flNX))
  else
    let K := Fmt.ofKind k
    match v with
    | .nan s => if K.hasNan then (K.canonNan, if s then flNV else 0) else (0, flNV)
    | .inf n => if K.hasInf && !sat then (K.infBits n, 0) else (K.maxBits n, flOF)
    | .fin n x => K.finResult sat rm n x

end Sys2Proof.Machine
end

