-- ==== Sys2Proof/Machine/Ops.lean ====
section
/-! DEFINITION. The named operations over registers, harts, memory cells, traps, interrupts, tokens and freezes
that the meanings share. -/

namespace Sys2Proof.Machine

/-! ### Memory cells (one canonical form: addresses rising, no zero byte) -/

/-- The byte at an address; an unlisted address reads 0 (log 1). -/
def Memory.read (m : List Host.Cell) (a : Nat) : Byte :=
  match m with
  | [] => 0
  | (k, b) :: t => if k = a then b else Memory.read t a

/-- The memory with byte `b` at `a`. -/
def Memory.write (m : List Host.Cell) (a : Nat) (b : Byte) : List Host.Cell :=
  match m with
  | [] => if b = 0 then [] else [(a, b)]
  | (k, c) :: t =>
    if a < k then (if b = 0 then (k, c) :: t else (a, b) :: (k, c) :: t)
    else if k = a then (if b = 0 then t else (a, b) :: t)
    else (k, c) :: Memory.write t a b

/-- Every listed address is at least `lo`, addresses rise strictly, no byte is 0. -/
def Memory.wfFrom (lo : Nat) : List Host.Cell → Bool
  | [] => true
  | (k, b) :: t => decide (lo ≤ k) && decide (b ≠ 0) && Memory.wfFrom (k + 1) t

/-- The canonical form of memory. -/
def Memory.wf (m : List Host.Cell) : Bool := Memory.wfFrom 0 m

/-- Write a list of cells, in order. -/
def Memory.writeAll (m : List Host.Cell) (cs : List Host.Cell) : List Host.Cell :=
  cs.foldl (fun m c => Memory.write m c.1 c.2) m

/-- The bytes at a, a+1, …, n of them. -/
def Memory.readN (m : List Host.Cell) (a n : Nat) : List Byte := (span a n).map (Memory.read m)

/-- The listed cells in [a, a+n). -/
def Memory.range (m : List Host.Cell) (a n : Nat) : List Host.Cell :=
  m.filter fun c => decide (a ≤ c.1) && decide (c.1 < a + n)

/-- Memory with the cells in [a, a+n) removed (reading 0). -/
def Memory.clear (m : List Host.Cell) (a n : Nat) : List Host.Cell :=
  m.filter fun c => !(decide (a ≤ c.1) && decide (c.1 < a + n))

/-- Memory with the bytes `bs` from `a` on. -/
def Memory.fill (m : List Host.Cell) (a : Nat) (bs : List Byte) : List Host.Cell :=
  (m.filter fun c => decide (c.1 < a)) ++ (((span a bs.length).zip bs).filter fun c => c.2 != 0) ++
    m.filter fun c => decide (a + bs.length ≤ c.1)

/-- Memory with the cells of [a, a+n) replaced by `cs`, which lie there. -/
def Memory.splice (m : List Host.Cell) (a n : Nat) (cs : List Host.Cell) : List Host.Cell :=
  (m.filter fun c => decide (c.1 < a)) ++ cs ++ m.filter fun c => decide (a + n ≤ c.1)

/-- The `n`-byte little-endian number at `a`. -/
def Memory.num (m : List Host.Cell) (a n : Nat) : Nat := ofBytes (Memory.readN m a n)

/-- Cells that hold `n` bytes of `x` at `a`. -/
def cellsAt (a n x : Nat) : List Host.Cell := (span a n).zip (toBytes n x)

/-- A write is performed at home in the lines that satisfy `p`: the watches of those lines end (R163). -/
def State.wakeLines (s : State) (p : Nat → Bool) : State := { s with watch := s.watch.filter fun w => !p w.2 }

/-- Bytes written at home. -/
def State.writeMem (s : State) (cs : List Host.Cell) : State :=
  { s with mem := Memory.writeAll s.mem cs }.wakeLines fun l => cs.any fun c => c.1 / 64 == l

/-- The bytes `bs` written at home from `a` on. -/
def State.fillMem (s : State) (a : Nat) (bs : List Byte) : State :=
  { s with mem := Memory.fill s.mem a bs }.wakeLines fun l => decide (a / 64 ≤ l) && decide (64 * l < a + bs.length)

/-- The n bytes at home from `a` on become 0. -/
def State.clearMem (s : State) (a n : Nat) : State :=
  { s with mem := Memory.clear s.mem a n }.wakeLines fun l => decide (a / 64 ≤ l) && decide (64 * l < a + n)

/-! ### Harts, cores, stations, dies, contexts -/

def State.hart? (s : State) (id : Nat) : Option Hart := find? s.harts id
def State.setHart (s : State) (id : Nat) (h : Hart) : State := { s with harts := put s.harts id h }
def State.dropHart (s : State) (id : Nat) : State := { s with harts := erase s.harts id }
/-- Change a hart, if it exists. -/
def State.modHart (s : State) (id : Nat) (f : Hart → Hart) : State :=
  match s.hart? id with
  | some h => s.setHart id (f h)
  | none => s
def State.core (s : State) (k : Nat) : Core := getD s.cores k Core.reset
def State.setCore (s : State) (k : Nat) (c : Core) : State := { s with cores := put s.cores k c }
def State.stn (s : State) (k : Nat) : Station := getD s.stations k Station.reset
def State.setStn (s : State) (k : Nat) (t : Station) : State := { s with stations := put s.stations k t }
def State.die (s : State) (d : Nat) : Die := getD s.dies d Die.reset
def State.setDie (s : State) (d : Nat) (x : Die) : State := { s with dies := put s.dies d x }
def State.ctx (s : State) (c : Nat) : Ctx := getD s.ctxs c Ctx.reset
def State.setCtx (s : State) (c : Nat) (x : Ctx) : State := { s with ctxs := put s.ctxs c x }
def State.setPkg (s : State) (p : Pkg) : State := { s with pkg := p }

/-- DIE of a hart identifier (R14). -/
def dieOf (id : Nat) : Nat := id / 1024
/-- Key of the hart's station: 64 * die + STN. -/
def stnOf (id : Nat) : Nat := id / 16
/-- Key of the hart's core: 256 * die + 4 * STN + CORE. -/
def coreOf (id : Nat) : Nat := id / 4

/-- A fresh number for free values and records (log 5). -/
def State.bump (s : State) (n : Nat) : State := { s with fresh := s.fresh + n }

/-- The hart that executes (log 3). -/
def onHart (s : State) (k : Nat → Hart → Out) : Out :=
  match s.hart? s.cur with
  | some h => k s.cur h
  | none => .fault .noHart

/-! ### Registers (R52, R154) -/

/-- Read g-register n: g0 reads 0. -/
def Hart.rg (h : Hart) (n : Nat) : W64 := if n = 0 then 0 else vat h.g n 0
/-- Write g-register n: a write to g0 is discarded. -/
def Hart.setG (h : Hart) (n : Nat) (x : W64) : Hart := if n = 0 then h else { h with g := h.g.setIfInBounds n x }
def Hart.rf (h : Hart) (n : Nat) : W32 := vat h.f n 0
def Hart.setF (h : Hart) (n : Nat) (x : W32) : Hart := { h with f := h.f.setIfInBounds n x }
/-- A scalar instruction counts one element-beat of an open step (R375). -/
def Hart.beats (h : Hart) (n : Nat) : Hart := { h with step := h.step.map fun r => { r with done := r.done + n } }
/-- The PC after a word that is dispatched to a queue (R29). -/
def Hart.skip (h : Hart) : Hart := { h with pc := h.pc + 4 }
/-- The next word after a scalar instruction (R29, R375). -/
def Hart.advance (h : Hart) : Hart := h.skip.beats 1
/-- A transfer of control: every write of the PC clears bits [1:0] (R29). -/
def Hart.jump (h : Hart) (t : W64) : Hart := { h with pc := t &&& ~~~3 }.beats 1
/-- Flags ORed into FFLAGS (R153). -/
def Hart.orFlags (h : Hart) (fl : Nat) : Hart := { h with fflags := h.fflags ||| fl }

/-- MODE is supervisor (R151). -/
def Hart.sup (h : Hart) : Bool := h.status.getLsbD 0
/-- IE (R151). -/
def Hart.ie (h : Hart) : Bool := h.status.getLsbD 1
/-- SVH (R152). -/
def Hart.svh (h : Hart) : Bool := h.status.getLsbD 4

/-- Finish a scalar instruction that changes its hart alone. -/
def finish (s : State) (id : Nat) (h : Hart) : Out := .next (s.setHart id h.advance)

/-- A scalar instruction with one g-register result (R154 to R156). -/
def aluOp (s : State) (d : Nat) (f : Hart → W64) : Out := onHart s fun id h => finish s id (h.setG d (f h))

/-! ### Interrupts (R151, R178 to R180) and host events (R405) -/

/-- The code of a cause (R179). -/
def Cause.code : Cause → Nat
  | .illins => 0x01
  | .illconvoy => 0x02
  | .illwidth => 0x03
  | .vill => 0x04
  | .pgfltR => 0x05
  | .pgfltW => 0x06
  | .pgfltX => 0x07
  | .attrconfl => 0x08
  | .align => 0x09
  | .stripfull => 0x0A
  | .stripfatal => 0x0B
  | .oos => 0x0C
  | .xchk => 0x0D
  | .xlen => 0x0E
  | .xfmt => 0x0F
  | .tkovf => 0x10
  | .gangerr => 0x11
  | .framebad => 0x12
  | .frozen => 0x13
  | .syscall => 0x14
  | .bkpt => 0x15
  | .preempt => 0x20
  | .dlrisk => 0x21
  | .weirlow => 0x22

/-- IPEND bit numbers (R178): WEIRLOW, PREEMPT, DLRISK, OOS, FROZEN. -/
def ipWeirlow : Nat := 0
def ipPreempt : Nat := 1
def ipDlrisk : Nat := 2
def ipOos : Nat := 3
def ipFrozen : Nat := 4

/-- The cause that an IPEND bit delivers. -/
def ipCause (b : Nat) : Cause :=
  match b with
  | 0 => .weirlow
  | 1 => .preempt
  | 2 => .dlrisk
  | 3 => .oos
  | _ => .frozen

/-- Raise an interrupt on a hart: its IPEND bit, and what TRAPVAL will hold (R179); of two reports whose bit is still pending
the later one (DESIGN CHOICE, log 46). -/
def Hart.raise (h : Hart) (b : Nat) (val : W64) : Hart :=
  { h with ipend := h.ipend ||| 2 ^ b, ipval := h.ipval.setIfInBounds b val }

/-- The interrupt that would be taken: enabled, pending, in the order of R180, while IE is 1. -/
def Hart.irq (h : Hart) : Option Nat :=
  if h.ie then [4, 3, 2, 1, 0].find? fun b => h.ipend.testBit b && h.status.getLsbD (8 + b) else none

/-- Something sent to the outside. -/
def State.send (s : State) (m : Sent) : State := { s with out := s.out ++ [m] }

/-- HEVT and its MSI-X messages (R405): a message on vector b each time bit b of (HEVT AND HEVTEN) rises. -/
def State.setHevtMask (s : State) (hevt en : Nat) : State :=
  let old := s.pkg.hevt &&& s.pkg.hevten
  let s' := s.setPkg { s.pkg with hevt := hevt, hevten := en }
  (List.range 11).foldl (fun t b => if (hevt &&& en).testBit b && !old.testBit b then t.send (.msix b) else t) s'

/-- A host event occurs (R405). -/
def State.setHevt (s : State) (b : Nat) : State := s.setHevtMask (s.pkg.hevt ||| 2 ^ b) s.pkg.hevten

/-- The supervisor hart of a context (R152). -/
def State.supHart (s : State) (ctx : Nat) : Option Nat :=
  (s.harts.find? fun p => p.2.ctx == ctx && p.2.svh).map Prod.fst

/-- The hart that receives the reports of a context: its supervisor hart, or that of context 0 (R152). -/
def State.reportTo (s : State) (ctx : Nat) : Option Nat :=
  match s.supHart ctx with
  | some id => some id
  | none => s.supHart 0

/-- FROZEN for a master handle (R182, R405). -/
def State.raiseFrozen (s : State) (ctx : Nat) (handle : W64) : State :=
  match s.reportTo ctx with
  | some id =>
    let s1 := s.modHart id fun h => h.raise ipFrozen handle
    match s.hart? id with
    | some h => if h.frozen.isSome then (s1.setPkg { s1.pkg with hfrozen := handle }).setHevt 2 else s1
    | none => s1
  | none => (s.setPkg { s.pkg with hfrozen := handle }).setHevt 2

/-- QUEUE code of R98 and R182. -/
def Queue.code : Queue → Nat
  | .vector => 0
  | .matrix => 1
  | .stream => 2

/-- The master handle of a hart (R182). -/
def handleHart (id ctx reason : Nat) : W64 := w64 (ctx * 2 ^ 56 + reason * 2 ^ 48 + id)
/-- The master handle of an engine instruction. -/
def handleEngine (id ctx reason : Nat) (q : Queue) (slot : Nat) : W64 :=
  w64 (2 ^ 62 + ctx * 2 ^ 56 + reason * 2 ^ 48 + q.code * 2 ^ 30 + slot * 2 ^ 24 + id)
/-- The master handle of an inbound requester. -/
def handleRid (rid reason : Nat) : W64 := w64 (2 * 2 ^ 62 + reason * 2 ^ 48 + rid * 2 ^ 32)

/-! ### Lane groups: parking (R72, R85) -/

/-- Park every granted group (R72). -/
def Hart.park (h : Hart) : Hart :=
  { h with groups := h.groups.map fun g => if g.st = .granted then { g with st := .parked } else g }

/-- The parked groups that were not re-granted become granted again (R85). -/
def Hart.unpark (h : Hart) : Hart :=
  { h with groups := h.groups.map fun g => if g.st = .parked then { g with st := .granted } else g }

/-- A wait ends (R85). -/
def Hart.wake (h : Hart) : Hart := { h.unpark with wait := none }

/-- A hart begins to wait (R72): not runnable, deficit 0; parking comes once its vector work has retired. -/
def Hart.sleep (h : Hart) (w : Wait) (now : Nat) : Hart :=
  { h with wait := some w, waitSince := (if h.wait.isSome then h.waitSince else now), deficit := 0,
           groups := if h.vq.isEmpty then h.park.groups else h.groups }

/-! ### Taking a trap and returning from one (R173, R177) -/

/-- The PC field of TRAPPC (R151): bits [54:2]. -/
def trapPcField (pc : W64) : W64 := pc &&& 0x007FFFFFFFFFFFFC

/-- TRAPVEC.BASE << 6 (R177). -/
def Hart.vector (h : Hart) : W64 := h.trapvec &&& 0x007FFFFFFFFFFFC0

/-- STATUS when a trap is taken: PMODE := MODE, PIE := IE, MODE := supervisor, IE := 0 (R177). -/
def trapStatus (st : W64) : W64 :=
  (st &&& ~~~0xF) ||| (bif st.getLsbD 0 then 4 else 0) ||| (bif st.getLsbD 1 then 8 else 0) ||| 1

/-- Taking a trap (R177), the one shared operation: TRAPCAUSE, TRAPPC, TRAPVAL, STATUS and the PC. A wait ends (R100), and a
BAR that waited is to execute again (R162). -/
def Hart.takeTrap (h : Hart) (int : Bool) (code : Nat) (ret val : W64) : Hart :=
  { h.wake with tcInt := int, tcCode := code, trappc := trapPcField ret, trapval := val,
                status := trapStatus h.status, pc := h.vector,
                barPc := if h.wait = some .bar then some (h.pc, h.sup) else h.barPc }

/-- A wait that no trap ends: of a GANG.JOIN for its groups and of a VFRAME.RESTORE (R71, R105, log 3). -/
def Wait.stays (w : Wait) : Option Wait :=
  match w with
  | .yard _ _ _ _ => some w
  | .restore _ _ => some w
  | _ => none

/-- A hart freezes (R182): it executes nothing, its groups park once its vector work has retired (R72), and FROZEN is
raised. -/
def State.freezeHart (s : State) (id : Nat) (h : Hart) (reason : Nat) (held : TrapRec) : State :=
  (s.setHart id { (if h.vq.isEmpty then h.park else h) with
      frozen := some held, frozenReason := reason, wait := h.wait.bind Wait.stays }).raiseFrozen h.ctx
    (handleHart id h.ctx reason)

/-- A precise trap (R177): taken, unless it is a double trap, which freezes the hart with reason 0x01. -/
def State.trapHart (s : State) (id : Nat) (h : Hart) (c : Cause) (ret val : W64) : State :=
  if h.sup && !h.ie then s.freezeHart id h 0x01 { cause := c, pc := ret, val := val }
  else s.setHart id (h.takeTrap false c.code ret val)

/-- A precise trap with TRAPPC at the instruction. -/
def trapAt (s : State) (id : Nat) (h : Hart) (c : Cause) (val : W64) : Out := .next (s.trapHart id h c h.pc val)

/-- ILLINS at decode, or for a check of a scalar instruction (R50, R51): TRAPVAL is the word. -/
def illins (s : State) (i : Instr) : Out :=
  onHart s fun id h => trapAt s id h .illins (w64 (encode i))

/-- An instruction that its entry marks supervisor-only (R50 step 1). -/
def supOnly (s : State) (i : Instr) (k : Nat → Hart → Out) : Out :=
  onHart s fun id h => if h.sup then k id h else trapAt s id h .illins (w64 (encode i))

/-- RET.T (R173): MODE := PMODE, IE := PIE, the PC from TRAPPC. -/
def retStatus (st : W64) : W64 :=
  (st &&& ~~~3) ||| (bif st.getLsbD 2 then 1 else 0) ||| (bif st.getLsbD 3 then 2 else 0)

/-- The VMU probes the access again when it resumes (R129). -/
def Entry.unprobed (e : Entry) : Entry := { e with probed := false, bad := none, xl := [] }

/-- A fault of the instruction in this slot is not yet delivered. -/
def Hart.faultIn (h : Hart) (q : Queue) (slot : Nat) : Bool := h.faults.any fun f => f.q == q && f.slot == slot

/-- The BAR that is still to execute again when a hart returns with a status to an address: none when the return to the mode
of the BAR goes elsewhere (R162, log 46). -/
def Hart.barOwed (h : Hart) (status pc : W64) : Option (W64 × Bool) :=
  h.barPc.filter fun b => b.1 == pc || b.2 != status.getLsbD 0

/-- The return from a trap (R173): every queue that R100 stopped restarts; a frozen instruction stays frozen, and one whose
fault is not yet delivered stays stopped (R100). -/
def Hart.retTrap (h : Hart) : Hart :=
  let run : Queue → Entry → Entry := fun q e =>
    if e.frozen.isSome || h.faultIn q e.slot then e
    else if h.qstop && (e.stopped || !e.started) then { e with stopped := false }.unprobed else { e with stopped := false }
  let go : Nat → Slot → Slot := fun q t =>
    if t.stopped && !h.faultIn .stream (16 + q) then { t with stopped := false, progress := t.restart, ea := t.restart } else t
  { h with status := retStatus h.status, pc := trapPcField h.trappc, inTrap := false,
           barPc := h.barOwed (retStatus h.status) (trapPcField h.trappc), slots := Vector.ofFn fun q => go q.val (h.slots.get q),
           qstop := !h.faults.isEmpty,
           vq := h.vq.map fun v => { v with e := run .vector v.e }, mq := h.mq.map (run .matrix), sq := h.sq.map (run .stream) }

/-! ### Engine faults (R98 to R100) -/

/-- An instruction in a queue faults: the queue stops, and the fault waits for delivery (R100). -/
def Hart.engineFault (h : Hart) (f : EFault) : Hart :=
  { h with qstop := true, faults := h.faults ++ [f] }

/-- The fault to deliver first: vector before matrix before stream (R100). -/
def Hart.nextFault (h : Hart) : Option EFault :=
  match h.faults.find? fun f => f.q = .vector with
  | some f => some f
  | none =>
    match h.faults.find? fun f => f.q = .matrix with
    | some f => some f
    | none => h.faults.head?

/-- Whether an engine fault is deliverable (R180): not while MODE is supervisor and IE is 0. -/
def Hart.faultDue (h : Hart) : Option EFault := if h.sup && !h.ie then none else h.nextFault

/-- VCP for an instruction (R98). -/
def vcpOf (q : Queue) (slot : Nat) (pc : W64) : W64 :=
  w64 (q.code * 2 ^ 62 + slot * 2 ^ 56 + 2 ^ 55) ||| (pc &&& 0x007FFFFFFFFFFFFC)

/-- Delivery of an engine fault (R100, R177, R179). -/
def Hart.deliver (h : Hart) (f : EFault) : Hart :=
  { h.takeTrap false f.cause.code h.pc f.val with
    faults := h.faults.erase f, inTrap := true, vcp := (if f.valid then vcpOf f.q f.slot f.pc else 0),
    estart := f.estart }

/-! ### Queues -/

/-- The entries of a queue, oldest first. -/
def Hart.entries (h : Hart) : Queue → List Entry
  | .vector => h.vq.map fun v => v.e
  | .matrix => h.mq
  | .stream => h.sq

/-- Capacity of a queue (R15). -/
def Queue.size : Queue → Nat
  | .vector => 64
  | .matrix => 16
  | .stream => 16

/-- The lowest slot of a queue that no entry holds (log 17). -/
def freeSlot (es : List Entry) (n : Nat) : Option Nat := firstFrom (fun k => es.all fun e => e.slot != k) 0 n

/-- All three queues are empty. -/
def Hart.idleQueues (h : Hart) : Bool := h.vq.isEmpty && h.mq.isEmpty && h.sq.isEmpty

/-- Every entry of every queue. -/
def Hart.allEntries (h : Hart) : List Entry := h.entries .vector ++ h.mq ++ h.sq

/-- STRIP.BEGIN opens a strip, STRIP.COMMIT and STRIP.ABORT close it (R245). -/
def stripWord (i : Instr) : Option Bool :=
  match i with
  | .stripBegin _ _ => some true
  | .stripCommit _ => some false
  | .stripAbort _ => some false
  | _ => none

/-- The strip is open for the scalar control engine (R76, R245). -/
def Hart.stripOpen (h : Hart) : Bool :=
  match h.vq.reverse.findSome? fun v => stripWord v.e.op with
  | some b => b
  | none => h.strip.isSome

/-- VCP as SYSRD reads it (R98): the fault being delivered, or else the oldest entry of the vector queue. -/
def Hart.vcpRead (h : Hart) : W64 :=
  if h.inTrap then h.vcp
  else
    match h.vq with
    | v :: _ => vcpOf .vector v.e.slot v.e.pc
    | [] => 0

/-- ESTART as SYSRD reads it (R99). -/
def Hart.estartRead (h : Hart) : Nat :=
  if h.inTrap then h.estart
  else
    match h.vq with
    | v :: _ => v.e.progress
    | [] => 0

/-! ### Tokens (R20 to R23) -/

/-- Engine codes of R23. -/
def engScalar : Nat := 0
def engVector : Nat := 1
def engMatrix : Nat := 2
def engStream : Nat := 3

/-- The FIFO from a producer to a consumer. -/
def fifo (p c : Nat) : Nat := 4 * p + c

/-- The engine of a queue. -/
def Queue.eng : Queue → Nat
  | .vector => 1
  | .matrix => 2
  | .stream => 3

/-- The pop partner of an engine under a TKROUTE value (R23). -/
def popPartner (q : Queue) (route : W64) : Nat :=
  match q with
  | .vector => bits route.toNat 2 2
  | .matrix => bits route.toNat 6 2
  | .stream => bits route.toNat 10 2

/-- The push partner of an engine under a TKROUTE value (R23). -/
def pushPartner (q : Queue) (route : W64) : Nat :=
  match q with
  | .vector => bits route.toNat 0 2
  | .matrix => bits route.toNat 4 2
  | .stream => bits route.toNat 8 2

/-- The FIFO an entry pushes into. -/
def pushFifo (q : Queue) (e : Entry) : Nat := fifo q.eng (pushPartner q e.tkroute)
/-- The FIFO an entry pops from. -/
def popFifo (q : Queue) (e : Entry) : Nat := fifo (popPartner q e.tkroute) q.eng

/-- Pushes reserved into a FIFO by the entries of the queues (R21). -/
def Hart.reservedIn (h : Hart) (f : Nat) : Nat :=
  ([Queue.vector, .matrix, .stream].map fun q =>
    ((h.entries q).filter fun e => e.reserved && pushFifo q e == f).length).foldl (· + ·) 0

/-- Count of a FIFO. -/
def Hart.tokens (h : Hart) (f : Nat) : Nat := vat h.tok f 0
def Hart.setTokens (h : Hart) (f n : Nat) : Hart := { h with tok := h.tok.setIfInBounds f n }

end Sys2Proof.Machine
end

