-- ==== Sys2Proof/Machine/Alu.lean ====
section
/-! DEFINITION. The integer instructions (R154 to R156). -/

namespace Sys2Proof.Machine

/-- 1 if the condition holds, else 0. -/
def b64 (c : Bool) : W64 := if c then 1 else 0

/-! ### Division (R156): a quotient without a 64-bit representation clamps, and its remainder is 0 -/

def divS (x y : W64) : W64 :=
  if y = 0 then
    if x = 0 then 0 else if x.toInt < 0 then 0x8000000000000000 else 0x7FFFFFFFFFFFFFFF
  else if x = 0x8000000000000000 ∧ y = 0xFFFFFFFFFFFFFFFF then 0x7FFFFFFFFFFFFFFF
  else BitVec.ofInt 64 (x.toInt.tdiv y.toInt)
def remS (x y : W64) : W64 := if y = 0 then 0 else BitVec.ofInt 64 (x.toInt.tmod y.toInt)
def divN (x y : W64) : W64 :=
  if y = 0 then (if x = 0 then 0 else 0xFFFFFFFFFFFFFFFF) else w64 (x.toNat / y.toNat)
def remN (x y : W64) : W64 := if y = 0 then 0 else w64 (x.toNat % y.toNat)

/-! ### Bit counts (R156) -/

def clzN (x : W64) : Nat := 64 - bitLen x.toNat
def ctzN (x : W64) : Nat := ((List.range 64).find? fun k => x.getLsbD k).getD 64
def popN (x : W64) : Nat := ((List.range 64).filter fun k => x.getLsbD k).length

/-! ### Immediate operations (R155) -/

def execAddi (d a i : Nat) (s : State) : Out := aluOp s d fun h => h.rg a + sext64 16 i
def execAndi (d a i : Nat) (s : State) : Out := aluOp s d fun h => h.rg a &&& w64 i
def execOri (d a i : Nat) (s : State) : Out := aluOp s d fun h => h.rg a ||| w64 i
def execXori (d a i : Nat) (s : State) : Out := aluOp s d fun h => h.rg a ^^^ w64 i
def execSlti (d a i : Nat) (s : State) : Out := aluOp s d fun h => b64 ((h.rg a).slt (sext64 16 i))
def execSltiu (d a i : Nat) (s : State) : Out := aluOp s d fun h => b64 ((h.rg a).ult (w64 i))
def execSlli (d a n : Nat) (s : State) : Out := aluOp s d fun h => h.rg a <<< n
def execSrli (d a n : Nat) (s : State) : Out := aluOp s d fun h => h.rg a >>> n
def execSrai (d a n : Nat) (s : State) : Out := aluOp s d fun h => (h.rg a).sshiftRight n
def execLui (d i : Nat) (s : State) : Out := aluOp s d fun _ => sext64 16 i <<< 16
def execAddpc (d i : Nat) (s : State) : Out := aluOp s d fun h => h.pc + sext64 16 i <<< 16

/-! ### Register operations (R156) -/

def execAdd (d a b : Nat) (s : State) : Out := aluOp s d fun h => h.rg a + h.rg b
def execSub (d a b : Nat) (s : State) : Out := aluOp s d fun h => h.rg a - h.rg b
def execAnd (d a b : Nat) (s : State) : Out := aluOp s d fun h => h.rg a &&& h.rg b
def execOr (d a b : Nat) (s : State) : Out := aluOp s d fun h => h.rg a ||| h.rg b
def execXor (d a b : Nat) (s : State) : Out := aluOp s d fun h => h.rg a ^^^ h.rg b
def execSll (d a b : Nat) (s : State) : Out := aluOp s d fun h => h.rg a <<< bits (h.rg b).toNat 0 6
def execSrl (d a b : Nat) (s : State) : Out := aluOp s d fun h => h.rg a >>> bits (h.rg b).toNat 0 6
def execSra (d a b : Nat) (s : State) : Out := aluOp s d fun h => (h.rg a).sshiftRight (bits (h.rg b).toNat 0 6)
def execSlt (d a b : Nat) (s : State) : Out := aluOp s d fun h => b64 ((h.rg a).slt (h.rg b))
def execSltu (d a b : Nat) (s : State) : Out := aluOp s d fun h => b64 ((h.rg a).ult (h.rg b))
def execMul (d a b : Nat) (s : State) : Out := aluOp s d fun h => h.rg a * h.rg b
def execMulh (d a b : Nat) (s : State) : Out :=
  aluOp s d fun h => BitVec.ofInt 64 ((h.rg a).toInt * (h.rg b).toInt / 2 ^ 64)
def execMulhu (d a b : Nat) (s : State) : Out := aluOp s d fun h => w64 ((h.rg a).toNat * (h.rg b).toNat / 2 ^ 64)
def execDiv (d a b : Nat) (s : State) : Out := aluOp s d fun h => divS (h.rg a) (h.rg b)
def execDivu (d a b : Nat) (s : State) : Out := aluOp s d fun h => divN (h.rg a) (h.rg b)
def execRem (d a b : Nat) (s : State) : Out := aluOp s d fun h => remS (h.rg a) (h.rg b)
def execRemu (d a b : Nat) (s : State) : Out := aluOp s d fun h => remN (h.rg a) (h.rg b)
def execMin (d a b : Nat) (s : State) : Out :=
  aluOp s d fun h => if (h.rg a).slt (h.rg b) then h.rg a else h.rg b
def execMax (d a b : Nat) (s : State) : Out :=
  aluOp s d fun h => if (h.rg a).slt (h.rg b) then h.rg b else h.rg a
def execMinu (d a b : Nat) (s : State) : Out :=
  aluOp s d fun h => if (h.rg a).ult (h.rg b) then h.rg a else h.rg b
def execMaxu (d a b : Nat) (s : State) : Out :=
  aluOp s d fun h => if (h.rg a).ult (h.rg b) then h.rg b else h.rg a
def execClz (d a : Nat) (s : State) : Out := aluOp s d fun h => w64 (clzN (h.rg a))
def execCtz (d a : Nat) (s : State) : Out := aluOp s d fun h => w64 (ctzN (h.rg a))
def execPopc (d a : Nat) (s : State) : Out := aluOp s d fun h => w64 (popN (h.rg a))

end Sys2Proof.Machine
end

