-- ==== Sys2Proof/Machine/Memory.lean ====
section
/-! DEFINITION. The physical map (R117, R118), the walk and the TLBs (R119 to R131), Probe (R65), the station caches
(R112, R135, R136), writes at home and their admission by the Weir (R348 to R354), release and acquire (R140, R141). -/

namespace Sys2Proof.Machine

/-! ### The physical map -/

/-- The pieces of the physical map (R117). -/
inductive Region where
  | pool (die p : Nat)
  | spm (die k : Nat)
  | dev (die off : Nat)
  | host
  | none
  deriving DecidableEq, Repr

/-- Base of the HBM4 window of a die. -/
def hbmBase (d : Nat) : Nat := d * 0x2000000000
/-- Base of the LPDDR6 window of a die. -/
def lpddrBase (d : Nat) : Nat := 0x10000000000 + d * 0x8000000000
def spmBase (d k : Nat) : Nat := 0x80000000000 + d * 0x40000000 + k * 0x200000
def devBase (d : Nat) : Nat := 0xC0000000000 + d * 0x100000000
def hostBase : Nat := 0x8000000000000

/-- The piece of the map that holds a device-physical address (R117). -/
def regionOf (pa : Nat) : Region :=
  if pa < 0x10000000000 then .pool (pa / 0x2000000000) 0
  else if pa < 0x50000000000 then .pool ((pa - 0x10000000000) / 0x8000000000) 1
  else if 0x80000000000 ≤ pa ∧ pa < 0x80200000000 then
    let o := pa - 0x80000000000
    let k := o % 0x40000000 / 0x200000
    if k < 144 then .spm (o / 0x40000000) k else .none
  else if 0xC0000000000 ≤ pa ∧ pa < 0xC0800000000 then
    .dev ((pa - 0xC0000000000) / 0x100000000) ((pa - 0xC0000000000) % 0x100000000)
  else if hostBase ≤ pa ∧ pa < 2 * hostBase then .host
  else .none

/-- The die that is home of an address (R117). -/
def homeDie (pa : Nat) : Nat :=
  match regionOf pa with
  | .pool d _ => d
  | .spm d _ => d
  | .dev d _ => d
  | _ => 0

/-- Link 0 of a die goes up, link 1 down (R408). -/
def State.link (s : State) (d j : Nat) : Link :=
  vat (s.die d).links j { state := 0, retrain := 0, retry := 0, modup := 0, failed := [] }

/-- The link from die d to the next one up is down at either end. -/
def State.linkDown (s : State) (d : Nat) : Bool := (s.link d 0).state == 0 || (s.link ((d + 1) % 8) 1).state == 0

/-- Traffic of die a can reach die b by either way around the ring (R407). -/
def State.reaches (s : State) (a b : Nat) : Bool :=
  let up := (List.range ((b + 8 - a) % 8)).all fun i => !s.linkDown ((a + i) % 8)
  let down := (List.range ((a + 8 - b) % 8)).all fun i => !s.linkDown ((b + i) % 8)
  a == b || up || down

/-- DRAM bytes of a pool (R349). -/
def poolDram (p : Nat) : Nat := if p = 0 then 96 * 2 ^ 30 else 256 * 2 ^ 30
/-- Base of a pool's window (R117). -/
def poolBase (d p : Nat) : Nat := if p = 0 then hbmBase d else lpddrBase d

def State.pool (s : State) (d p : Nat) : Pool := vat (s.die d).pools p (Pool.reset 0)
def State.setPool (s : State) (d p : Nat) (x : Pool) : State :=
  s.setDie d { s.die d with pools := (s.die d).pools.setIfInBounds p x }

/-- Bytes of the present span of a pool (R349); RATIO counts as 16 while the pool is disabled (R350). -/
def State.spanOf (s : State) (d p : Nat) : Nat :=
  (if (s.pool d p).enabled then (s.pool d p).ratio else 16) * poolDram p / 16 / 65536 * 65536

/-- Whether a byte lies in a present span, a window or a region (R118). -/
def State.exists? (s : State) (pa : Nat) : Bool :=
  match regionOf pa with
  | .pool d p => decide (pa - poolBase d p < s.spanOf d p)
  | .none => false
  | _ => true

/-- A byte of an HBM4 or LPDDR6 present span. -/
def State.inSpan (s : State) (pa : Nat) : Bool :=
  match regionOf pa with
  | .pool _ _ => s.exists? pa
  | _ => false

/-- What the sector map says of a frame (R118, R348, R350); `fr` is the address divided by 64 KiB. -/
def State.frameInfo (s : State) (fr : Nat) : FrameInfo :=
  match regionOf (fr * 65536) with
  | .pool d p =>
    (find? (s.die d).frames fr).getD
      (if (s.pool d p).enabled then { FrameInfo.none with lossless := true, sectors := 0 } else FrameInfo.none)
  | _ => FrameInfo.none

def State.setFrame (s : State) (fr : Nat) (f : FrameInfo) : State :=
  match regionOf (fr * 65536) with
  | .pool d _ => s.setDie d { s.die d with frames := put (s.die d).frames fr f }
  | _ => s

/-- Any write performed in a frame clears COLD and MAXEFF (R357). -/
def State.warmFrame (s : State) (fr : Nat) : State :=
  let f := s.frameInfo fr
  if f.cold || f.maxeff then s.setFrame fr { f with cold := false, maxeff := false } else s

/-- The compression class of a frame is lossless (R118). -/
def State.lossless (s : State) (fr : Nat) : Bool := (s.frameInfo fr).lossless

/-! ### Page table entries and the walk (R119 to R124) -/

def pteV (e : Nat) : Bool := e.testBit 0
def pteR (e : Nat) : Bool := e.testBit 1
def pteW (e : Nat) : Bool := e.testBit 2
def pteX (e : Nat) : Bool := e.testBit 3
def pteU (e : Nat) : Bool := e.testBit 4
def pteSize (e : Nat) : Nat := bits e 6 2
def pteLayout (e : Nat) : Nat := bits e 8 2
def pteComp (e : Nat) : Bool := e.testBit 10
def pteIdem (e : Nat) : Bool := e.testBit 11
def pteCache (e : Nat) : Nat := bits e 12 2
def pteFrame (e : Nat) : Nat := bits e 16 36

/-- Bytes covered by a leaf, as a power of two: 512 MiB for SIZE 10, else one 64 KiB frame (R123). -/
def leafLog (e : Nat) : Nat := if pteSize e = 2 then 29 else 16

/-- WellFormed(e, level) (R123), for a walker of `die`; `any` accepts the scratchpad window of any die (R320). -/
def State.wellFormedPte (s : State) (die : Nat) (any : Bool) (e level : Nat) : Bool :=
  let sz := pteSize e
  let base := pteFrame e * 65536
  let last := base + 2 ^ leafLog e - 1
  pteV e && bits e 52 12 == 0 && bits e 14 2 == 0 && !e.testBit 5 && pteCache e != 3 && pteLayout e != 3 &&
  (if level = 2 then sz == 3 else if level = 1 then sz == 3 || sz == 2 else sz == 0 || sz == 1) &&
  (if sz = 3 then s.inSpan base && !s.lossless (pteFrame e)
   else
    (sz != 2 || bits (pteFrame e) 0 13 == 0) &&
    s.exists? base && s.exists? last &&
    (match regionOf base with
     | .dev _ _ => pteIdem e && pteCache e == 2
     | .spm d _ => any || d == die
     | _ => true))

/-- The levels of Walk from `level` down, at table `base` (R123). -/
def State.walkFrom (s : State) (die : Nat) (any : Bool) (va : Nat) : (level base : Nat) → Option Xlat
  | 0, base =>
    let e := Memory.num s.mem (base + 8 * bits va 16 13) 8
    if !s.wellFormedPte die any e 0 then none
    else if pteSize e = 1 then
      if bits (pteFrame e) 0 5 ≠ bits va 16 5 then none
      else some { pte := e, pa := pteFrame e / 32 * 2 ^ 21 + bits va 0 21, size := 16 }
    else some { pte := e, pa := pteFrame e * 65536 + bits va 0 16, size := 16 }
  | l + 1, base =>
    let e := Memory.num s.mem (base + 8 * bits va (16 + 13 * (l + 1)) 13) 8
    if !s.wellFormedPte die any e (l + 1) then none
    else if pteSize e = 3 then s.walkFrom die any va l (pteFrame e * 65536)
    else some { pte := e, pa := pteFrame e * 65536 + bits va 0 29, size := 29 }

/-- The descriptor of a context (R119): the root table, when it is VALID and well-formed. -/
def State.rootOf (s : State) (ctx : Nat) : Option Nat :=
  let d := Memory.num s.mem (s.pkg.ctxtbase + 16 * ctx) 8
  let r := Memory.num s.mem (s.pkg.ctxtbase + 16 * ctx + 8) 8
  if d.testBit 0 && bits d 1 15 == 0 && bits d 52 12 == 0 && r == 0 then some (bits d 16 36 * 65536) else none

/-- Walk(va, ctx) (R123). -/
def State.walk (s : State) (ctx die : Nat) (any : Bool) (va : Nat) : Option Xlat :=
  if va / 2 ^ 55 ≠ 0 then none
  else
    match s.rootOf ctx with
    | some b => s.walkFrom die any va 2 b
    | none => none

/-! ### The translation structures (R125 to R130) -/

/-- The path of a translation (R125, R126): fetch, scalar data, VMU unit-stride and strided, VMU indexed, stream. -/
inductive TlbPort where
  | fetch | data | row | gather | stream
  deriving DecidableEq, Repr

/-- Who translates: hart, context, mode, path, and the translations that the access has made (R126), by 64 KiB unit. -/
structure Who1 where
  id : Nat
  ctx : Nat
  sup : Bool
  port : TlbPort
  xl : List (Nat × Xlat)
  deriving DecidableEq, Repr

/-- The structure that serves an address (R125, R126). Of the two stream engines of a station, the harts of even number use
the first (DESIGN CHOICE, log 8). -/
def Who1.unit (c : Who1) (va : Nat) : TlbUnit :=
  match c.port with
  | .fetch => .fetch (coreOf c.id)
  | .data => .data (coreOf c.id)
  | .row => .row c.id
  | .gather => .gather (coreOf c.id) (bits va 16 6)
  | .stream => .stream (stnOf c.id) (c.id % 2)

/-- Entries of a structure (R125). -/
def TlbUnit.size (u : TlbUnit) : Nat :=
  match u with
  | .fetch _ => 64
  | .data _ => 64
  | .row _ => 1
  | .gather _ _ => 32
  | .stream _ _ => 32
  | .die _ => 16384
  | .walk _ => 256

/-- The copy of a structure that covers an address, of pages of 2^z bytes. -/
def State.tlbHit (s : State) (u : TlbUnit) (ctx va z : Nat) : Option TlbEntry :=
  s.tlb.find? fun t => t.unit == u && t.ctx == ctx && t.size == z && t.page == va / 2 ^ z

/-- A copy in a structure that covers an address; the smallest page first (R125, R130). -/
def State.tlbIn (s : State) (u : TlbUnit) (ctx va : Nat) : Option Xlat :=
  let hit : Nat → Option Xlat := fun z =>
    (s.tlbHit u ctx va z).map fun t => { pte := t.pte.toNat, pa := t.base + va % 2 ^ z, size := z }
  match hit 16 with
  | some x => some x
  | none =>
    match hit 21 with
    | some x => some x
    | none => hit 29

/-- The walk from the table that the walk cache of the die knows for an address, or else the whole walk (R125). -/
def State.walkVia (s : State) (ctx die va : Nat) : Option Xlat :=
  match s.tlbHit (.walk die) ctx va 29 with
  | some t => if va / 2 ^ 55 ≠ 0 then none else s.walkFrom die false va 0 t.base
  | none =>
    match s.tlbHit (.walk die) ctx va 42 with
    | some t => if va / 2 ^ 55 ≠ 0 then none else s.walkFrom die false va 1 t.base
    | none => s.walk ctx die false va

/-- Translate (R123): a copy in the path's own structure, one in the die TLB, or the walk (R125, R126). -/
def State.translate (s : State) (c : Who1) (va : Nat) : Option Xlat :=
  match s.tlbIn (c.unit va) c.ctx va with
  | some x => some x
  | none =>
    match s.tlbIn (.die (dieOf c.id)) c.ctx va with
    | some x => some x
    | none => s.walkVia c.ctx (dieOf c.id) va

/-- The translation that an access uses: the one it has made (R126), or Translate. -/
def State.xlat (s : State) (c : Who1) (va : Nat) : Option Xlat :=
  match find? c.xl (va / 65536) with
  | some x => some { x with pa := x.pa + va % 65536 }
  | none => s.translate c va

/-- A structure takes an entry; a full one gives up its oldest (log 8). -/
def State.tlbPut (s : State) (t : TlbEntry) : State :=
  let l := if (s.tlb.filter fun x => x.unit == t.unit).length < t.unit.size then s.tlb
           else (s.tlb.reverse.eraseP fun x => x.unit == t.unit).reverse
  { s with tlb := t :: l }

/-- The entry of a structure for a translation. -/
def tlbOf (u : TlbUnit) (ctx va : Nat) (x : Xlat) : TlbEntry :=
  { unit := u, ctx := ctx, size := x.size, page := va / 2 ^ x.size, pte := w64 x.pte, base := x.pa - va % 2 ^ x.size }

/-- The table pointers on the path of an address from a table down (R125): log2 of the bytes that a table covers, and
the table. -/
def State.pointers (s : State) (die va : Nat) : (level base : Nat) → List (Nat × Nat)
  | 0, _ => []
  | l + 1, base =>
    let e := Memory.num s.mem (base + 8 * bits va (16 + 13 * (l + 1)) 13) 8
    if s.wellFormedPte die false e (l + 1) && pteSize e == 3 then
      (16 + 13 * (l + 1), pteFrame e * 65536) :: s.pointers die va l (pteFrame e * 65536)
    else []

/-- The walk cache of a die takes the table pointers of a walk. -/
def State.walkFill (s : State) (ctx die va : Nat) : State :=
  match s.rootOf ctx with
  | none => s
  | some b =>
    (s.pointers die va 2 b).foldl (fun s p =>
      if (s.tlbHit (.walk die) ctx va p.1).isSome then s
      else s.tlbPut { unit := .walk die, ctx := ctx, size := p.1, page := va / 2 ^ p.1, pte := 0, base := p.2 }) s

/-- The access keeps its translation in the path's structure, in the die TLB and in the walk cache (R125, log 8). -/
def State.tlbFill (s : State) (c : Who1) (va : Nat) (x : Xlat) : State :=
  let u := c.unit va
  let d := TlbUnit.die (dieOf c.id)
  if (s.tlbIn u c.ctx va).isSome then s
  else
    let s1 := if (s.tlbIn d c.ctx va).isSome then s
              else (s.walkFill c.ctx (dieOf c.id) va).tlbPut (tlbOf d c.ctx va x)
    s1.tlbPut (tlbOf u c.ctx va x)

/-- INVPG, INVALL (R129): the translations and table pointers that satisfy `p` leave every structure. -/
def State.tlbDrop (s : State) (p : TlbEntry → Bool) : State := { s with tlb := s.tlb.filter fun t => !p t }

/-! ### Probe (R65) -/

/-- What an access needs (R65). -/
inductive AKind where
  | r | w | rw | x
  deriving DecidableEq, Repr

/-- One access of a list given to Probe: element, address, bytes, kind, alignment. -/
structure Acc1 where
  e : Nat
  va : Nat
  n : Nat
  k : AKind
  al : Nat
  deriving DecidableEq, Repr

/-- The cause of a page that is not valid, by the first right the kind needs (R65). -/
def AKind.fault : AKind → Cause
  | .r => .pgfltR
  | .w => .pgfltW
  | .rw => .pgfltR
  | .x => .pgfltX

/-- The checks of one 64 KiB unit at address `a` (R65, R122). -/
def State.probeUnit (s : State) (c : Who1) (k : AKind) (a : Nat) : Option Cause :=
  match s.xlat c a with
  | none => some k.fault
  | some x =>
    if !c.sup && !pteU x.pte then some k.fault
    else if (k = .r ∨ k = .rw) ∧ !pteR x.pte then some .pgfltR
    else if (k = .w ∨ k = .rw) ∧ !pteW x.pte then some .pgfltW
    else if k = .x ∧ !pteX x.pte then some .pgfltX
    else if pteComp x.pte != s.lossless (x.pa / 65536) then some .attrconfl
    else none

/-- The 64 KiB units that n bytes at va touch, each with the first byte of the access in it. -/
def unitsOf (va n : Nat) : List Nat :=
  if n = 0 then []
  else (span (va / 65536) ((va + n - 1) / 65536 - va / 65536 + 1)).map fun u => max va (u * 65536) % 2 ^ 64

/-- The places in memory that the levels of a walk read, from a table down (R123). -/
def State.entriesFrom (s : State) (die va : Nat) : (level base : Nat) → List Nat
  | 0, base => [base + 8 * bits va 16 13]
  | l + 1, base =>
    let a := base + 8 * bits va (16 + 13 * (l + 1)) 13
    let e := Memory.num s.mem a 8
    if s.wellFormedPte die false e (l + 1) && pteSize e == 3 then a :: s.entriesFrom die va l (pteFrame e * 65536) else [a]

/-- The places that a whole walk reads, the descriptor of the context first (R119, R123). -/
def State.rootReads (s : State) (ctx die va : Nat) : List Nat :=
  (s.pkg.ctxtbase + 16 * ctx) :: ((s.rootOf ctx).elim [] fun b => s.entriesFrom die va 2 b)

/-- The places that a walk reads which begins at what the walk cache of the die knows (R125). -/
def State.walkReads (s : State) (ctx die va : Nat) : List Nat :=
  match s.tlbHit (.walk die) ctx va 29, s.tlbHit (.walk die) ctx va 42 with
  | some t, _ => s.entriesFrom die va 0 t.base
  | none, some t => s.entriesFrom die va 1 t.base
  | none, none => s.rootReads ctx die va

/-- Some of the places that a die reads lie where it cannot reach (R407). -/
def State.anyAway (s : State) (die : Nat) (l : List Nat) : Bool := l.any fun a => !s.reaches die (homeDie a)

/-- An access of n bytes needs a walk through a table that its die cannot reach: it waits (R407). -/
def State.walkAway (s : State) (c : Who1) (va n : Nat) : Bool :=
  (unitsOf va n).any fun u =>
    (find? c.xl (u / 65536)).isNone && decide (u / 2 ^ 55 = 0) && (s.tlbIn (c.unit u) c.ctx u).isNone &&
    (s.tlbIn (.die (dieOf c.id)) c.ctx u).isNone && s.anyAway (dieOf c.id) (s.walkReads c.ctx (dieOf c.id) u)

/-- A walk of an address of a context waits for a table (R407). -/
def State.rootAway (s : State) (ctx die va : Nat) : Bool := decide (va / 2 ^ 55 = 0) && s.anyAway die (s.rootReads ctx die va)

/-- Probe of one access: the first failure, with its address. -/
def State.probe1 (s : State) (c : Who1) (a : Acc1) : Option (Cause × Nat) :=
  if a.va % a.al ≠ 0 then some (.align, a.va)
  else
    (unitsOf a.va a.n).findSome? fun u =>
      match s.probeUnit c a.k u with
      | some cause => some (cause, u)
      | none => none

/-- Probe (R65): the first failure in element order, with its element and address. -/
def State.probe (s : State) (c : Who1) (l : List Acc1) : Option (Cause × Nat × Nat) :=
  l.findSome? fun a =>
    match s.probe1 c a with
    | some (cause, u) => some (cause, a.e, u)
    | none => none

/-- Who translates for a scalar access of a hart. -/
def Hart.who (h : Hart) (id : Nat) : Who1 := { id := id, ctx := h.ctx, sup := h.sup, port := .data, xl := [] }
/-- Who translates for a fetch of a hart. -/
def Hart.fetcher (h : Hart) (id : Nat) : Who1 := { h.who id with port := .fetch }

/-! ### Where an access is served (R113, R122) -/

/-- Served by the caches of the station, performed at home, or a device-class access performed at home. -/
inductive Path where
  | cached | home | device
  deriving DecidableEq, Repr

/-- The path of an access through a mapping (R113, R115, R122). -/
def pathOf (x : Xlat) : Path :=
  if pteIdem x.pte then .device
  else
    match regionOf x.pa with
    | .spm _ _ => .home
    | .dev _ _ => .device
    | _ => if pteCache x.pte = 2 then .home else .cached

/-- A page of an access is device-class (R122). -/
def State.onDevice (s : State) (c : Who1) (a : Acc1) : Option Nat :=
  (unitsOf a.va a.n).find? fun u =>
    match s.xlat c u with
    | some x => pathOf x == .device
    | none => false

/-- A page of an access lies in the host or device-register region. -/
def State.offDram (s : State) (c : Who1) (a : Acc1) : Option Nat :=
  (unitsOf a.va a.n).find? fun u =>
    match s.xlat c u with
    | some x => (match regionOf x.pa with
      | .host => true
      | .dev _ _ => true
      | _ => false)
    | none => false

/-- The pieces of n bytes at va, each within one page: address, bytes, translation. -/
def State.pieces (s : State) (c : Who1) (va n : Nat) : List (Nat × Nat × Xlat) :=
  (unitsOf va n).filterMap fun u =>
    let first := (u + 2 ^ 64 - va % 2 ^ 64) % 2 ^ 64
    (s.xlat c u).map fun x => (u, min (n - first) (65536 - u % 65536), x)

/-- The translations of a performed access stay in a TLB (R125). -/
def State.tlbFillAll (s : State) (c : Who1) (va n : Nat) : State :=
  (s.pieces c va n).foldl (fun s p => s.tlbFill c p.1 p.2.2) s

/-! ### Writes at home (R351 to R353) -/

/-- The sectors that a lossless frame's contents need (R348). -/
def sectorsOf (contents : List Host.Cell) : Nat :=
  if contents.isEmpty then 0 else max 1 (min 128 (Config.sectors contents))

/-- The contents of a frame, by offset. -/
def frameCells (m : List Host.Cell) (fr : Nat) : List Host.Cell :=
  (Memory.range m (fr * 65536) 65536).map fun c => (c.1 - fr * 65536, c.2)

/-- A rise or fall of the free sectors: reclaim stops, and WEIRLOW may be raised again, when F ≥ WLOW (R355). -/
def Pool.setFree (p : Pool) (f : Nat) : Pool :=
  if p.wlow ≤ f then { p with free := f, step := 0, lowRaised := false } else { p with free := f }

/-- The threshold of an expanding write (R352). -/
inductive Thr where
  | ordinary | replay | device
  deriving DecidableEq, Repr

def Thr.value (t : Thr) (p : Pool) : Nat :=
  match t with
  | .ordinary => p.wcrit
  | .replay => 128
  | .device => 0

/-- Writes of the pool that are held. -/
def Die.heldIn (x : Die) (p : Nat) : List HeldWrite := x.held.filter fun w => w.pool == p

/-- Bytes as a write leaves them: only the bits of its mask are written of a byte that is written in part (R137). -/
def Memory.merge (m masks : List Host.Cell) (cs : List Host.Cell) : List Host.Cell :=
  cs.map fun c =>
    match find? masks c.1 with
    | some k => (c.1, (Memory.read m c.1 &&& ~~~k) ||| (c.2 &&& k))
    | none => c

/-- The first byte of host slot k of a die (R357, R365). -/
def State.slotBase (s : State) (d k : Nat) : Nat := hostBase + (s.die d).whbase + k * 65536

/-- Memory with the contents of a migrated frame read back from its host slot (R357). -/
def State.unslotted (s : State) (fr : Nat) : State :=
  match (s.frameInfo fr).slot, regionOf (fr * 65536) with
  | some k, .pool d _ =>
    let b := s.slotBase d k
    let cs := (Memory.range s.mem b 65536).map fun c => (c.1 - b + fr * 65536, c.2)
    { s with mem := Memory.splice s.mem (fr * 65536) 65536 cs }
  | _, _ => s

/-- One part of a write at home, its bytes in one frame (R351): performed whole, or `none` when the pool does not permit
it. A part without bytes is an access that recalls a migrated frame (R357). `turn` is whether the write may pass those
that are held; `masks` is as in `Memory.merge`. -/
def State.homePart (s : State) (fr : Nat) (cs masks : List Host.Cell) (thr : Thr) (turn : Bool) : Option State :=
  let f := s.frameInfo fr
  let s0 := s.unslotted fr
  let s' := s0.writeMem (Memory.merge s0.mem masks cs)
  match regionOf (fr * 65536) with
  | .pool d p =>
    if !f.lossless then
      some (if cs.isEmpty then s' else s'.warmFrame fr)
    else
      let n := if f.slot.isSome then 0 else f.sectors
      let n' := sectorsOf (frameCells s'.mem fr)
      let P := s.pool d p
      let f' := if cs.isEmpty then { f with sectors := n', slot := none }
                else { lossless := true, sectors := n', cold := false, maxeff := false, slot := none }
      if n' ≤ n then some ((s'.setFrame fr f').setPool d p (P.setFree (P.free + (n - n'))))
      else if (turn || ((s.die d).heldIn p).isEmpty) && decide (n' - n + thr.value P ≤ P.free) then
        some ((s'.setFrame fr f').setPool d p (P.setFree (P.free - (n' - n))))
      else none
  | _ => some s'

/-- The bytes of a station's cache that a write-back has made clean (R112, R136): the copies keep their values. -/
def Station.cleaned (t : Station) (cs : List Host.Cell) : Station :=
  { t with
    dirty := t.dirty.filter fun c => !cs.contains c,
    clean := t.clean.map fun (l, bs) =>
      (l, cs.foldl (fun bs c => if c.1 / 64 = l then bs.set (c.1 % 64) c.2 else bs) bs) }

/-- A master held by the Weir (R353, R354). -/
def State.holdMaster (s : State) (m : Master) (w : Nat) : State :=
  match m with
  | .hart id => s.modHart id fun h => { h with held := some w }
  | .engine id q slot =>
    let f : Entry → Entry := fun e => if e.slot = slot then { e with held := true } else e
    s.modHart id fun h =>
      match q with
      | .vector => { h with vq := h.vq.map fun v => { v with e := f v.e } }
      | .matrix => { h with mq := h.mq.map f }
      | .stream => { h with sq := h.sq.map f }
  | .inbound _ => s

/-- The frames of a list of cells, each once, in the order of the cells. -/
def framesOf (cs : List Host.Cell) : List Nat :=
  (cs.map fun c => c.1 / 65536).foldl (fun l f => if l.contains f then l else l ++ [f]) []

/-- The bytes that a part has left at home. -/
def State.asWritten (s : State) (part : List Host.Cell) : List Host.Cell := part.map fun c => (c.1, Memory.read s.mem c.1)

/-- A write-back's bytes become clean in its station. -/
def State.cleanedBy (s : State) (w : HeldWrite) (part : List Host.Cell) : State :=
  match w.wb with
  | some k => s.setStn k ((s.stn k).cleaned (s.asWritten part))
  | none => s

/-- Where the Weir holds a part: the pool of its frame. -/
def State.holdAt (s : State) (fr : Nat) (w : HeldWrite) : State :=
  match regionOf (fr * 65536) with
  | .pool d p =>
    let s' := s.bump 1
    let hw := { w with id := s.fresh, pool := p, fr := fr, since := s.now }
    (s'.setDie d { s'.die d with held := (s'.die d).held ++ [hw] }).holdMaster w.master hw.id
  | _ => s

/-- The cells from the first one in frame `fr` on. -/
def cellsFrom (cs : List Host.Cell) (fr : Nat) : List Host.Cell :=
  cs.filter fun c => ((framesOf cs).dropWhile fun k => k != fr).contains (c.1 / 65536)

/-- The die from which a write comes: its station's, its hart's, that of the fabric (requesters 65536 and up, one for each
die), or that of the endpoint. -/
def HeldWrite.source (w : HeldWrite) : Nat :=
  match w.wb, w.master with
  | some k, _ => k / 64
  | none, .hart id => dieOf id
  | none, .engine id _ _ => dieOf id
  | none, .inbound rid => if 65536 ≤ rid ∧ rid < 65544 then rid - 65536 else 0

/-- A write at home, part by part in the order of its cells, which ascend by the address of the access (R351, log 18).
The Bool says that all of it is performed; a part that is not admitted is held with its master, and the parts after it
wait with it (R353). Nothing is sent to a home that cannot be reached (R407). -/
def State.homeWrite (s : State) (cs : List Host.Cell) (thr : Thr) (w : HeldWrite) : State × Bool :=
  if cs.any fun c => !s.reaches w.source (homeDie c.1) then (s, false)
  else
    (framesOf cs).foldl (fun (r : State × Bool) fr =>
      if !r.2 then r
      else
        let part := cs.filter fun c => c.1 / 65536 == fr
        match r.1.homePart fr part w.masks thr false with
        | some s' => (s'.cleanedBy w part, true)
        | none =>
          (r.1.holdAt fr { w with pa := (part.head?.map Prod.fst).getD (fr * 65536), cells := cellsFrom cs fr }, false))
      (s, true)

/-- A held write of a master, before the Weir fills in its place. -/
def heldOf (m : Master) (ctx va : Nat) (device : Bool) (f : Finish) : HeldWrite :=
  { id := 0, pool := 0, fr := 0, cells := [], masks := [], wb := none, va := va, vas := [], target := none, master := m,
    ctx := ctx, device := device, pa := 0, finish := f, since := 0, reported := none, rctx := 0 }

/-- An access at home to a frame that may be migrated: it is recalled first (R357). -/
def State.recallFor (s : State) (pa : Nat) (thr : Thr) (w : HeldWrite) : State × Bool :=
  if (s.frameInfo (pa / 65536)).slot.isNone then (s, true)
  else
    match s.homePart (pa / 65536) [] [] thr false with
    | some s' => (s', true)
    | none => (s.holdAt (pa / 65536) { w with pa := pa, finish := .again }, false)

/-! ### The caches of a station (R112, R113, R135, R136) -/

/-- A byte as a master of the station reads it (R135). -/
def State.stationByte (s : State) (k pa : Nat) : Byte :=
  let t := s.stn k
  match find? t.dirty pa with
  | some b => b
  | none =>
    match find? t.clean (pa / 64) with
    | some bs => (bs[pa % 64]?).getD 0
    | none => Memory.read s.mem pa

/-- The lines that n bytes at pa touch. -/
def linesOf (pa n : Nat) : List Nat := span (pa / 64) ((pa + n - 1) / 64 - pa / 64 + 1)

/-- The 64-byte lines of a list of cells in the order of their addresses, descending. -/
def bufLines (buf : List Host.Cell) : List Nat :=
  buf.foldl (fun (l : List Nat) (c : Host.Cell) => if l.head? = some (c.1 / 64) then l else c.1 / 64 :: l) []

/-- Write-back of the dirty bytes of a station that satisfy `p`, by a master (R112, R140, R353). -/
def State.writeBack (s : State) (k : Nat) (p : Nat → Bool) (w : HeldWrite) : State × Bool :=
  s.homeWrite ((s.stn k).dirty.filter fun c => p c.1) .ordinary { w with wb := some k }

/-- The station cache holds a copy or dirty bytes of a line. -/
def Station.holds (t : Station) (line : Nat) : Bool :=
  (find? t.clean line).isSome || t.dirty.any fun c => c.1 / 64 == line

/-- Lines of a slice of the station cache, PA[9:6] (R112): those with dirty bytes, and those that are clean. -/
def Station.sliceDirty (t : Station) (k : Nat) : List Nat :=
  (bufLines (t.dirty.filter fun c => c.1 / 64 % 16 == k)).reverse
def Station.sliceClean (t : Station) (k : Nat) : List Nat :=
  ((t.clean.filter fun c => c.1 % 16 == k).map Prod.fst).filter fun l => !t.dirty.any fun c => c.1 / 64 == l

/-- A line that the station does not hold finds its slice of 2,048 lines full (R111, R112). -/
def Station.full (t : Station) (line : Nat) : Bool :=
  decide (2048 ≤ t.clean.length + t.dirty.length) && !t.holds line &&
  decide (2048 ≤ (t.sliceDirty (line % 16)).length + (t.sliceClean (line % 16)).length)

/-- A way for a line (R112, R353, log 9): the lowest clean line of a full slice is dropped; where every line has dirty
bytes, the lowest is written back by the master of the fill. -/
def State.makeRoom (s : State) (k line : Nat) (w : HeldWrite) : State × Bool :=
  let t := s.stn k
  if !t.full line then (s, true)
  else
    match t.sliceClean (line % 16), t.sliceDirty (line % 16) with
    | l :: _, _ => (s.setStn k { t with clean := erase t.clean l }, true)
    | [], l :: _ =>
      let r := s.writeBack k (fun a => a / 64 == l) { w with finish := .again }
      if r.2 then (r.1.setStn k { r.1.stn k with clean := erase (r.1.stn k).clean l }, true) else r
    | [], [] => (s, true)

/-- The station cache takes a line from home as a clean copy (R112, R135): false while its way is not free. -/
def State.fillLine (s : State) (k line : Nat) (w : HeldWrite) : State × Bool :=
  if (find? (s.stn k).clean line).isSome then (s, true)
  else
    let r := s.makeRoom k line w
    if !r.2 then r
    else (r.1.setStn k { r.1.stn k with clean := put (r.1.stn k).clean line (Memory.readN r.1.mem (line * 64) 64) }, true)

def State.fillLines (s : State) (k pa n : Nat) (w : HeldWrite) : State × Bool :=
  (linesOf pa n).foldl (fun r l => if r.2 then r.1.fillLine k l w else r) (s, true)

/-- Bytes written locally at a station (R133, R136), which ends the watches of their lines (R163): false while a way is not
free. -/
def State.stationWrite (s : State) (k : Nat) (cs : List Host.Cell) (w : HeldWrite) : State × Bool :=
  (bufLines cs).reverse.foldl (fun (r : State × Bool) l =>
    if !r.2 then r
    else
      let q := r.1.makeRoom k l w
      if !q.2 then q
      else
        let t := q.1.stn k
        let new := cs.filter fun c => c.1 / 64 == l
        (q.1.setStn k { t with dirty := new.foldl (fun l c => put l c.1 c.2) t.dirty,
                               watch := t.watch.filter fun w => w.2 != l }, true)) (s, true)

/-- Every clean line of a station is dropped (R141). -/
def State.dropClean (s : State) (k : Nat) : State := s.setStn k { s.stn k with clean := [] }

/-! ### Release and acquire (R134, R140, R141) -/

/-- The scopes whose point of performance is home: .gang and wider (R134). -/
def atHome (scope : Nat) : Bool := 4 ≤ scope

/-- Steps 2 and 3 of a release (R140), by a hart or an engine instruction: the dirty bytes of the station go home. -/
def State.releaseHome (s : State) (id scope : Nat) (w : HeldWrite) : State × Bool :=
  if atHome scope then s.writeBack (stnOf id) (fun _ => true) w else (s, true)

/-- Steps 3 and 4 of an acquire (R141): lane caches, and clean lines when the scope performs at home. -/
def State.acquire (s : State) (id scope : Nat) : State :=
  let s1 := s.modHart id fun h => { h with lcache := [] }
  if atHome scope then s1.dropClean (stnOf id) else s1

end Sys2Proof.Machine
end

