-- ==== Sys2Proof/Machine/Operands.lean ====
section
/-! DEFINITION. Type state (R36 to R39), the placement of elements in the lanes (R184, R185), the reading of vector
operands (R187 to R190), the writing of destinations (R186, R192, R193) and the operands of scalar words. -/

namespace Sys2Proof.Machine

/-! ### VTYPE (R36) and TSHAPE (R39) -/

/-- VTYPE with VILL alone set. -/
def vtypeIll : W64 := 0x1000000000
/-- TSHAPE at reset. -/
def tshapeReset : W64 := 0x8000000000000000

/-- The fields of VTYPE; widths in bits. -/
structure VT where
  vill : Bool
  frac : Nat
  sat : Bool
  rm : Nat
  blk : Nat
  group : Nat
  kind : Nat
  wb : Nat
  wa : Nat
  wd : Nat
  deriving DecidableEq, Repr

def VT.of (x : W64) : VT :=
  let v := x.toNat
  { vill := v.testBit 36, frac := bits v 30 6, sat := v.testBit 29, rm := bits v 26 3, blk := bits v 24 2,
    group := bits v 22 2, kind := bits v 18 4, wb := bits v 12 6 + 1, wa := bits v 6 6 + 1, wd := bits v 0 6 + 1 }

/-- The GROUP count: 1, 2, 4 or 8. -/
def VT.g (t : VT) : Nat := 2 ^ t.group

/-- Whether VSETVL refuses a requested VTYPE (R38). -/
def vtypeRefused (x : W64) : Bool :=
  let t := VT.of x
  t.vill || bits x.toNat 37 27 != 0 || decide (13 ≤ t.kind) || decide (6 ≤ t.rm) || t.blk == 3 ||
  decide (32 < t.wd) || decide (32 < t.wa) || decide (32 < t.wb) ||
  (decide (4 ≤ t.kind) && t.wd != kindWidth t.kind) ||
  (if t.kind = 2 ∨ t.kind = 3 then decide (t.wd < t.frac) else t.frac != 0)

/-- The fields of TSHAPE. -/
structure TS where
  till : Bool
  slide : Bool
  xbase : Int
  tl : Nat
  blk : Nat
  bkind : Nat
  akind : Nat
  deriving DecidableEq, Repr

def TS.of (x : W64) : TS :=
  let v := x.toNat
  { till := v.testBit 63, slide := v.testBit 26, xbase := sx 10 (bits v 16 10), tl := bits v 10 6 + 1,
    blk := bits v 8 2, bkind := bits v 4 4, akind := bits v 0 4 }

/-- TSHAPE after a write (R39): TILL recomputed, reserved bits read 0. -/
def tshapeWrite (x : W64) : W64 :=
  let v := x.toNat
  let ak := bits v 0 4
  let bk := bits v 4 4
  let blk := bits v 8 2
  let out : Nat → Bool := fun k => decide (k < 5) || decide (12 < k)
  let small : Nat → Bool := fun k => decide (9 ≤ k)
  let wide : Nat → Bool := fun k => k == 5 || k == 6
  let till := out ak || out bk || blk == 3 || (blk == 0 && (small ak || small bk)) ||
    (blk != 0 && (wide ak || wide bk)) || bits v 27 36 != 0
  w64 (bits v 0 27 + bitOf till * 2 ^ 63)

/-- Block size of a BLK code (R286). -/
def blockSize (blk : Nat) : Nat := if blk = 1 then 24 else 32

/-- NREG count of VCFG (R75). -/
def nregOf (vcfg : W64) : Nat := 8 * 2 ^ bits vcfg.toNat 0 2
/-- BANKS of VCFG (R75). -/
def banksOf (vcfg : W64) : Nat := bits vcfg.toNat 8 5

/-- Elements per lane (R77). -/
def epl (vcfg : W64) (t : VT) : Nat :=
  min 64 (banksOf vcfg * 128 * t.g / (nregOf vcfg * max t.wd (max t.wa t.wb)))

/-- VLMAX (R77); 0 under VILL. -/
def vlmax (vcfg vtype : W64) : Nat := if (VT.of vtype).vill then 0 else 16384 * epl vcfg (VT.of vtype)

/-- VGRANT.GROUPS (R83). -/
def Hart.gcount (h : Hart) : Nat := bits h.vgrant.toNat 0 7

/-- VGRANT with G groups and a deficit (R83). -/
def vgrantOf (g deficit : Nat) : W64 := w64 (g + 256 * g * 256 + deficit * 2 ^ 24)

/-- The lanes over which the registers of a hart lie now: those before a pending re-deal, or the grant's. -/
def Hart.lanes (h : Hart) : Nat :=
  match h.vq.findSome? fun v => v.redeal with
  | some r => r.lOld
  | none => 256 * h.gcount

/-! ### Bit stores -/

/-- One bit: defined, or the free value of its filling (R9, log 5). -/
def BitStore.bit (b : BitStore) (pos : Nat) : Bool :=
  if b.known.testBit pos then b.val.testBit pos
  else
    match b.fills.find? fun f => f.2.testBit pos with
    | some f => Config.freeBit f.1 pos
    | none => Config.freeBit b.seed pos

/-- A number from bits, least significant first. -/
def natOfBits : List Bool → Nat
  | [] => 0
  | b :: l => bitOf b + 2 * natOfBits l

/-- All n bits from `pos` are defined. -/
def BitStore.isKnown (b : BitStore) (pos n : Nat) : Bool := bits b.known pos n == 2 ^ n - 1

def BitStore.get (b : BitStore) (pos n : Nat) : Nat :=
  if b.isKnown pos n then bits b.val pos n else natOfBits ((span pos n).map b.bit)

def BitStore.set (b : BitStore) (pos n x : Nat) : BitStore :=
  { b with known := setBits b.known pos n (2 ^ n - 1), val := setBits b.val pos n x }

/-- The n bits from `pos` become undefined, as filling `seed`. -/
def BitStore.kill (b : BitStore) (seed pos n : Nat) : BitStore :=
  { b with known := setBits b.known pos n 0, val := setBits b.val pos n 0,
           fills := (seed, (2 ^ n - 1) * 2 ^ pos) :: b.fills }

/-! ### Elements in the lanes (R184) -/

/-- Lanes, and bit-rows of one register. -/
structure Geo where
  L : Nat
  R : Nat
  deriving DecidableEq, Repr

def Hart.geo (h : Hart) : Geo := { L := h.lanes, R := banksOf h.vcfg * 128 / nregOf h.vcfg }

/-- The pieces of n bits from operand row `row` of a lane: register offset, position, length, bit offset. -/
def chunks (R lane : Nat) : (fuel row n off : Nat) → List (Nat × Nat × Nat × Nat)
  | 0, _, _, _ => []
  | k + 1, row, n, off =>
    if n = 0 then []
    else
      let l := min n (R - row % R)
      (row / R, lane * R + row % R, l, off) :: chunks R lane k (row + l) (n - l) (off + l)

/-- The pieces of element e at width w (R184). -/
def Geo.elem (G : Geo) (w e : Nat) : List (Nat × Nat × Nat × Nat) :=
  chunks G.R (e % G.L) 33 (e / G.L * w) w 0

/-- Whether element e exists at width w in an operand of g registers (R184). -/
def Geo.has (G : Geo) (g w e : Nat) : Bool := decide ((e / G.L + 1) * w ≤ g * G.R)

def vreg (v : Vector VReg 32) (k : Nat) : VReg := vat v k (VReg.undef 0)

/-- Element e of the operand at register k, of g registers, at width w; one that does not exist is undefined. -/
def readElem (v : Vector VReg 32) (G : Geo) (k g w e : Nat) : Nat :=
  if G.has g w e then
    (G.elem w e).foldl (fun a c => a + (vreg v (k + c.1)).st.get c.2.1 c.2.2.1 * 2 ^ c.2.2.2) 0
  else natOfBits ((span (2 ^ 40 + 64 * e) w).map fun p => Config.freeBit (vreg v k).st.seed p)

/-- Every bit of the element is defined. -/
def elemKnown (v : Vector VReg 32) (G : Geo) (k g w e : Nat) : Bool :=
  G.has g w e && (G.elem w e).all fun c => (vreg v (k + c.1)).st.isKnown c.2.1 c.2.2.1

/-- Element e written at width w; nothing when it does not exist. -/
def writeElem (v : Vector VReg 32) (G : Geo) (k g w e x : Nat) : Vector VReg 32 :=
  if G.has g w e then
    (G.elem w e).foldl (fun v c =>
      v.setIfInBounds (k + c.1)
        { vreg v (k + c.1) with st := (vreg v (k + c.1)).st.set c.2.1 c.2.2.1 (x / 2 ^ c.2.2.2) }) v
  else v

/-- Element e becomes undefined. -/
def killElem (v : Vector VReg 32) (G : Geo) (seed k g w e : Nat) : Vector VReg 32 :=
  if G.has g w e then
    (G.elem w e).foldl (fun v c =>
      v.setIfInBounds (k + c.1)
        { vreg v (k + c.1) with st := (vreg v (k + c.1)).st.kill seed c.2.1 c.2.2.1 }) v
  else v

/-- Registers k to k+g-1 changed. -/
def mapRegs (v : Vector VReg 32) (k g : Nat) (f : Nat → VReg → VReg) : Vector VReg 32 :=
  (List.range g).foldl (fun v j => v.setIfInBounds (k + j) (f j (vreg v (k + j)))) v

/-! ### Reading operands (R187, R188) -/

/-- Element e of a v-operand read at width r under an int interpretation (R188); an untagged register reads at r. An
operand of several registers has the tag of its first (log 45). -/
def readInt (h : Hart) (k g r : Nat) (sgn : Bool) (e : Nat) : Nat :=
  match (vreg h.v k).tag with
  | some t => extend sgn t.w r (readElem h.v h.geo k g t.w e)
  | none => readElem h.v h.geo k g r e

/-- Live planes of an int operand after the reshuffle (R186, R188). -/
def livePlanes (h : Hart) (k r : Nat) (sgn : Bool) : Nat :=
  match (vreg h.v k).tag with
  | some t => if t.w = r then t.p else if t.sgn = sgn then min t.p r else r
  | none => r

/-- The width tag of a register. -/
def tagW (h : Hart) (k : Nat) : Option Nat := (vreg h.v k).tag.map fun t => t.w

/-- A tagged operand under a float or storage kind mismatches: its tag, or the width at which it is read. An untagged one
never does (R189). -/
def illWidth (h : Hart) (k kind r : Nat) : Bool :=
  match tagW h k with
  | some w => w != kindWidth kind || r != kindWidth kind
  | none => false

def mreg (h : Hart) (k : Nat) : BitStore := vat h.m k (BitStore.undef 0)

/-- Bit e of mask register k (R185). -/
def maskBit (h : Hart) (k e : Nat) : Bool := (mreg h k).bit e

/-! ### Writing destinations (R186, R192, R193) -/

/-- The smallest p with x fitting a p-bit number, p ≥ 1 (R186). -/
def planesOf (sgn : Bool) (w x : Nat) : Nat :=
  if sgn then
    let z := sx w x
    max 1 (1 + (if 0 ≤ z then bitLen z.toNat else bitLen (-z - 1).toNat))
  else max 1 (bitLen (x % 2 ^ w))

/-- P after a write (R186): over every element below V; one that is undefined counts as needing every plane (log 45). -/
def newPlanes (v : Vector VReg 32) (G : Geo) (k g w V : Nat) (int sgn : Bool) : Nat :=
  if int then
    (List.range V).foldl (fun p e => if elemKnown v G k g w e then max p (planesOf sgn w (readElem v G k g w e)) else w) 1
  else w

/-- The write of a row (R192, R193): `res` are the written elements, `dead` those that become undefined. The old P counts
while the write leaves an element under the old tag (R186). -/
def writeRow (h : Hart) (seed k g wd : Nat) (int sgn : Bool) (V : Nat) (res : List (Nat × Nat)) (dead : List Nat) :
    Hart :=
  if V = 0 then h
  else
    let G := h.geo
    let old := (vreg h.v k).tag
    let keep := match old with
      | some t => t.w == wd
      | none => true
    let base :=
      if keep then h.v
      else
        let w0 := match old with
          | some t => t.w
          | none => wd
        let blank := mapRegs h.v k g fun j _ => VReg.undef (seed + j)
        if int then
          (List.range V).foldl (fun v e =>
            if elemKnown h.v G k g w0 e then writeElem v G k g wd e (extend sgn w0 wd (readElem h.v G k g w0 e)) else v)
            blank
        else blank
    let written := res.foldl (fun v r => writeElem v G k g wd r.1 r.2) base
    let v1 := dead.foldl (fun v e => killElem v G (seed + 8) k g wd e) written
    let p := newPlanes v1 G k g wd V int sgn
    let all := decide (G.L * (g * G.R / wd) ≤ max res.length dead.length)
    let p' := match old with
      | some t => if keep && !all then max p t.p else p
      | none => p
    { h with v := mapRegs v1 k g fun _ r => { r with tag := some { w := wd, p := p', sgn := sgn } } }

/-- A write to a mask register (R192). -/
def writeMask (h : Hart) (k : Nat) (res : List (Nat × Nat)) : Hart :=
  { h with m := h.m.setIfInBounds k (res.foldl (fun b r => b.set r.1 1 r.2) (mreg h k)) }

/-- Every v-register untagged with undefined contents, every m-register undefined: seeds `seed` to `seed + 39`. -/
def Hart.undefRegs (h : Hart) (seed : Nat) : Hart :=
  { h with v := Vector.ofFn fun i => VReg.undef (seed + i.val), m := Vector.ofFn fun i => BitStore.undef (seed + 32 + i.val) }

/-! ### Scalar captures (R190) -/

/-- The low n bits of a captured g-register. -/
def lowBits (x : W64) (n : Nat) : Nat := bits x.toNat 0 n

end Sys2Proof.Machine
end

