-- ==== Sys2Proof/Machine/Weir.lean ====
section
/-! DEFINITION. The Weir: admission of held writes, reclaim, reports, commands and the Weir's registers
(R348 to R366), WEIR.HINT and WEIR.QUERY (R367, R368). -/

namespace Sys2Proof.Machine

/-! ### Atomic operations (R160, R236) -/

/-- The new value of an AMO on n bytes: add, or, and, signed min, signed max, swap, compare-and-swap with `c`; none
where nothing is written. -/
def amoNew (op n old y c : Nat) (sgn : Bool) : Option Nat :=
  let w := 8 * n
  let below : Nat → Nat → Bool := fun p q =>
    if sgn then decide (sx w p < sx w q) else decide (p % 2 ^ w < q % 2 ^ w)
  match op with
  | 0 => some ((old + y) % 2 ^ w)
  | 1 => some ((old ||| y) % 2 ^ w)
  | 2 => some ((old &&& y) % 2 ^ w)
  | 3 => some (if below y old then y % 2 ^ w else old)
  | 4 => some (if below old y then y % 2 ^ w else old)
  | 5 => some (y % 2 ^ w)
  | _ => if old = c % 2 ^ w then some (y % 2 ^ w) else none

/-- The bytes that an AMO at home writes, from the contents at this instant. -/
def State.amoCells (s : State) (pa op n y c : Nat) (sgn : Bool) : List Host.Cell :=
  match amoNew op n (Memory.num s.mem pa n) y c sgn with
  | some z => cellsAt pa n z
  | none => []

/-! ### Held writes -/

/-- The bytes of a held write as they are now (R351: an AMO is computed at the admission check; so is an addition to a
completion word). -/
def State.heldCells (s : State) (w : HeldWrite) : List Host.Cell :=
  match w.finish with
  | .amo op n y c _ => s.amoCells w.pa op n y c true
  | .vamo op n y c _ _ sgn => s.amoCells w.pa op n y c sgn
  | .count v _ => s.amoCells w.pa 0 8 v 0 true
  | _ => w.cells

/-- The master of the fabric's writes on a die (R411). -/
def fabricMaster (d : Nat) : Master := .inbound (65536 + d)

/-- A 64-bit addition at home by the fabric of die d: the completion word of an arrived transfer, or of the posted one
`xfer` (R411). The Bool says that it is performed. -/
def State.homeAdd (s : State) (d pa v : Nat) (xfer : Option Nat) : State × Bool :=
  let z := (Memory.num (s.unslotted (pa / 65536)).mem pa 8 + v) % 2 ^ 64
  s.homeWrite (cellsAt pa 8 z) .ordinary (heldOf (fabricMaster d) 0 pa false (.count v xfer))

/-- An arrived transfer of die d has its bytes written: its completion word takes `inc`, and then it is acknowledged (R411).
The addition is owed while the word's home cannot be reached (R407). -/
def State.fabricCount (s : State) (d cpa inc : Nat) : State :=
  if cpa = 0 then s.send (.fabricAck 0)
  else if !s.reaches d (homeDie cpa) then s.setDie d { s.die d with owed := (s.die d).owed ++ [(cpa, inc)] }
  else
    let r := s.homeAdd d cpa inc none
    if r.2 then r.1.send (.fabricAck 0) else r.1

/-- A posted transfer is complete (R411, R412). -/
def State.xferOver (s : State) (d id : Nat) : State :=
  s.setDie d { s.die d with inflight := (s.die d).inflight.filter fun x => x.id != id }

/-- What follows an addition to a completion word (R411): the acknowledgement, or the end of the posted transfer. -/
def State.counted (s : State) (d : Nat) (xfer : Option Nat) : State :=
  match xfer with
  | some id => s.xferOver d id
  | none => s.send (.fabricAck 0)

/-- A held write leaves the Weir. -/
def State.dropHeld (s : State) (d id : Nat) : State :=
  s.setDie d { s.die d with held := (s.die d).held.filter fun w => w.id != id }

/-- Change the entry of a queue in a slot. -/
def Hart.modEntry (h : Hart) (q : Queue) (slot : Nat) (f : Entry → Entry) : Hart :=
  let g : Entry → Entry := fun e => if e.slot = slot then f e else e
  match q with
  | .vector => { h with vq := h.vq.map fun v => { v with e := g v.e } }
  | .matrix => { h with mq := h.mq.map g }
  | .stream => { h with sq := h.sq.map g }

/-- An engine instruction freezes (R182): it stops at its current element group or burst, whose steps so far are lost, and
probes again when it resumes (R129, R183). -/
def State.freezeEngine (s : State) (id : Nat) (h : Hart) (q : Queue) (slot reason : Nat) : State :=
  (s.setHart id (h.modEntry q slot fun e =>
    { (if q = .stream then e else e.unprobed) with frozen := some reason, sub := 0, ran := [] })).raiseFrozen h.ctx
      (handleEngine id h.ctx reason q slot)

/-- The entry of a queue in a slot. -/
def Hart.entry? (h : Hart) (q : Queue) (slot : Nat) : Option Entry := (h.entries q).find? fun e => e.slot == slot

/-- A FLUSH is over, with its FSTAT (R251): the buffer is empty unless its probe failed. -/
def Hart.flushed (h : Hart) (fstat : Nat) : Hart :=
  { h with fstat := fstat, sbpend := h.sbpend.drop 1, flushAt := 0,
           strip := if fstat = 0 then h.strip.map fun t => { t with buf := [], at_ := [] } else h.strip }

/-- The counters of a slot whose transfer has completed its elements below `n` (R304). -/
def Slot.reached (t : Slot) (n : Nat) : Slot := { t with progress := max t.progress n, ea := max t.ea n }

/-- A burst whose held bytes have been admitted counts in its slot (R304). -/
def Hart.burstDone (h : Hart) (q : Queue) (slot : Nat) (f : Finish) : Hart :=
  match f, h.entry? q slot with
  | .burst _ n, some e => { h with slots := h.slots.map fun t => if t.holder = some e.seq then t.reached n else t }
  | _, _ => h

/-- A held master goes on (R353): what the admission of its write does for it. `old` is what an AMO read. -/
def State.releaseMaster (s : State) (w : HeldWrite) (old : Nat) : State :=
  match w.master with
  | .hart id =>
    s.modHart id fun h =>
      let h := { h with held := none }
      match w.finish with
      | .done d =>
        (match d with
         | some r => h.setG r.1 r.2
         | none => h).advance
      | .amo _ n _ _ d => (h.setG d (sext64 (8 * n) old)).advance
      | .elem k => { h with flushAt := k + 1 }
      | _ => h
  | .engine id q slot =>
    s.modHart id fun h => (h.burstDone q slot w.finish).modEntry q slot fun e =>
      let e := { e with held := false }
      match w.finish with
      | .elem k => { e with part := { e.part with cnt := k + 1 } }
      | .vamo _ _ _ _ _ k _ => { e with part := { e.part with cnt := k + 1 }, res := e.res ++ [(k, old)] }
      | .burst k _ => { e with part := { e.part with cnt := k }, inflight := [] }
      | _ => e
  | .inbound rid =>
    match w.finish with
    | .fabric cpa inc => s.fabricCount (rid - 65536) cpa inc
    | .count _ xfer => s.counted (rid - 65536) xfer
    | _ => s

/-- The virtual address of the part of a held write that lies in its frame (R359). -/
def HeldWrite.partVa (w : HeldWrite) : Nat := (find? w.vas w.fr).getD w.va

/-- A held write that goes on to its next part, at its place in the pool's order with its time and its report; a part
in another pool takes its place behind the writes held there (R353, R359). -/
def State.heldNext (s : State) (d : Nat) (w : HeldWrite) (fr pa : Nat) (cells : List Host.Cell) : State :=
  match regionOf (fr * 65536) with
  | .pool e p =>
    let w' := { w with fr := fr, pool := p, pa := pa, cells := cells }
    if e = d ∧ p = w.pool then
      s.setDie d { s.die d with held := (s.die d).held.map fun v => if v.id = w.id then w' else v }
    else
      let s1 := s.dropHeld d w.id
      s1.setDie e { s1.die e with held := (s1.die e).held ++ [{ w' with reported := if e = d then w.reported else none }] }
  | _ => s

/-- The parts of a held write that the pools permit, in order: the first state in which one is not, or all are. `thr`
is the threshold of the first (R351, R353). -/
def State.permitParts (s : State) (d : Nat) (w : HeldWrite) (thr : Thr) : List Nat → State × Bool
  | [] => (s, true)
  | fr :: l =>
    let part := w.cells.filter fun c => c.1 / 65536 == fr
    let turn := match regionOf (fr * 65536) with
      | .pool e p => e == d && p == w.pool
      | _ => true
    match s.homePart fr part w.masks thr turn with
    | some s' => (s'.cleanedBy w part).permitParts d w thr l
    | none => (s.heldNext d w fr ((part.head?.map Prod.fst).getD (fr * 65536)) (cellsFrom w.cells fr), false)

/-- The performance of a held write, in turn or by a REPLAY, from the part that is held on: `thr` is its threshold; none
while that part is not permitted. -/
def State.permit (s : State) (d : Nat) (w : HeldWrite) (thr : Thr) : Option State :=
  let cs := (s.unslotted w.fr).heldCells w
  let w' := { w with cells := cs }
  let part := cs.filter fun c => c.1 / 65536 == w.fr
  let old := match w.finish with
    | .amo _ n _ _ _ => Memory.num (s.unslotted w.fr).mem w.pa n
    | .vamo _ n _ _ _ _ _ => Memory.num (s.unslotted w.fr).mem w.pa n
    | _ => 0
  let done := if part.isEmpty && (s.frameInfo w.fr).slot.isNone then some s else s.homePart w.fr part w.masks thr true
  done.map fun s1 =>
    let r := (s1.cleanedBy w' part).permitParts d w' thr ((framesOf cs).filter fun k => k != w.fr)
    if r.2 then (r.1.dropHeld d w.id).releaseMaster w old else r.1

/-- Held writes of a pool are admitted in order, up to the first that does not fit (R353). -/
def State.admitAll (s : State) (d p : Nat) : (fuel : Nat) → State
  | 0 => s
  | k + 1 =>
    match (s.die d).heldIn p with
    | [] => s
    | w :: _ =>
      match s.permit d w (if w.device then .device else .ordinary) with
      | some s' => State.admitAll s' d p k
      | none => s

/-! ### Reclaim (R355 to R358) -/

/-- Cold, resident, lossless frames of a pool, ascending (R355). -/
def State.coldFrames (s : State) (d p : Nat) : List (Nat × FrameInfo) :=
  (s.die d).frames.filter fun f =>
    f.2.cold && f.2.lossless && f.2.slot.isNone && regionOf (f.1 * 65536) == .pool d p

/-- The frame that step 1 takes. -/
def State.step1 (s : State) (d p : Nat) : Option (Nat × FrameInfo) :=
  if (s.pool d p).free < 128 then none else (s.coldFrames d p).find? fun f => !f.2.maxeff

/-- Host slots in use on a die (R365). -/
def Die.usedSlots (x : Die) : List Nat := x.frames.filterMap fun f => f.2.slot

/-- The lowest free host slot. -/
def Die.freeHostSlot (x : Die) : Option Nat := firstFrom (fun k => !x.usedSlots.contains k) 0 (min x.whslots (x.usedSlots.length + 1))

/-- The frame and slot that step 2 takes. -/
def State.step2 (s : State) (d p : Nat) : Option (Nat × FrameInfo × Nat) :=
  match (s.coldFrames d p).head?, (s.die d).freeHostSlot with
  | some f, some k => some (f.1, f.2, k)
  | _, _ => none

/-- The pool reclaims (R355). -/
def Pool.reclaims (P : Pool) : Bool := P.enabled && decide (P.free < P.wlow)

/-- RECOMPRESS (R355 step 1, R356): nothing unless the step applies. -/
def execRecompress (d p : Nat) (s : State) : Out :=
  if !(s.pool d p).reclaims then .next s
  else
    match s.step1 d p with
    | none => .next s
    | some (fr, f) =>
      let cs := frameCells s.mem fr
      let n := if cs.isEmpty then 0 else max 1 (min f.sectors (Config.bestSectors cs))
      let P := s.pool d p
      .next ((s.setFrame fr { f with sectors := n, maxeff := true }).setPool d p
        ({ P with step := 1 }.setFree (P.free + (f.sectors - n))))

/-- MIGRATE (R355 step 2, R357): the frame goes to a host slot. -/
def execMigrate (d p : Nat) (s : State) : Out :=
  if !(s.pool d p).reclaims || (s.step1 d p).isSome then .next s
  else
    match s.step2 d p with
    | none => .next s
    | some (fr, f, k) =>
      let base := s.slotBase d k
      let cs := (frameCells s.mem fr).map fun c => (base + c.1, c.2)
      let s1 := { s with mem := Memory.clear (Memory.splice s.mem base 65536 cs) (fr * 65536) 65536 }
      let P := s.pool d p
      .next ((s1.setFrame fr { f with sectors := 0, slot := some k }).setPool d p
        ({ P with step := 2 }.setFree (P.free + f.sectors)))

/-- BALLOON (R355 step 3, R358): WEIRLOW once, and host event 3 (R405). -/
def execBalloon (d p : Nat) (s : State) : Out :=
  let P := s.pool d p
  if !P.reclaims || (s.step1 d p).isSome || (s.step2 d p).isSome || P.lowRaised then .next s
  else
    let s1 := s.setPool d p { P with step := 3, lowRaised := true }
    let s2 := match s1.supHart 0 with
      | some id => s1.modHart id fun h => h.raise ipWeirlow (w64 (d + 256 * p))
      | none => s1
    .next (s2.setHevt 3)

/-! ### Reports and their answers (R359 to R362) -/

/-- The supervisor hart is held on a device-class write, which cannot be withdrawn (R359, R362). -/
def State.heldOnDevice (s : State) (id : Nat) : Bool :=
  match s.hart? id with
  | some h =>
    (match h.held with
     | some w => s.dies.any fun x => x.2.held.any fun v => v.id == w && v.device
     | none => false)
  | none => false

/-- The hart that receives the report of a held write. -/
def State.reportHart (s : State) (w : HeldWrite) : Option Nat :=
  let c0 := match s.supHart 0 with
    | some id => if s.heldOnDevice id then none else some id
    | none => none
  match w.master with
  | .inbound _ => c0
  | _ =>
    match s.supHart w.ctx with
    | some id => if s.heldOnDevice id then c0 else some id
    | none => c0

/-- WEIRBOUND expires for a held write (R359): it takes an entry of the table and is reported. -/
def execWeirboundExpiry (d id : Nat) (s : State) : Out :=
  match (s.die d).held.find? fun w => w.id == id with
  | none => .next s
  | some w =>
    let full := decide (256 ≤ ((s.die d).held.filter fun v => v.reported.isSome).length)
    if w.reported.isSome || full || decide (s.now < w.since + (s.die d).wbound) then .next s
    else
      let t := s.reportHart w
      let rc := match t.bind fun k => s.hart? k with
        | some h => h.ctx
        | none => 0
      let s1 := (s.setDie d { s.die d with
        held := (s.die d).held.map fun v => if v.id = id then { v with reported := some s.fresh, rctx := rc } else v }).bump 1
      let val := match w.master with
        | .inbound _ => w.pa
        | _ => w.partVa
      .next (match t with
        | some k => s1.modHart k fun h => h.raise ipOos (w64 val)
        | none => (s1.setPkg { s1.pkg with hoos := w.pa }).setHevt 4)

/-- The name of a held write: the fields of R182 without REASON. R182 names PCIe requesters alone; a write of the fabric of
die d or of the service controller is named like requester d or 8 (DESIGN CHOICE, log 18). -/
def HeldWrite.handle (w : HeldWrite) : W64 :=
  match w.master with
  | .hart id => handleHart id w.ctx 0
  | .engine id q slot => handleEngine id w.ctx 0 q slot
  | .inbound rid => handleRid (rid % 65536) 0

/-- The reported entries of a die, oldest report first. -/
def Die.reports (x : Die) : List HeldWrite :=
  sortBy (fun a b => decide (a.reported.getD 0 ≤ b.reported.getD 0)) (x.held.filter fun w => w.reported.isSome)

/-- A load of WOOSREC by a hart (R360): the entry, and WOOSADDR latched for the hart. -/
def State.woosrec (s : State) (id d : Nat) : State × W64 :=
  match s.hart? id with
  | none => (s, 0)
  | some h =>
    match (s.die d).reports.find? fun w => w.rctx == h.ctx with
    | some w => (s.setHart id { h with woosaddr := w.pa }, w.handle ||| w64 (2 ^ 23))
    | none => (s, 0)

/-- WOOSREC_READ (R360): a load of WOOSREC into gX by the current hart. -/
def execWoosrecRead (d g : Nat) (s : State) : Out :=
  let r := s.woosrec s.cur d
  .next (r.1.modHart s.cur fun h => h.setG g r.2)

/-- The bits of WOOSACT that name an entry: KIND, CTX, RID, QUEUE, SLOT, HART (R365). -/
def woosNames : W64 := 0xFF00FFFFFF001FFF

/-- The entry that a store to WOOSACT names, for a context (R360). -/
def State.woosEntry (s : State) (ctx d : Nat) (w : W64) : Option HeldWrite :=
  (s.die d).reports.find? fun v =>
    v.handle == w &&& woosNames &&
    (ctx == 0 || (v.ctx == ctx && (match v.master with
      | .inbound _ => false
      | _ => true)))

/-- The entry of a held write is freed, and its WEIRBOUND starts again (R359, R360). -/
def State.unreport (s : State) (id : Nat) : State :=
  { s with dies := s.dies.map fun (x : Nat × Die) => (x.1, { x.2 with
      held := x.2.held.map fun v => if v.id = id then { v with reported := none, since := s.now } else v }) }

/-- REPLAY of an entry (R352, R360): the parts that are above 128 sectors are admitted out of turn; what stays held begins its
WEIRBOUND again. -/
def State.replayHeld (s : State) (d : Nat) (w : HeldWrite) : State := ((s.permit d w .replay).getD s).unreport w.id

/-- The entry's group begins again (R106, R240): what it had done of the group is repeated, but in device mode, where no
access is repeated. -/
def Entry.rewind (e : Entry) : Entry :=
  if e.part.seen then { e with held := false }
  else
    { e with held := false, part := { e.part with cnt := e.progress },
             res := e.res.filter fun r => decide (r.1 < e.progress) }

/-- ESTART of a transfer that stops with a progress (R325). -/
def Hart.estartOf (h : Hart) (progress : Nat) : Nat := progress / h.lanes * h.lanes

/-- The slot that a transfer of the stream queue holds. -/
def Hart.slotHeld (h : Hart) (e : Entry) : Slot :=
  (h.slots.toList.find? fun t => t.holder == some e.seq).getD Slot.reset

/-- A transfer stops with a fault (R325): it issues again from ESTART. -/
def Hart.streamFault (h : Hart) (e : Entry) (c : Cause) (val : W64) : Hart :=
  let est := if e.started then h.estartOf (h.slotHeld e).progress else 0
  (h.modEntry .stream e.slot fun x =>
    { x with stopped := true, held := false, progress := est, part := { x.part with cnt := 0, seen := true },
             res := [], inflight := [] }).engineFault
    { q := .stream, slot := e.slot, pc := e.pc, cause := c, val := val, estart := est, valid := true }

/-- Queue slot under which a bound stream is named once its SBIND has left the queue (log 17). -/
def boundSlot (q : Nat) : Nat := 16 + q

/-- The stretch under way of the binding in a slot is read again from its start (R325). -/
def Hart.dropUnder (h : Hart) (q : Nat) : Hart :=
  { h with binds := h.binds.map fun (x : Nat × Binding) => (x.1, if x.2.q = q then { x.2 with under := none } else x.2) }

/-- A bound stream stops with a fault (R325). -/
def Hart.boundFault (h : Hart) (b : Binding) (c : Cause) (val : W64) : Hart :=
  let t := vat h.slots b.q Slot.reset
  { h.dropUnder b.q with slots := h.slots.setIfInBounds b.q { t with stopped := true, restart := h.estartOf t.progress } }.engineFault
    { q := .stream, slot := boundSlot b.q, pc := b.pc, cause := c, val := val, estart := h.estartOf t.progress, valid := true }

/-- The binding that a queue slot names. -/
def Hart.boundAt (h : Hart) (slot : Nat) : Option Binding :=
  if slot < 16 then none else ((vat h.slots (slot - 16) Slot.reset).bind).bind fun k => find? h.binds k

def State.requester (s : State) (rid : Nat) : Requester :=
  (s.pkg.requesters.find? fun r => r.rid == rid).getD { rid := rid, reason := 0, requests := [] }

def State.setRequester (s : State) (r : Requester) : State :=
  let rest := s.pkg.requesters.filter fun q => q.rid != r.rid
  s.setPkg { s.pkg with requesters := if r.reason = 0 ∧ r.requests.isEmpty then rest else rest ++ [r] }

/-- A cancelled write of an inbound requester is discarded, with those of its bytes that were still to come; a cancelled
addition to the completion word of a posted transfer leaves that transfer complete (R361, R411). -/
def State.discardInbound (s : State) (rid : Nat) (w : HeldWrite) : State :=
  match w.finish with
  | .count _ (some id) => s.xferOver (rid - 65536) id
  | _ =>
    let q := s.requester rid
    s.setRequester { q with requests := q.requests.filter fun x => x.wid != some w.id }

/-- The first element of an entry that the cancelled device-class access of a group leaves to perform (R361). -/
def Entry.pastHeld (e : Entry) (f : Finish) : Nat :=
  match f with
  | .elem k => k + 1
  | .vamo _ _ _ _ _ k _ => k + 1
  | _ => e.part.cnt + 1

/-- A hart whose held write is cancelled: a FLUSH ends with it, its buffer intact (DESIGN CHOICE, log 24). -/
def Hart.cancelled (h : Hart) (f : Finish) : Hart :=
  match f with
  | .elem _ => { h with held := none, sbpend := h.sbpend.drop 1, flushAt := 0 }
  | _ => { h with held := none }

/-- What a dropped access leaves of the row: an element that was to be read, and waited for the recall of its frame, is a
free value (DESIGN CHOICE, log 25: the spec does not say what the dropped access gives). -/
def Entry.lostElem (e : Entry) (f : Finish) (seed : Nat) : List (Nat × Nat) :=
  match f with
  | .again => e.res ++ [(e.part.cnt, ofBytes ((List.range 8).map (Config.freeByte seed)))]
  | _ => e.res

/-- CANCEL of a held write: its outcome at the writer (R361). -/
def State.cancelHeld (s : State) (d : Nat) (w : HeldWrite) : State :=
  let s1 := s.dropHeld d w.id
  match w.master with
  | .hart id =>
    match s1.hart? id with
    | some h => s1.trapHart id (h.cancelled w.finish) .oos h.pc (w64 w.partVa)
    | none => s1
  | .engine id q slot =>
    (s1.bump 1).modHart id fun h =>
      match h.entry? q slot with
      | none =>
        match h.boundAt slot with
        | some b => h.boundFault b .oos (w64 w.partVa)
        | none => h
      | some e =>
        if q = .stream then h.streamFault e .oos (w64 w.partVa)
        else if w.device then
          h.modEntry q slot fun e =>
            { e with held := false, owed := some w.partVa, res := e.lostElem w.finish s.fresh, part := { e.part with cnt := e.pastHeld w.finish } }
        else
          Hart.engineFault (h.modEntry q slot fun e => { e.rewind with stopped := true })
            { q := q, slot := slot, pc := e.pc, cause := .oos, val := w64 w.partVa, estart := e.progress, valid := true }
  | .inbound rid =>
    let s2 := s1.discardInbound rid w
    (s2.setPkg { s2.pkg with hoos := w.pa }).setHevt 4

/-- A store to WOOSACT (R360). -/
def State.woosact (s : State) (ctx d : Nat) (w : W64) : State :=
  match s.woosEntry ctx d w with
  | none => s
  | some v =>
    match bits w.toNat 21 2 with
    | 1 => s.replayHeld d v
    | 2 => s.cancelHeld d v
    | _ => s

/-- The context of the hart that stores, or context 0. -/
def State.curCtx (s : State) : Nat :=
  match s.hart? s.cur with
  | some h => h.ctx
  | none => 0

/-- The held writes that satisfy `p` are discarded (R183, R360, R362). -/
def State.dropHeldOf (s : State) (p : HeldWrite → Bool) : State :=
  { s with dies := s.dies.map fun x => (x.1, { x.2 with held := x.2.held.filter fun v => !p v }) }

/-- A hart that is to take a trap withdraws its held idempotent write; `none` when the write is device-class (R362). -/
def State.withdraw (s : State) (id : Nat) : Option State :=
  match (s.hart? id).bind fun h => h.held with
  | none => some s
  | some w =>
    if s.heldOnDevice id then none
    else
      some ((s.dropHeldOf fun v => v.id == w).modHart id fun h => { h with held := none })

/-! ### Commands (R366) -/

/-- The pool of a die whose present span holds a frame, when it is enabled. -/
def State.cmdPool (s : State) (d fr : Nat) : Option Nat :=
  match regionOf (fr * 65536) with
  | .pool e p => if e = d ∧ s.exists? (fr * 65536) ∧ (s.pool d p).enabled then some p else none
  | _ => none

/-- The outcome of a command, to be shown when it ends. -/
def State.cmdEnds (s : State) (d st : Nat) : State := s.setDie d { s.die d with wcmdst := 1, wcmdNext := some st }

/-- DISCARD (R366): every byte becomes 0; a lossless frame drops to 0 sectors and frees its slot. -/
def State.cmdDiscard (s : State) (d p fr : Nat) : State :=
  let f := s.frameInfo fr
  let s1 := s.clearMem (fr * 65536) 65536
  let P := s1.pool d p
  if f.lossless then
    ((s1.setFrame fr { f with sectors := 0, slot := none }).setPool d p (P.setFree (P.free + f.sectors))).cmdEnds d 0
  else s1.cmdEnds d 0

/-- SETNONE (R366): refused when the rest of the 128 sectors does not fit the ordinary threshold. -/
def State.cmdSetnone (s : State) (d p fr : Nat) : State :=
  let f := s.frameInfo fr
  let P := s.pool d p
  let s1 := s.unslotted fr
  if !f.lossless then s.cmdEnds d 0
  else if 128 - f.sectors + P.wcrit ≤ P.free then
    ((s1.setFrame fr { f with lossless := false, sectors := 128, slot := none }).setPool d p (P.setFree (P.free - (128 - f.sectors)))).cmdEnds d 0
  else s.cmdEnds d 2

/-- SETLOSSLESS (R366). -/
def State.cmdSetlossless (s : State) (d p fr : Nat) : State :=
  let f := s.frameInfo fr
  if f.lossless then s.cmdEnds d 0
  else
    let n := sectorsOf (frameCells s.mem fr)
    let P := s.pool d p
    ((s.setFrame fr { f with lossless := true, sectors := n, slot := none }).setPool d p
      (P.setFree (P.free + (128 - n)))).cmdEnds d 0

/-- RECALL (R366). -/
def State.cmdRecall (s : State) (d p fr : Nat) : State :=
  let f := s.frameInfo fr
  if f.slot.isNone then s.cmdEnds d 0
  else
    let s1 := s.unslotted fr
    let n := sectorsOf (frameCells s1.mem fr)
    let P := s.pool d p
    if n + P.wcrit ≤ P.free then
      ((s1.setFrame fr { f with sectors := n, slot := none }).setPool d p (P.setFree (P.free - n))).cmdEnds d 0
    else s.cmdEnds d 2

/-- A write to WCMD (R366): ignored while a command runs. -/
def State.wcmd (s : State) (d op fr : Nat) : State :=
  if (s.die d).wcmdst = 1 then s
  else
    match s.cmdPool d fr with
    | none => s.cmdEnds d 3
    | some p =>
      match op with
      | 1 => s.cmdDiscard d p fr
      | 2 => s.cmdSetnone d p fr
      | 3 => s.cmdSetlossless d p fr
      | 4 => s.cmdRecall d p fr
      | _ => s.cmdEnds d 3

def execDiscard (d fr : Nat) (s : State) : Out := .next (s.wcmd d 1 fr)
def execSetnone (d fr : Nat) (s : State) : Out := .next (s.wcmd d 2 fr)
def execSetlossless (d fr : Nat) (s : State) : Out := .next (s.wcmd d 3 fr)
def execWeirRecall (d fr : Nat) (s : State) : Out := .next (s.wcmd d 4 fr)
/-- A WCMD with an unassigned OP (R366). -/
def execWcmdInvalid (d : Nat) (s : State) : Out := .next (s.wcmd d 0 0)
/-- A running command ends (R366). -/
def execWeirCommandDone (d : Nat) (s : State) : Out :=
  match (s.die d).wcmdNext with
  | some st => .next (s.setDie d { s.die d with wcmdst := st, wcmdNext := none })
  | none => .next s

/-- WPCFG.ENABLE set (R350). -/
def State.poolEnable (s : State) (d p : Nat) : State :=
  let P := s.pool d p
  if P.enabled then s
  else
    let s1 := s.setPool d p { P with enabled := true }
    let span := s1.spanOf d p
    let base := poolBase d p
    let s2 := s1.setPool d p
      ({ P with enabled := true }.setFree (poolDram p / 512 - span / 65536))
    let s3 := s2.setDie d { s2.die d with frames := (s2.die d).frames.filter fun f => regionOf (f.1 * 65536) != .pool d p }
    { s3 with mem := Memory.clear s3.mem base span }

def execPoolEnable (d p : Nat) (s : State) : Out := .next (s.poolEnable d p)

/-! ### The registers (R364, R365) -/

/-- WPSTAT.LEVEL. -/
def Pool.level (P : Pool) : Nat := if P.wlow ≤ P.free then 0 else if P.wcrit ≤ P.free then 1 else 2

/-- A load of a Weir register by a hart; WOOSREC has an effect (R360). -/
def State.weirRead (s : State) (id d off : Nat) : State × W64 :=
  let x := s.die d
  if off = 0x30 then s.woosrec id d
  else
    (s, w64 (
      if off = 0 then x.wbound
      else if off = 8 then x.whbase
      else if off = 0x10 then x.whslots
      else if off = 0x18 then x.usedSlots.length
      else if off = 0x28 then x.wcmdst
      else if off = 0x38 then (match s.hart? id with
        | some h => h.woosaddr
        | none => 0)
      else
        let p := (off - 0x100) / 0x40
        let P := s.pool d p
        if off < 0x100 ∨ 2 ≤ p then 0
        else
          match (off - 0x100) % 0x40 with
          | 0x00 => bitOf P.enabled * 64 + P.ratio
          | 0x08 => P.wlow
          | 0x10 => P.wcrit
          | 0x18 => P.free
          | 0x20 => P.step * 2 ^ 34 + P.level * 2 ^ 32 + (x.heldIn p).length
          | _ => 0))

/-- RATIO in its range (R349). -/
def ratioOk (p r : Nat) : Bool := decide (16 ≤ r) && decide (r ≤ if p = 0 then 21 else 32)

/-- A store to a Weir register from a context. -/
def State.weirWrite (s : State) (ctx d off : Nat) (v : W64) : State :=
  let x := s.die d
  let n := v.toNat
  if off = 0 then s.setDie d { x with wbound := max 1000 (bits n 0 32) }
  else if off = 8 then (if x.usedSlots.isEmpty then s.setDie d { x with whbase := bits n 16 35 * 65536 } else s)
  else if off = 0x10 then (if x.usedSlots.isEmpty then s.setDie d { x with whslots := bits n 0 32 } else s)
  else if off = 0x20 then s.wcmd d (bits n 60 4) (bits n 16 36)
  else if off = 0x40 then s.woosact ctx d v
  else
    let p := (off - 0x100) / 0x40
    let P := s.pool d p
    if off < 0x100 ∨ 2 ≤ p then s
    else
      match (off - 0x100) % 0x40 with
      | 0x00 =>
        if P.enabled then s
        else
          let s1 := if ratioOk p (bits n 0 6) then s.setPool d p { P with ratio := bits n 0 6 } else s
          if n.testBit 6 then s1.poolEnable d p else s1
      | 0x08 =>
        let l := bits n 0 32
        if 256 ≤ P.wcrit ∧ P.wcrit < l then s.setPool d p ({ P with wlow := l }.setFree P.free) else s
      | 0x10 =>
        let c := bits n 0 32
        if 256 ≤ c ∧ c < P.wlow then s.setPool d p { P with wcrit := c } else s
      | _ => s

/-! ### WEIR.HINT and WEIR.QUERY (R367, R368) -/

/-- The translation of a hint or query: it exists, has R, and U in user mode. -/
def State.hintFrame (s : State) (id : Nat) (h : Hart) (va : Nat) : Option Nat :=
  match s.walk h.ctx (dieOf id) false va with
  | some x => if pteR x.pte && (h.sup || pteU x.pte) then some (x.pa / 65536) else none
  | none => none

/-- The enabled pool whose present span holds a frame. -/
def State.enabledPool (s : State) (fr : Nat) : Option (Nat × Nat) :=
  match regionOf (fr * 65536) with
  | .pool d p => if s.exists? (fr * 65536) && (s.pool d p).enabled then some (d, p) else none
  | _ => none

/-- One frame of a hint: the state, and whether it counts. -/
def State.hint1 (s : State) (id : Nat) (h : Hart) (va : Nat) (c : Bool) : State × Bool :=
  match s.hintFrame id h va with
  | none => (s, false)
  | some fr =>
    if (s.enabledPool fr).isSome && s.lossless fr then (s.setFrame fr { s.frameInfo fr with cold := c }, true)
    else (s, false)

def execWeirHint (d a b : Nat) (s : State) : Out :=
  onHart s fun id h =>
    let n := min (bits (h.rg b).toNat 0 32) 65536
    let c := (h.rg b).getLsbD 32
    let base := (h.rg a).toNat / 65536 * 65536
    if (List.range n).any fun i => s.rootAway h.ctx (dieOf id) ((base + i * 65536) % 2 ^ 64) then .next s
    else
    let r := (List.range n).foldl (fun (r : State × Nat) i =>
      let t := r.1.hint1 id h ((base + i * 65536) % 2 ^ 64) c
      (t.1, r.2 + bitOf t.2)) (s, 0)
    finish r.1 id (h.setG d (w64 r.2))

/-- What WEIR.QUERY reports. -/
def State.weirQuery (s : State) (id : Nat) (h : Hart) (va : Nat) : W64 :=
  match (s.hintFrame id h va).bind fun fr => (s.enabledPool fr).map fun p => (fr, p) with
  | none => 0x8000000000000000
  | some (fr, d, p) =>
    let f := s.frameInfo fr
    w64 (d * 2 ^ 32 + (s.pool d p).level * 2 ^ 16 + bitOf f.maxeff * 2 ^ 12 + bitOf f.slot.isSome * 2 ^ 11 +
      bitOf f.cold * 2 ^ 10 + p * 2 ^ 9 + bitOf f.lossless * 2 ^ 8 + f.sectors)

def execWeirQuery (d a : Nat) (s : State) : Out :=
  onHart s fun id h =>
    if s.rootAway h.ctx (dieOf id) (h.rg a).toNat then .next s else finish s id (h.setG d (s.weirQuery id h (h.rg a).toNat))

end Sys2Proof.Machine
end

