-- ==== Sys2Proof/Machine/Gov.lean ====
section
/-! DEFINITION. The deadline governor and power control (R369 to R392): steps, the governor's evaluation, permits,
energy, pod budgets, thermal levels and their registers. -/

namespace Sys2Proof.Machine

/-- The domain reference counter of a station (R372). The manual gives no relation between the oscillators of two dies; here
they advance in lockstep (DESIGN CHOICE, log 46). -/
def State.drc (s : State) (k : Nat) : Nat := (s.now - (s.stn k).drcBase) % 2 ^ 64

/-- The highest point allowed now (R373). -/
def Station.pmax (t : Station) : Nat := min 15 (min t.thermalCap t.power)

/-- The frequency of a point in units of 0.1 GHz (R370). -/
def freq (p : Nat) : Nat := 6 + p

/-! ### Steps (R374 to R380) -/

/-- STEPID (R374). -/
def stepId (open_ risk late : Bool) (seq tag : Nat) : W64 :=
  w64 (bitOf open_ * 2 ^ 63 + bitOf risk * 2 ^ 62 + bitOf late * 2 ^ 61 + seq % 65536 * 2 ^ 32 + tag % 2 ^ 32)

/-- DLSLACK with no step open (R374). -/
def noSlack : W64 := 0x7FFFFFFFFFFFFFFF

/-- A signed number of ns, saturated to 64 bits (R381). -/
def slack64 (z : Int) : W64 := BitVec.ofInt 64 (max (-(2 ^ 63)) (min (2 ^ 63 - 1) z))

/-- The entry of a context and tag in the learning table (R377). -/
def Station.learned (t : Station) (ctx tag : Nat) : Option Learn := t.learn.find? fun l => l.ctx == ctx && l.tag == tag

def execStepBegin (d a b : Nat) (s : State) : Out :=
  onHart s fun id h =>
    let x := h.rg a
    let y := h.rg b
    if h.stepid.getLsbD 63 then finish s id (h.setG d 0x8000000000000001)
    else if bits x.toNat 40 24 ≠ 0 then finish s id (h.setG d 0x8000000000000002)
    else if bits y.toNat 48 16 ≠ 0 then finish s id (h.setG d 0x8000000000000003)
    else
      let tag := bits (h.rg d).toNat 0 32
      let t := s.stn (stnOf id)
      let e := t.learned h.ctx tag
      let r : StepRec :=
        { d := ((s.drc (stnOf id) + x.toNat : Nat) : Int),
          w := if y = 0 then e.map Learn.work else some y.toNat,
          k := (match e with
            | some l => l.rate
            | none => 256 * h.gcount),
          done := 0, c := 0 }
      let sid := stepId true false false (bits h.stepid.toNat 32 16 + 1) tag
      finish s id ({ h with step := some r, stepid := sid,
                            dlslack := BitVec.ofInt 64 ((x.toNat : Int) - (t.guardNs : Int)) }.setG d sid)

/-- The table with an entry written: the newest first, 64 entries (R378). -/
def Station.learnWrite (t : Station) (l : Learn) : Station :=
  { t with learn := (l :: t.learn.filter fun e => !(e.ctx == l.ctx && e.tag == l.tag)).take 64 }

/-- STEP.END (R378): it stalls until every older engine instruction has retired. -/
def execStepEnd (d : Nat) (s : State) : Out :=
  onHart s fun id h =>
    if !h.idleQueues then .next s
    else
      match h.step with
      | none => finish s id (h.setG d 0x8000000000000000)
      | some r =>
        let z : Int := r.d - (s.drc (stnOf id) : Int)
        let tag := bits h.stepid.toNat 0 32
        let l : Learn := { ctx := h.ctx, tag := tag, work := r.done,
                           rate := max 1 (min 0xFFFF (256 * r.done / max r.c 1)) }
        let sid := stepId false (h.stepid.getLsbD 62) (decide (z < 0)) (bits h.stepid.toNat 32 16) tag
        finish (s.setStn (stnOf id) ((s.stn (stnOf id)).learnWrite l)) id
          ({ h with step := none, stepid := sid, dlslack := noSlack }.setG d (BitVec.ofInt 64 z))

def execStepQuery (d : Nat) (s : State) : Out :=
  onHart s fun id h =>
    finish s id (h.setG d (match h.step with
      | some r => BitVec.ofInt 64 (r.d - (s.drc (stnOf id) : Int))
      | none => 0x8000000000000000))

/-- The open step leaves its hart (R175, R380). -/
def Hart.closeStep (h : Hart) : Hart :=
  { h with step := none, stepid := h.stepid &&& 0x7FFFFFFFFFFFFFFF, dlslack := noSlack }

/-! ### The governor (R381, R382) -/

/-- What one step asks of its domain: `none` for TOP, or a rate in GHz; its slack; whether it is at risk. -/
def stepNeed (t : Station) (drc : Nat) (r : StepRec) : Option Rat × Int × Bool :=
  let T : Int := r.d - (drc : Int) - (t.guardNs : Int)
  let f := freq t.pmax
  match r.w with
  | none => (none, T, decide (T ≤ 0))
  | some w =>
    if w ≤ r.done then (none, T, decide (T ≤ 0))
    else
      let R := w - r.done
      let proj : Rat := (2560 * R : Nat) / (r.k * f : Nat)
      (if 0 < T then some ((256 * R : Nat) / ((r.k : Int) * T : Int)) else none, ((T : Rat) - proj).floor,
       decide (T ≤ 0) || decide ((T : Rat) < proj))

/-- A hart after the evaluation of its step; a hart whose frame is saved has none to evaluate. -/
def Hart.evaluated (h : Hart) (t : Station) (drc : Nat) : Hart :=
  match if h.saved then none else h.step with
  | none => h
  | some r =>
    let n := stepNeed t drc r
    let h := { h with dlslack := slack64 n.2.1 }
    if n.2.2 && !h.stepid.getLsbD 62 then
      let sid := h.stepid ||| 0x4000000000000000
      { h with stepid := sid }.raise ipDlrisk sid
    else h

/-- The lowest point up to `top` that meets a rate, or `top` (R381). -/
def pointFor (top : Nat) (need : Rat) : Nat :=
  (firstFrom (fun p => decide (need ≤ (freq p : Nat) / (10 : Rat))) 0 (top + 1)).getD top

/-- TARGET (R381), from the needs of the open steps. -/
def targetOf (t : Station) (needs : List (Option Rat)) : Nat :=
  if needs.isEmpty then min t.idlept t.pmax
  else if needs.any Option.isNone then t.pmax
  else pointFor t.pmax ((needs.filterMap id).foldl max 0 * (256 + t.margin : Nat) / (256 : Rat))

/-- Granted and parked groups that the harts of a context hold in a station (R386). -/
def State.groupsIn (s : State) (k ctx : Nat) : Nat :=
  (s.harts.filter fun p => stnOf p.1 == k && p.2.ctx == ctx).foldl
    (fun n p => n + (p.2.groups.filter fun g => g.st != .spilled).length) 0

/-- A context's counter takes n/256 µJ: whole µJ count, and the fraction carries over (R387). -/
def Ctx.charge (c : Ctx) (n : Nat) : Ctx :=
  { c with energy := (c.energy + (c.frac + n) / 256) % 2 ^ 64, frac := (c.frac + n) % 256 }

/-- EUNATTR takes n/256 µJ in the same way. -/
def Station.charge (t : Station) (n : Nat) : Station :=
  { t with eunattr := (t.eunattr + (t.efrac + n) / 256) % 2 ^ 64, efrac := (t.efrac + n) % 256 }

/-- The static energy of E µJ of a station over an interval (R386): to the contexts by their groups of the station's 256, and
the rest to EUNATTR. -/
def State.staticEnergy (s : State) (k E : Nat) : State :=
  let rest := 256 * E - (s.ctxs.foldl (fun n c => n + E * s.groupsIn k c.1) 0)
  { s with ctxs := s.ctxs.map fun (c : Nat × Ctx) => (c.1, c.2.charge (E * s.groupsIn k c.1)) }.setStn k
    ((s.stn k).charge rest)

/-- Station k's governor evaluates every open step of its harts whose frames are not saved, and TARGET (R381). The static
energy of the interval is charged (R386), and updates of its firmware and tables take effect (R417). -/
def State.evaluate (s : State) (k : Nat) : State :=
  let t := s.stn k
  let drc := s.drc k
  let steps := s.harts.filterMap fun p => if stnOf p.1 == k && !p.2.saved then p.2.step else none
  let harts := s.harts.map fun p => if stnOf p.1 == k then (p.1, p.2.evaluated t drc) else p
  (({ s with harts := harts }.setStn k
    { t with target := targetOf t (steps.map fun r => (stepNeed t drc r).1),
             fw := s.pkg.updates.filter fun u => u.1 == 2 || u.1 == 3 }).staticEnergy k
      (Config.energy s.fresh (128 + k))).bump 1

/-- GOVERNOR_EVALUATION (R381). -/
def execGovernorEvaluation (d n : Nat) (s : State) : Out := .next (s.evaluate (64 * d + n))

/-- OPERATING_POINT_STEP (R371): one adjacent step toward TARGET. -/
def execOperatingPointStep (d n : Nat) (s : State) : Out :=
  let t := s.stn (64 * d + n)
  .next (s.setStn (64 * d + n)
    { t with cur := if t.cur < t.target then t.cur + 1 else if t.target < t.cur then t.cur - 1 else t.cur })

/-- Writing GLEARN.CLEAR (R373). -/
def execGlearnClear (d n : Nat) (s : State) : Out :=
  .next (s.setStn (64 * d + n) { s.stn (64 * d + n) with learn := [] })

/-! ### Permits and gating (R383 to R385) -/

/-- DROOP_WITHDRAW (R384): the lowest permit that is set is cleared. -/
def execDroopWithdraw (d n : Nat) (s : State) : Out :=
  let t := s.stn (64 * d + n)
  .next (match firstFrom (fun b => t.chperm.testBit b) 0 8 with
    | some b => s.setStn (64 * d + n) { t with chperm := t.chperm - 2 ^ b }
    | none => s)

/-- DROOP_RESTORE (R384): the highest permit that is clear is set. -/
def execDroopRestore (d n : Nat) (s : State) : Out :=
  let t := s.stn (64 * d + n)
  .next (match firstFrom (fun b => !t.chperm.testBit (7 - b)) 0 8 with
    | some b => s.setStn (64 * d + n) { t with chperm := t.chperm + 2 ^ (7 - b) }
    | none => s)

/-- STATION_WAKE (R383): the next station of the die leaves gating. -/
def execStationWake (d : Nat) (s : State) : Out :=
  .next (match firstFrom (fun n => !(s.stn (64 * d + n)).awake) 0 36 with
    | some n => s.setStn (64 * d + n) { s.stn (64 * d + n) with awake := true }
    | none => s)

/-- LANE_GROUP_GATE (R385): the group keeps its contents; clean lane-cache lines of its owner are dropped. -/
def execLaneGroupGate (core grp : Nat) (s : State) : Out :=
  let k := core / 4
  let num := 64 * (core % 4) + grp
  let t := s.stn k
  let harts := s.harts.map fun p =>
    if stnOf p.1 == k then
      (p.1, { p.2 with lcache := p.2.lcache.filter fun l =>
        !p.2.groups.any fun g => g.st != .spilled && g.idx == l.idx && 64 * g.core + g.grp == num })
    else p
  .next ({ s with harts := harts }.setStn k { t with gated := num :: t.gated.filter fun g => g != num })

/-- The groups of a hart leave gating (R383). -/
def State.wakeGroups (s : State) (id : Nat) (h : Hart) : State :=
  let t := s.stn (stnOf id)
  if t.gated.isEmpty then s
  else
    s.setStn (stnOf id)
      { t with gated := t.gated.filter fun n => !h.groups.any fun g => 64 * g.core + g.grp == n }

/-! ### Pod budgets (R388 to R390, R413) -/

/-- The package's counter: that of station 0 of die 0 (log 4). -/
def State.pdrc (s : State) : Nat := s.drc 0

def Pkg.lent (p : Pkg) : Nat := (p.leases.filter fun l => l.lent).foldl (fun a l => a + l.watts) 0
def Pkg.borrowed (p : Pkg) : Nat := (p.leases.filter fun l => !l.lent).foldl (fun a l => a + l.watts) 0
/-- PCAP (R388). -/
def Pkg.pcap (p : Pkg) : Nat := p.pbase + p.borrowed - p.lent

/-- State of Drabor port p (R410). -/
def State.port (s : State) (p : Nat) : Port := vat (s.die (p / 4)).ports (p % 4) { state := 0, peer := 0, retry := 0 }

/-- The stations of the package. -/
def allStations : List Nat := (List.range 8).flatMap fun d => (List.range 36).map fun n => 64 * d + n

/-- The demand of the package (R389), by estimate number `tick`: the draw of its stations at their TARGET points. -/
def State.demand (s : State) (tick : Nat) : Nat :=
  allStations.foldl (fun n k => n + Config.draw tick k (s.stn k).target) 0

/-- The ports of PPEERS that are up, as a mask (R388, R413). -/
def State.peers (s : State) : Nat :=
  (List.range 32).foldl (fun m k => if s.pkg.ppeers.testBit k && (s.port k).state == 2 then m + 2 ^ k else m) 0

/-- A demand above PCAP sends a REQUEST for the shortfall on each port of PPEERS that is up (R389, R413); with no such port the
package is alone. -/
def State.request (s : State) (demand : Nat) : State :=
  let p := s.pkg
  if demand ≤ p.pcap ∨ s.peers = 0 then s
  else
    (s.setPkg { p with rseq := (p.rseq + 1) % 65536, asked := ((p.rseq, s.pdrc) :: p.asked).take 65536 }).send
      (.budgetRequest s.peers p.fabid (demand - p.pcap) p.rseq)

/-- BUDGET_SHORTFALL (R389), by the estimate of number `tick`. -/
def execBudgetShortfall (tick : Nat) (s : State) : Out := .next (s.request (s.demand tick))

/-- A received REQUEST (R389, R413): answered at most once per port in 10,000 ns. A port that PPEERS does not name carries no
budget message (R388). -/
def execRequest (port watts rseq : Nat) (s : State) : Out :=
  let p := s.pkg
  let lately := match find? p.answered port with
    | some t => decide (s.pdrc < t + 10000)
    | none => false
  let most := min (p.pcap - p.pdraw - p.preserve) watts
  if lately || most == 0 || !p.ppeers.testBit port then .next s
  else
    let a := 1 + Config.lend s.fresh % most
    .next (((s.setPkg { p with
        leases := p.leases ++ [{ lent := true, watts := a, until_ := s.pdrc + p.please, winding := false }],
        answered := put p.answered port s.pdrc }).send (.budgetGrant port p.fabid a p.please rseq)).bump 1)

/-- A received GRANT (R389): ignored when late, when it names no REQUEST, or on a port that PPEERS does not name (R388). -/
def execGrant (port watts ns rseq : Nat) (s : State) : Out :=
  match s.pkg.asked.find? fun q => q.1 == rseq with
  | none => .next s
  | some q =>
    let tend := q.2 + ceilDiv (ns * 127) 128
    if tend ≤ s.pdrc + 20000 || !s.pkg.ppeers.testBit port then .next s
    else
      .next (s.setPkg { s.pkg with
        leases := s.pkg.leases ++ [{ lent := false, watts := watts, until_ := tend, winding := false }] })

/-- LEASE_RECLAIM (R389): the lender's leases that have run out. -/
def execLeaseReclaim (s : State) : Out :=
  .next (s.setPkg { s.pkg with leases := s.pkg.leases.filter fun l => !l.lent || decide (s.pdrc < l.until_) })

/-- LEASE_END (R389): the borrower's leases that have run out. -/
def execLeaseEnd (s : State) : Out :=
  .next (s.setPkg { s.pkg with leases := s.pkg.leases.filter fun l => l.lent || decide (s.pdrc < l.until_) })

/-- The smallest DLSLACK of a station's open steps. -/
def State.minSlack (s : State) (k : Nat) : Option Int :=
  (s.harts.filterMap fun p => if stnOf p.1 == k && p.2.step.isSome then some p.2.dlslack.toInt else none).foldl
    (fun m z => match m with
      | none => some z
      | some y => some (min y z)) none

/-- The stations in the order in which points are lowered (R390): those with no open step, then the others in descending
order of their smallest DLSLACK. -/
def State.capOrder (s : State) : List Nat :=
  let slacks := allStations.map fun k => (k, s.minSlack k)
  let busy := slacks.filterMap fun x => x.2.map fun z => (x.1, z)
  ((slacks.filter fun x => x.2.isNone).map Prod.fst) ++ (sortBy (fun a b => decide (b.2 ≤ a.2)) busy).map Prod.fst

/-- A point lowered until the total draw is within a limit: the point and the total. `draw` is the draw at a point. -/
def lowerPoint (draw : Nat → Nat) (limit : Nat) : (p total : Nat) → Nat × Nat
  | 0, total => (0, total)
  | p + 1, total => if total ≤ limit then (p + 1, total) else lowerPoint draw limit p (total + draw p - draw (p + 1))

/-- A point raised, by at most `fuel` points, while the total draw stays within a limit. -/
def raisePoint (draw : Nat → Nat) (limit : Nat) : (fuel p total : Nat) → Nat × Nat
  | 0, p, total => (p, total)
  | k + 1, p, total =>
    if total + draw (p + 1) - draw p ≤ limit then raisePoint draw limit k (p + 1) (total + draw (p + 1) - draw p)
    else (p, total)

/-- The caps of stations taken in turn, and the total draw. -/
def State.capsBy (s : State) (f : Nat → Nat → Nat → Nat × Nat) (total : Nat) (order : List Nat) : List (Nat × Nat) × Nat :=
  order.foldl (fun (r : List (Nat × Nat) × Nat) k =>
    let x := f k (s.stn k).power r.2
    (r.1 ++ [(k, x.1)], x.2)) ([], total)

/-- The estimated draw of the package under the caps in force (R390). -/
def State.drawNow (s : State) (tick : Nat) : Nat :=
  allStations.foldl (fun n k => n + Config.draw tick k (s.stn k).power) 0

/-- The caps that keep the estimated draw within a limit, from the caps in force, and that draw (R390): points are lowered in
their order, or raised in the reverse order while the draw allows. -/
def State.capsOf (s : State) (tick limit : Nat) (raises : Bool) : List (Nat × Nat) × Nat :=
  let total := s.drawNow tick
  if limit < total then s.capsBy (fun k p t => lowerPoint (Config.draw tick k) limit p t) total s.capOrder
  else if raises then
    s.capsBy (fun k p t => raisePoint (Config.draw tick k) limit (15 - p) p t) total s.capOrder.reverse
  else ([], total)

/-- The stations with new caps. -/
def State.withCaps (s : State) (l : List (Nat × Nat)) : State :=
  l.foldl (fun s x => if (s.stn x.1).power = x.2 then s else s.setStn x.1 { s.stn x.1 with power := x.2 }) s

/-- The power controller's update (R388, R390): the stations' caps, and PDRAW. -/
def State.recap (s : State) : State :=
  let r := s.capsOf s.fresh s.pkg.pcap true
  let s1 := s.withCaps r.1
  (s1.setPkg { s1.pkg with pdraw := r.2 % 2 ^ 32 }).bump 1

/-- POWER_CAP_UPDATE (R388, R390). -/
def execPowerCapUpdate (s : State) : Out := .next s.recap

/-- LEASE_WIND_DOWN (R389): the borrower begins lowering its points 20,000 ns before tend, to the cap without the lease. -/
def execLeaseWindDown (s : State) : Out :=
  let due : Lease → Bool := fun l => !l.lent && !l.winding && decide (l.until_ ≤ s.pdrc + 20000)
  if !s.pkg.leases.any due then .next s
  else
    let less := (s.pkg.leases.filter due).foldl (fun n l => n + l.watts) 0
    let s1 := s.withCaps (s.capsOf s.fresh (s.pkg.pcap - less) false).1
    .next ((s1.setPkg { s1.pkg with leases := s1.pkg.leases.map fun l => if due l then { l with winding := true } else l }).bump 1)

/-! ### Thermal levels (R391, R392) -/

/-- THROT is 1 while a sensor reads at or above WARN (R392); a station that enters the warning is told (R405). -/
def State.warmed (s : State) (k : Nat) : State :=
  let t := s.stn k
  let hot := decide ((s.die (k / 64)).warn ≤ t.temp)
  if t.throt = hot then s
  else
    let s1 := s.setStn k { t with throt := hot }
    if hot then s1.setHevt 9 else s1

/-- A sensor of a station reads a temperature. -/
def State.sensed (s : State) (k temp : Nat) : State := (s.setStn k { s.stn k with temp := temp }).warmed k

/-- THERMAL_WARNING (R392): the sensors' hottest reading, which sets THROT at or above WARN. At or above CRIT the save comes
next (`State.hotMove`, R393). -/
def execThermalWarning (d n temp : Nat) (s : State) : Out := .next (s.sensed (64 * d + n) (temp % 256))

/-- THERMAL_CAP_DOWN (R392). -/
def execThermalCapDown (d n : Nat) (s : State) : Out :=
  let t := s.stn (64 * d + n)
  .next (if t.throt then s.setStn (64 * d + n) { t with thermalCap := t.thermalCap - 1 } else s)

/-- THERMAL_WARNING_CLEAR (R392): every sensor reads below WARN, which no sensor can do while WARN is 0. -/
def execThermalWarningClear (d n : Nat) (s : State) : Out :=
  let w := (s.die d).warn
  .next (if w = 0 then s else (s.sensed (64 * d + n) (Config.sensor s.fresh % w)).bump 1)

/-- THERMAL_CAP_UP (R392): every sensor has read below WARN - 5 for 1,000,000 ns. -/
def execThermalCapUp (d n : Nat) (s : State) : Out :=
  let t := s.stn (64 * d + n)
  let w := (s.die d).warn
  .next (if t.throt || decide (w ≤ 5) then s
    else (s.setStn (64 * d + n) { t with thermalCap := min 15 (t.thermalCap + 1),
                                         temp := Config.sensor s.fresh % (w - 5) }).bump 1)

/-! ### Registers (R373, R388, R391) -/

/-- Open steps of a station. -/
def State.openSteps (s : State) (k : Nat) : Nat := (s.harts.filter fun p => stnOf p.1 == k && p.2.step.isSome).length

/-- A load of a governor register of station k. -/
def State.govRead (s : State) (k off : Nat) : W64 :=
  let t := s.stn k
  w64 (match off with
    | 0x000 => s.drc k
    | 0x008 => t.margin * 2 ^ 40 + t.guardNs * 2 ^ 24 + t.interval * 2 ^ 8 + t.idlept * 16
    | 0x010 => s.openSteps k * 2 ^ 24 + bitOf t.throt * 2 ^ 16 + t.pmax * 256 + t.target * 16 + t.cur
    | 0x020 => t.eunattr
    | 0x028 => t.temp
    | _ => 0)

/-- A store to a governor register of station k. -/
def State.govWrite (s : State) (k off : Nat) (v : W64) : State :=
  let t := s.stn k
  let n := v.toNat
  match off with
  | 0x008 =>
    s.setStn k { t with margin := bits n 40 8, guardNs := bits n 24 16, interval := max 250 (bits n 8 16), idlept := bits n 4 4 }
  | 0x018 => if n.testBit 0 then s.setStn k { t with learn := [] } else s
  | _ => s

/-- A load of a register of the package power controller. -/
def State.powerRead (s : State) (off : Nat) : W64 :=
  let p := s.pkg
  w64 (match off with
    | 0x000 => p.pbase
    | 0x008 => p.pcap % 2 ^ 32
    | 0x010 => p.please
    | 0x018 => p.ppeers
    | 0x020 => p.preserve
    | 0x028 => p.lent % 2 ^ 32 * 2 ^ 32 + p.borrowed % 2 ^ 32
    | 0x030 => p.pdraw
    | _ => 0)

/-- A store to a register of the package power controller. -/
def State.powerWrite (s : State) (off : Nat) (v : W64) : State :=
  let n := bits v.toNat 0 32
  match off with
  | 0x000 => s.setPkg { s.pkg with pbase := n }
  | 0x010 => s.setPkg { s.pkg with please := max 1000000 n }
  | 0x018 => s.setPkg { s.pkg with ppeers := n }
  | 0x020 => s.setPkg { s.pkg with preserve := n }
  | _ => s

/-! ### Time (R372, R375, R381, R386, R389, R390; log 4) -/

/-- Cycles of a domain clock from instant `a` to instant `b`, at a point (R370, R375). -/
def cyclesBetween (p a b : Nat) : Nat := b * freq p / 10 - a * freq p / 10

/-- The cycles of an open step, but while the hart's frame is saved (R375). -/
def Hart.tickStep (h : Hart) (n : Nat) : Hart :=
  if h.saved then h else { h with step := h.step.map fun r => { r with c := r.c + n } }

/-- One ns passes: the cycles of the open steps (R375); the governors whose INTERVAL ends evaluate (R381); each 10,000 ns the
power controller sets the caps (R390) and asks for what the demand lacks (R389). -/
def State.nsPass (s : State) : State :=
  let t := s.now + 1
  let clocked : Nat × Hart → Nat × Hart := fun p => (p.1, p.2.tickStep (cyclesBetween (s.stn (stnOf p.1)).cur s.now t))
  let s1 := allStations.foldl (fun s k => if s.drc k % max 1 (s.stn k).interval = 0 then s.evaluate k else s)
    { s with now := t, harts := s.harts.map clocked }
  if t % 10000 = 0 then (s1.recap.request (s1.recap.demand s1.recap.fresh)).bump 1 else s1

/-- n ns pass, one by one. -/
def State.nsPasses (s : State) : (n : Nat) → State
  | 0 => s
  | n + 1 => (s.nsPasses n).nsPass

/-- n ns pass (R372): they change harts only where a step is open. -/
def State.elapse (s : State) (n : Nat) : State :=
  let t := s.nsPasses n
  { s with now := s.now + n, stations := t.stations, ctxs := t.ctxs, pkg := t.pkg, out := t.out, fresh := t.fresh,
           harts := if s.harts.any fun p => p.2.step.isSome then t.harts else s.harts }

end Sys2Proof.Machine
end

