-- ==== Sys2Proof/Machine/Banks.lean ====
section
/-! DEFINITION. The contents of lane groups as bytes: register-file banks and mask arrays (R75, R86, R103, R104, R184,
R185), and bulk reads and writes of memory by virtual address for the spill area and for frames. -/

namespace Sys2Proof.Machine

/-! ### Bulk memory -/

/-- Bytes lo to lo + n - 1 of a list of cells whose addresses ascend. -/
def bytesFrom : (n lo : Nat) → List Host.Cell → List Byte
  | 0, _, _ => []
  | n + 1, lo, [] => (0 : Byte) :: bytesFrom n (lo + 1) []
  | n + 1, lo, (a, b) :: t => if a = lo then b :: bytesFrom n (lo + 1) t else (0 : Byte) :: bytesFrom n (lo + 1) ((a, b) :: t)

/-- The nonzero bytes of [pa, pa+n) as a master of station k reads them (R135). -/
def State.viewCells (s : State) (k pa n : Nat) : List Host.Cell :=
  let t := s.stn k
  let inside : Host.Cell → Bool := fun c => decide (pa ≤ c.1) && decide (c.1 < pa + n)
  let lines := t.clean.filter fun l => decide (pa / 64 ≤ l.1) && decide (l.1 * 64 < pa + n)
  let clean := (lines.flatMap fun l => (span (l.1 * 64) 64).zip l.2).filter inside
  let home := (Memory.range s.mem pa n).filter fun c => (find? lines (c.1 / 64)).isNone
  ((t.dirty.filter inside).foldl (fun m c => put m c.1 c.2) (clean.foldl (fun m c => put m c.1 c.2) home))

/-- n bytes at a virtual address as hart `id` reads them; a page without a translation reads as 0. -/
def State.readVa (s : State) (id : Nat) (c : Who1) (va n : Nat) : List Byte :=
  ((s.pieces c va n).map fun p => bytesFrom p.2.1 p.2.2.pa (s.viewCells (stnOf id) p.2.2.pa p.2.1)).flatten

/-- Bytes at a virtual address, through the translations of `s0`, at home; the copies of the hart's station go. -/
def State.fillVa (s0 s : State) (id : Nat) (c : Who1) (va : Nat) (bs : List Byte) : State :=
  (s0.pieces c va bs.length).foldl (fun s p =>
    let part := (bs.drop (p.1 - va)).take p.2.1
    let t := s.stn (stnOf id)
    let s1 := (s.fillMem p.2.2.pa part).warmFrame (p.2.2.pa / 65536)
    s1.setStn (stnOf id)
      { t with
        dirty := t.dirty.filter fun c => decide (c.1 < p.2.2.pa) || decide (p.2.2.pa + p.2.1 ≤ c.1),
        clean := t.clean.filter fun (l : Nat × List Byte) =>
          decide (l.1 < p.2.2.pa / 64) || decide ((p.2.2.pa + p.2.1 + 63) / 64 ≤ l.1) }) s

/-! ### Banks and masks -/

/-- A list in pieces of n, `count` of them. -/
def chop {α : Type} (n : Nat) : (count : Nat) → List α → List (List α)
  | 0, _ => []
  | k + 1, l => l.take n :: chop n k (l.drop n)

/-- The bits that differ from the number x take its values; the others stay as they are. -/
def BitStore.patch (b : BitStore) (pos n x : Nat) : BitStore :=
  let d := b.get pos n ^^^ x
  if d = 0 then b
  else
    let v := bits b.val pos n
    { b with known := setBits b.known pos n (bits b.known pos n ||| d), val := setBits b.val pos n (v - (v &&& d) + (x &&& d)) }

/-- Bit-rows of one register (R184). -/
def Hart.rows (h : Hart) : Nat := banksOf h.vcfg * 128 / nregOf h.vcfg

/-- The register file of a lane, bit-row 0 first (R184). -/
def Hart.laneWord (h : Hart) (lane : Nat) : Nat :=
  (List.range (nregOf h.vcfg)).foldr (fun k a => (vreg h.v k).st.get (lane * h.rows) h.rows + a * 2 ^ h.rows) 0

/-- The register-file banks of the group of grant index j: 128 bits of each of its 256 lanes in each bank (R75, R86), lane
after lane, bit-row 0 of the bank first (log 7). -/
def Hart.bankBytes (h : Hart) (j : Nat) : List Byte :=
  let ws := (List.range 256).map fun l => h.laneWord (256 * j + l)
  (List.range (banksOf h.vcfg)).flatMap fun b => ws.flatMap fun w => toBytes 16 (w / 2 ^ (128 * b))

/-- A lane's register file becomes x. -/
def Hart.withLane (h : Hart) (lane x : Nat) : Hart :=
  if h.laneWord lane = x then h
  else
    { h with v := (List.range (nregOf h.vcfg)).foldl (fun v k =>
        v.setIfInBounds k { vreg v k with st := (vreg v k).st.patch (lane * h.rows) h.rows (bits x (k * h.rows) h.rows) }) h.v }

/-- The banks of the group of grant index j become `bs`. -/
def Hart.withBanks (h : Hart) (j : Nat) (bs : List Byte) : Hart :=
  let banks := (chop 4096 (banksOf h.vcfg) bs).map fun b => (chop 16 256 b).map ofBytes
  let ws := banks.zipIdx.foldl (fun (ws : List Nat) b => List.zipWith (fun a x => a + x * 2 ^ (128 * b.2)) ws b.1)
    (List.replicate 256 0)
  ws.zipIdx.foldl (fun h w => h.withLane (256 * j + w.2) w.1) h

/-- The opaque mask under which this model lays out a mask array (R86, R104; log 7). -/
def maskVeil (bs : List Byte) : List Byte :=
  List.zipWith (fun (b : Byte) o => b ^^^ Config.freeByte 0 o) bs (span 0x10000 bs.length)

/-- The mask array of the group of grant index j: each mask, each slot, its 256 lanes (R185). -/
def Hart.maskBytes (h : Hart) (j : Nat) : List Byte :=
  maskVeil ((List.range 8).flatMap fun k => (List.range 64).flatMap fun s =>
    toBytes 32 ((mreg h k).get (s * h.lanes + 256 * j) 256))

/-- The mask array of the group of grant index j becomes `bs`. -/
def Hart.withMasks (h : Hart) (j : Nat) (bs : List Byte) : Hart :=
  (chop 2048 8 (maskVeil bs)).zipIdx.foldl (fun h k =>
    { h with m := h.m.setIfInBounds k.2 ((chop 32 64 k.1).zipIdx.foldl (fun b s =>
        b.patch (s.2 * h.lanes + 256 * j) 256 (ofBytes s.1)) (mreg h k.2)) }) h

/-- The contents of the group of grant index j as a grant-index region at a virtual address holds them (R86, R104). -/
def State.readGroup (s : State) (id : Nat) (c : Who1) (h : Hart) (j va : Nat) : Hart :=
  (h.withBanks j (s.readVa id c va (banksOf h.vcfg * 0x1000))).withMasks j (s.readVa id c (va + 0x10000) 0x4000)

end Sys2Proof.Machine
end

