-- ==== Sys2Proof/Machine/Yard.lean ====
section
/-! DEFINITION. The Yard: grants, parking, spilling and refilling of lane groups, and re-deals (R78 to R87). -/

namespace Sys2Proof.Machine

/-- The harts of a station. -/
def State.stationHarts (s : State) (k : Nat) : List (Nat × Hart) := s.harts.filter fun p => stnOf p.1 == k

/-- A group's number in its station: 64 * core + group. -/
def Grp.num (g : Grp) : Nat := 64 * g.core + g.grp

/-- Groups a hart holds: granted, or parked and not re-granted (R80). -/
def Hart.heldGroups (h : Hart) : List Grp := h.groups.filter fun g => g.st != .spilled

/-- A reserved group (R78). -/
def reservedGroup (num : Nat) : Bool := decide (num % 64 < 4)

/-- Not waiting, as the Yard counts it (R80): no wait of R72, and not frozen. -/
def Hart.active (h : Hart) : Bool :=
  h.frozen.isNone &&
  (match h.wait with
   | none => true
   | some (.yard _ _ _ _) => true
   | some (.restore _ _) => true
   | some _ => false)

/-- The Yard never re-grants the parked groups of a pinned owner (R78, R252). -/
def Hart.pinned (h : Hart) : Bool := h.gang.isSome || h.spill == 0 || h.strip.isSome

/-- The free groups of a station (R78), in the order of steps 2 and 3 of R79 for a hart of `core`. -/
def State.freeGroups (s : State) (k core : Nat) : List Nat :=
  let held := (s.stationHarts k).flatMap fun p => p.2.heldGroups.map Grp.num
  let free := (List.range 256).filter fun g => !reservedGroup g && !held.contains g
  free.filter (fun g => g / 64 == core) ++ free.filter (fun g => g / 64 != core)

/-- The parked groups that a hart of priority p may take (R79 step 4): owner and group number. -/
def State.takeable (s : State) (k p : Nat) : List (Nat × Nat) :=
  let all := (s.stationHarts k).flatMap fun o =>
    if !o.2.active && decide (o.2.prio ≤ p) && !o.2.pinned then
      (o.2.groups.filter fun g => g.st == .parked && !reservedGroup g.num).map fun g => (o.2.prio, o.2.waitSince, g.num, o.1)
    else []
  let before : Nat × Nat × Nat × Nat → Nat × Nat × Nat × Nat → Bool := fun a b =>
    if a.1 ≠ b.1 then decide (a.1 < b.1) else if a.2.1 ≠ b.2.1 then decide (a.2.1 < b.2.1) else decide (a.2.2.1 ≤ b.2.2.1)
  (sortBy before all).map fun x => (x.2.2.2, x.2.2.1)

/-- Virtual address of the spill slot of a grant index (R86). -/
def spillSlot (h : Hart) (j : Nat) : Nat := h.spill + j * 0x20000

/-- The owner of a parked group spills it (R86): its slot is probed for a write and takes the group's banks and mask array;
`none` if the probe fails. The group goes to another hart, so that its lane cache loses its lines (R114). -/
def State.spillGroup (s : State) (owner num : Nat) : Option State :=
  match s.hart? owner with
  | none => none
  | some h =>
    match h.groups.find? fun g => g.num == num && g.st == .parked with
    | none => none
    | some g =>
      let a := spillSlot h g.idx
      let c := h.who owner
      if s.walkAway c a 0x20000 || (s.probe c [{ e := 0, va := a, n := 0x20000, k := .w, al := 1 }]).isSome then none
      else
        let s1 := s.fillVa s owner c a (h.bankBytes g.idx)
        let s2 := s.fillVa s1 owner c (a + 0x10000) (h.maskBytes g.idx)
        let h' := { h with groups := h.groups.map fun x => if x.idx = g.idx then { x with st := .spilled } else x,
                           lcache := h.lcache.filter fun l => l.idx != g.idx }
        some (s2.setHart owner h')

/-- Up to `n` groups for a hart of priority p on `core` of station k, in the order of R79 from step 2; the first
`skip` are claimed by waiting refills (R87). -/
def State.drawGroups (s : State) (k core p skip n : Nat) : State × List Nat :=
  let free := s.freeGroups k core
  let fromFree := (free.drop skip).take n
  let parked := (s.takeable k p).drop (skip - free.length)
  parked.foldl (fun (r : State × List Nat) o =>
    if n ≤ r.2.length then r
    else
      match r.1.spillGroup o.1 o.2 with
      | some s' => (s', r.2 ++ [o.2])
      | none => r) (s, fromFree)

/-- A hart whose next vector-class instruction waits for a refill (R87). -/
def Hart.refilling (h : Hart) : Bool :=
  h.active && (h.groups.any fun g => g.st == .spilled) &&
  (match h.vq with
   | v :: _ => v.redeal.isNone && !v.e.started
   | [] => false)

/-- Groups claimed by the waiting refills of other harts that satisfy `p` (R87). -/
def State.claimed (s : State) (k except : Nat) (p : Hart → Bool) : Nat :=
  ((s.stationHarts k).filter fun o => o.1 != except && o.2.refilling && p o.2).foldl
    (fun a o => a + (o.2.groups.filter fun g => g.st == .spilled).length) 0

/-- A waiting refill comes before that of `h`: of a higher priority, or waiting longer at the same one (R87). -/
def Hart.refillsBefore (o h : Hart) : Bool :=
  decide (h.prio < o.prio) ||
  (o.prio == h.prio && (match o.refillSince, h.refillSince with
    | some a, some b => decide (a < b)
    | some _, none => true
    | none, _ => false))

/-- The cap of YardGrant (R80). -/
def State.yardCap (s : State) (id : Nat) (h : Hart) : Nat :=
  let k := stnOf id
  let p := h.prio
  let others := (s.stationHarts k).filter fun o => o.1 != id && o.2.active && decide (0 < o.2.deficit)
  if others.any fun o => decide (p < o.2.prio) then 1
  else if others.any fun o => o.2.prio == p then
    let n := ((s.stationHarts k).filter fun o => (o.2.active || o.1 == id) && o.2.prio == p).length
    let above := ((s.stationHarts k).filter fun o => decide (p < o.2.prio)).foldl (fun a o => a + o.2.heldGroups.length) 0
    let low := 16 - ((s.stationHarts k).filter fun o => decide (p ≤ o.2.prio)).length
    max 1 ((256 - above - low) / n)
  else 64

/-- Groups by ascending grant index. -/
def sortGroups (l : List Grp) : List Grp := sortBy (fun a b => decide (a.idx ≤ b.idx)) l

/-- The lowest grant index that no group of a list has. -/
def freeIdx (l : List Grp) : Nat := (firstFrom (fun j => l.all fun g => g.idx != j) 0 64).getD 64

/-- Groups newly taken, each at the lowest free grant index (R79). -/
def joinGroups (held : List Grp) (nums : List Nat) : List Grp :=
  nums.foldl (fun l n => l ++ [{ idx := freeIdx l, core := n / 64, grp := n % 64, st := .granted }]) held

/-- The grant indices of the groups held are 0 to G - 1 (R79): a group keeps its index, but where a lower one has become
free at a spill and no new group fills it, the highest takes it (log 47). -/
def compact (l : List Grp) : List Grp :=
  l.foldl (fun r g =>
    let g := { g with st := .granted }
    if g.idx < l.length then r ++ [g]
    else r ++ [{ g with idx := freeIdx ((l.filter fun x => decide (x.idx < l.length)) ++ r) }]) []

/-- YardGrant (R80): the state, with the hart's groups and deficit, and G. Groups that the hart releases lose their clean
lines, since only another hart can be granted them next (R114). -/
def State.yardGrant (s : State) (id want : Nat) : State × Nat :=
  match s.hart? id with
  | none => (s, 0)
  | some h =>
    let k := stnOf id
    let target := min want (s.yardCap id h)
    let have_ := sortGroups h.heldGroups
    if target < have_.length then
      let keep := if h.stripOpen then have_ else have_.take (max 1 target)
      let gs := sortGroups (compact keep)
      (s.setHart id { h with groups := gs, deficit := want - gs.length,
                             lcache := h.lcache.filter fun l => gs.any fun g => g.idx == l.idx }, gs.length)
    else
      let (s1, nums) := s.drawGroups k (coreOf id % 4) h.prio (s.claimed k id fun o => decide (h.prio ≤ o.prio))
        (target - have_.length)
      let gs := sortGroups (compact (joinGroups have_ nums))
      (s1.modHart id fun h => { h with groups := gs, deficit := want - gs.length }, gs.length)

/-- The groups that await refill, taken in the order of R79 behind the claims that come before (R87); `none` while too few
can be had. -/
def State.refill (s : State) (id : Nat) : Option State :=
  match s.hart? id with
  | none => none
  | some h =>
    let lost := sortGroups (h.groups.filter fun g => g.st == .spilled)
    if lost.isEmpty then none
    else
      let (s1, nums) := s.drawGroups (stnOf id) (coreOf id % 4) h.prio
        (s.claimed (stnOf id) id fun o => o.refillsBefore h) lost.length
      if nums.length < lost.length then none
      else
        let new := (lost.zip nums).map fun x => ({ idx := x.1.idx, core := x.2 / 64, grp := x.2 % 64, st := .granted } : Grp)
        some (s1.modHart id fun h => { h with groups := sortGroups (h.heldGroups ++ new), refillSince := none })

/-- The contents of the groups of some grant indices as the spill area holds them (R84, R87, R103). -/
def State.readSpill (s : State) (id : Nat) (h : Hart) (idx : List Nat) : Hart :=
  idx.foldl (fun g j => s.readGroup id (h.who id) g j (spillSlot h j)) h

/-- The read of the spill area that a refill or a re-deal makes (R84, R87): the first failure, with its address. -/
def State.spillRead (s : State) (id : Nat) (h : Hart) (idx : List Nat) : Option (Cause × Nat × Nat) :=
  s.probe (h.who id) (idx.map fun j => { e := 0, va := spillSlot h j, n := 0x20000, k := .r, al := 1 })

/-- A slot of the spill area needs a walk that waits (R407). -/
def State.spillAway (s : State) (id : Nat) (h : Hart) (idx : List Nat) : Bool :=
  idx.any fun j => s.walkAway (h.who id) (spillSlot h j) 0x20000

/-- The data movement of a re-deal (R84): elements 0 to n-1 of kept operands and of the masks. -/
def Hart.redealRegs (h : Hart) (r : Redeal) (seed : Nat) : Hart :=
  let R := banksOf h.vcfg * 128 / nregOf h.vcfg
  let G0 : Geo := { L := r.lOld, R := R }
  let G1 : Geo := { L := r.lNew, R := R }
  let g := max 1 r.group
  let regs := nregOf h.vcfg
  let blank : Vector VReg 32 := Vector.ofFn fun i => VReg.undef (seed + i.val)
  let v := (List.range (regs / g)).foldl (fun v q =>
    let k := q * g
    match (vreg h.v k).tag with
    | none => v
    | some t =>
      if r.keep.testBit k then
        let v := mapRegs v k g fun j x => { x with tag := (vreg h.v (k + j)).tag }
        (List.range r.n).foldl (fun v e =>
          if elemKnown h.v G0 k g t.w e then writeElem v G1 k g t.w e (readElem h.v G0 k g t.w e) else v) v
      else v) blank
  let m : Vector BitStore 8 := Vector.ofFn fun i =>
    let b := mreg h i.val
    let low := 2 ^ r.n - 1
    { seed := seed + 32 + i.val, fills := b.fills.map fun f => (f.1, f.2 &&& low),
      known := b.known &&& low, val := b.val &&& low }
  { h with v := v, m := m }

end Sys2Proof.Machine
end

