-- ==== Sys2Proof/Machine/Life.lean ====
section
/-! DEFINITION. The life of harts and contexts: creation (R69, R165), gangs (R71, R167), barriers (R162), the end of a
hart (R70), and the destruction of a context (R183). -/

namespace Sys2Proof.Machine

/-! ### Supervisor harts (R152) and creation (R69, R165) -/

/-- STATUS.SVH (R151). -/
def svhBit : W64 := 0x10

/-- SVH set on one hart is cleared on every other hart of its context (R152). -/
def State.claimSvh (s : State) (id ctx : Nat) : State :=
  { s with harts := s.harts.map fun p =>
      if p.2.ctx = ctx then
        (p.1, { p.2 with status := if p.1 = id then p.2.status ||| svhBit else p.2.status &&& ~~~svhBit })
      else p }

/-- A context becomes live (R322), its energy counter 0 (R387), its SLICE as it was (DESIGN CHOICE, log 46). -/
def State.liveCtx (s : State) (c : Nat) : State :=
  if (s.ctx c).live then s else s.setCtx c { s.ctx c with live := true, energy := 0, frac := 0 }

/-- A new hart in a slot (R69), with SVH when its context has no supervisor hart (R152). -/
def State.createHart (s : State) (id ctx : Nat) (pc arg0 arg1 : W64) (spill prio : Nat) : State :=
  let s1 := s.liveCtx ctx
  let h := Hart.spawned id ctx pc arg0 arg1 spill prio s1.now s1.fresh
  let h := if (s1.supHart ctx).isNone then { h with status := h.status ||| svhBit } else h
  (s1.setHart id h).bump 40

/-- The lowest free slot of a core (R69). -/
def State.freeHartSlot (s : State) (core : Nat) : Option Nat := firstFrom (fun id => (s.hart? id).isNone) (4 * core) 4

/-- A station takes new harts (R165, R417, R418). -/
def State.stationActive (s : State) (k : Nat) : Bool := (s.stn k).state == 0

/-! ### Gangs and barriers (R71, R162, R167) -/

/-- A gang: context, die, number. -/
def gangKey (ctx die num : Nat) : Nat := ctx * 65536 + die * 256 + num

def State.gang? (s : State) (k : Nat) : Option Gang := find? s.gangs k

/-- The barrier group of a BAR at a scope; none when the hart is alone (R162). -/
def barKey (id : Nat) (h : Hart) (scope : Nat) : Option Nat :=
  if scope = 2 then some (2 ^ 32 + h.ctx * 2 ^ 16 + coreOf id)
  else if scope = 3 then some (2 * 2 ^ 32 + h.ctx * 2 ^ 16 + stnOf id)
  else if scope = 4 then h.gang.map fun g => 3 * 2 ^ 32 + g.1
  else none

def State.barrier (s : State) (key : Nat) : Barrier := getD s.barriers key { gen := 0, arrived := [] }

/-- The participants of a barrier group's current generation (R162, R167). -/
def State.barPeople (s : State) (key : Nat) : List Who :=
  let ctx := key / 2 ^ 16 % 2 ^ 16
  match key / 2 ^ 32 with
  | 1 => (s.harts.filter fun p => p.2.ctx == ctx && !p.2.saved && coreOf p.1 == key % 2 ^ 16).map fun p => .hart p.1
  | 2 => (s.harts.filter fun p => p.2.ctx == ctx && !p.2.saved && stnOf p.1 == key % 2 ^ 16).map fun p => .hart p.1
  | _ =>
    match s.gang? (key % 2 ^ 32) with
    | some g => (g.members.filter fun m => decide (m.from_ ≤ (s.barrier key).gen)).map Member.who
    | none => []

/-- A gang that is still forming holds its generation open (R162). -/
def State.barForming (s : State) (key : Nat) : Bool :=
  key / 2 ^ 32 == 3 && (match s.gang? (key % 2 ^ 32) with
    | some g => g.forming
    | none => false)

/-- A gang still has members, or the group is one of a core or station. -/
def State.barLives (s : State) (key : Nat) : Bool :=
  key / 2 ^ 32 != 3 || (match s.gang? (key % 2 ^ 32) with
    | some g => !g.members.isEmpty
    | none => false)

/-- A group without a participant has something that waits for its generation: a gang its members that joined for the next
(R167), a core or a station a hart whose frame is saved, which no longer counts (R162). -/
def State.barAwaited (s : State) (key : Nat) : Bool :=
  if key / 2 ^ 32 = 3 then s.barLives key else !(s.barrier key).arrived.isEmpty

/-- The generation ends when every current participant has arrived (R162). Members of a gang that have arrived for the next
generation stay arrived (R167). -/
def State.barCheck (s : State) (key : Nat) : State :=
  let b := s.barrier key
  let ps := s.barPeople key
  if (ps.isEmpty && !s.barAwaited key) || s.barForming key || !ps.all (fun w => b.arrived.contains w) then s
  else
    let later := if key / 2 ^ 32 = 3 then b.arrived.filter fun w => !ps.contains w else []
    { s with barriers := put s.barriers key { gen := b.gen + 1, arrived := later } }

/-- The generation for which a hart's arrival counts (R162, R167). -/
def State.barGen (s : State) (id key : Nat) : Nat :=
  let g := (s.barrier key).gen
  if key / 2 ^ 32 = 3 then
    match (s.gang? (key % 2 ^ 32)).bind fun x => x.members.find? fun m => m.who == .hart id with
    | some m => max g m.from_
    | none => g
  else g

/-- A hart arrives (R162). -/
def State.barArrive (s : State) (id key : Nat) : State :=
  let b := s.barrier key
  let b' := { b with arrived := if b.arrived.contains (.hart id) then b.arrived else b.arrived ++ [.hart id] }
  { s with barriers := put s.barriers key b' }.barCheck key

/-- A participant goes: it stops counting, and a generation that waited for it alone ends (R162). -/
def State.barLeave (s : State) (who : Who) (key : Nat) : State :=
  match find? s.barriers key with
  | none => if (s.barPeople key).isEmpty then s.barCheck key else s
  | some b =>
    let s1 := { s with barriers := put s.barriers key { b with arrived := b.arrived.filter fun w => w != who } }.barCheck key
    if (s.barPeople key).isEmpty then s1.barCheck key else s1

/-- The members of a gang on a station. -/
def Gang.onStation (g : Gang) (k : Nat) : Nat :=
  (g.members.filter fun m => match m.who with
    | .hart i => stnOf i == k
    | .saved _ => false).length

/-- GANG.JOIN is refused with GANGERR (R71, R167, R252). -/
def State.joinBad (s : State) (id : Nat) (h : Hart) (num gg nexp : Nat) : Bool :=
  decide (gg < 1) || decide (64 < gg) || decide (nexp < 1) || decide (576 < nexp) || h.gang.isSome || h.stripOpen ||
  (match s.gang? (gangKey h.ctx (dieOf id) num) with
   | some g => g.gg != gg || g.nexp != nexp || g.members.length == nexp ||
       decide (240 < (g.onStation (stnOf id) + 1) * (gg - 1))
   | none => decide (240 < gg - 1))

/-- A hart that holds its groups becomes a member (R167): the state and its index. -/
def State.becomeMember (s : State) (id : Nat) (h : Hart) (num gg nexp : Nat) : State × Nat :=
  let k := gangKey h.ctx (dieOf id) num
  let g := (s.gang? k).getD { gg := gg, nexp := nexp, forming := true, members := [] }
  let idx := (firstFrom (fun i => g.members.all fun m => m.idx != i) 0 (g.members.length + 1)).getD 0
  let bar := 3 * 2 ^ 32 + k
  let gen := (s.barrier bar).gen
  let m : Member := { idx := idx, who := .hart id, from_ := if g.forming then gen else gen + 1, mcast := 0 }
  let ms := g.members ++ [m]
  ({ s with gangs := put s.gangs k { g with members := ms, forming := g.forming && decide (ms.length < nexp) } }, idx)

/-- The member leaves its gang (R167 step 2, R70). -/
def State.leaveGang (s : State) (id : Nat) : State :=
  match (s.hart? id).bind fun h => h.gang with
  | none => s
  | some (k, _) =>
    let s1 := s.modHart id fun h => { h with gang := none, bar := erase h.bar (3 * 2 ^ 32 + k) }
    match s1.gang? k with
    | none => s1
    | some g =>
      let ms := g.members.filter (fun m => m.who != Who.hart id)
      if ms.isEmpty then
        { s1 with gangs := erase s1.gangs k, barriers := erase s1.barriers (3 * 2 ^ 32 + k) }
      else { s1 with gangs := put s1.gangs k { g with members := ms } }.barLeave (.hart id) (3 * 2 ^ 32 + k)

/-! ### The end of a hart (R70) and of a context (R183) -/

/-- The tiles of a hart are freed; `clear` as R258 says for a save or a destroyed context. -/
def State.freeTiles (s : State) (id : Nat) (clear : Bool) : State :=
  let c := s.core (coreOf id)
  let free : Tile → Tile := fun t =>
    if t.held = some id then (if clear then { Tile.reset with last := t.last } else { t with held := none }) else t
  if c.tiles.toList.all (fun t => t.held != some id) then s
  else s.setCore (coreOf id) { c with tiles := c.tiles.map free }

/-- The held writes of a hart's masters. -/
def Master.ofHart (m : Master) (id : Nat) : Bool :=
  match m with
  | .hart i => i == id
  | .engine i _ _ => i == id
  | .inbound _ => false

/-- A hart ends (R70): its groups, tiles, slots, queues and tokens go with it; it leaves its gang and its barriers. -/
def State.endHart (s : State) (id : Nat) (clear : Bool) : State :=
  match s.hart? id with
  | none => s
  | some h =>
    let s1 := (((s.leaveGang id).dropHeldOf fun w => w.master.ofHart id).freeTiles id clear).dropHart id
    ((s1.barLeave (.hart id) (2 ^ 32 + h.ctx * 2 ^ 16 + coreOf id)).barLeave (.hart id)
      (2 * 2 ^ 32 + h.ctx * 2 ^ 16 + stnOf id))

/-- Held SSEND bursts whose target context is destroyed are dropped, and their instructions go on (R322, R360). -/
def State.dropStale (s : State) (c : Nat) : State :=
  let hit : HeldWrite → Bool := fun w => w.target == some c
  let ms := s.dies.flatMap fun x => (x.2.held.filter hit).map fun w => w.master
  ms.foldl (fun s m => match m with
    | .engine id q slot => s.modHart id fun h => h.modEntry q slot fun e => { e with held := false }
    | _ => s) (s.dropHeldOf hit)

/-- A context is destroyed (R183): its harts end, its held writes and learning entries go, its generation advances. -/
def State.destroyCtx (s : State) (c : Nat) : State :=
  let s1 := (s.harts.filter fun p => p.2.ctx == c).foldl (fun s p => s.endHart p.1 true) s
  let s2 := (s1.dropHeldOf fun w => w.ctx == c && (match w.master with
    | .inbound _ => false
    | _ => true)).dropStale c
  let s3 := { s2 with
    gangs := s2.gangs.filter fun g => g.1 / 65536 != c,
    barriers := s2.barriers.filter fun b => !(b.1 / 2 ^ 32 == 3 && b.1 % 2 ^ 32 / 65536 == c),
    stations := s2.stations.map fun (t : Nat × Station) => (t.1, { t.2 with learn := t.2.learn.filter fun l => l.ctx != c }) }
  s3.setCtx c { s3.ctx c with live := false, gen := ((s3.ctx c).gen + 1) % 2 ^ 32 }

/-! ### STRIPFATAL (R253) -/

/-- What of a hart's queues was dispatched before a number: the younger entries are discarded with their slots, bindings,
interlock entries and faults (R253). -/
def Hart.olderThan (h : Hart) (seq : Nat) : Hart :=
  let old : Entry → Bool := fun e => decide (e.seq < seq)
  let open_ : Binding → Binding := fun b =>
    { b with closed := b.closed.filter fun k => decide (k < seq), cons := b.cons.filter fun c => decide (c.1 < seq) }
  let slots := h.slots.map fun t =>
    if (t.bind.elim false fun k => decide (seq ≤ k)) || (t.holder.elim false fun k => decide (seq ≤ k)) then
      { t with holder := none, bind := none, stopped := false } else t
  let h1 := { h with
    vq := h.vq.filter fun v => old v.e, mq := h.mq.filter old, sq := h.sq.filter old, slots := slots,
    binds := (h.binds.filter fun (b : Nat × Binding) => decide (b.1 < seq)).map fun (b : Nat × Binding) => (b.1, open_ b.2),
    ilk := h.ilk.filter fun k => decide (k.seq < seq) }
  let stays : EFault → Bool := fun f => !f.valid || (h1.entry? f.q f.slot).isSome || (h1.boundAt f.slot).isSome
  let faults := h.faults.filter stays
  { h1 with faults := faults,
            qstop := h.qstop && (faults.any (fun f => f.valid) || (h1.slots.toList.any fun t => t.stopped) ||
              [Queue.vector, .matrix, .stream].any fun q => (h1.entries q).any fun e => e.stopped) }

/-- An uncorrectable error in an open strip (R253): the strip and every entry dispatched after its STRIP.BEGIN are
discarded with their held writes, the registers become undefined, and STRIPFATAL waits for delivery. -/
def State.stripFatal (s : State) (id : Nat) (h : Hart) (x : Strip) : State :=
  let h1 := h.olderThan x.seq
  let flush : HeldWrite → Bool := fun w => match w.finish with
    | .elem _ => w.master == .hart id
    | _ => false
  let gone : HeldWrite → Bool := fun w => flush w || (match w.master with
    | .engine i q slot => i == id && (h1.entry? q slot).isNone && (h1.boundAt slot).isNone
    | _ => false)
  ((s.dropHeldOf gone).setHart id
    { h1.undefRegs s.fresh with
      strip := none, flushAt := 0, held := if s.dies.any fun d => d.2.held.any flush then none else h1.held,
      faults := h1.faults ++ [{ q := .vector, slot := 0, pc := 0, cause := .stripfatal, val := w64 x.base,
                                estart := x.base, valid := false }] }).bump 40

end Sys2Proof.Machine
end

