-- ==== Sys2Proof/Machine/Host.lean ====
section
/-! DEFINITION. The host interface, the Towpath and the Drabor fabric (R398 to R413), and their registers. -/

namespace Sys2Proof.Machine

/-- HERR of an error (R402), and its host event. -/
def State.setHerr (s : State) (source die wher bit : Nat) : State :=
  (s.setPkg { s.pkg with herr := source * 2 ^ 56 + die * 2 ^ 52 + wher % 2 ^ 52 }).setHevt bit

/-! ### Outbound requests (R404) -/

/-- The queue of a QUEUE code (R98, R182); none for a code that names no queue. -/
def Queue.ofCode (k : Nat) : Option Queue :=
  match k with
  | 0 => some .vector
  | 1 => some .matrix
  | 2 => some .stream
  | _ => none

/-- An outbound request to host address `addr` fails: its master freezes with REASON 0x16 and keeps no data (R182), and
the host is told. The master is the engine instruction in a slot of queue `k`, or the hart itself for k = 3. -/
def State.outboundFails (s : State) (id k slot addr : Nat) : State :=
  let told : State → State := fun t => t.setHerr 6 0 (hostBase + addr % hostBase) 10
  match s.hart? id, Queue.ofCode k with
  | none, _ => s
  | some h, none =>
    if h.frozen.isSome then s else told (s.freezeHart id h 0x16 { cause := .frozen, pc := h.pc, val := 0 })
  | some h, some q =>
    match h.entry? q slot with
    | some e => if e.frozen.isSome then s else told (s.freezeEngine id h q slot 0x16)
    | none => s

/-- A non-posted outbound request completes with an error. -/
def execOutboundCompletion (req : Nat) (s : State) : Out :=
  .next (s.outboundFails (bits req 0 13) (bits req 13 2) (bits req 15 6) (req / 2 ^ 21))
/-- A non-posted outbound request has no completion within 50,000,000 ns. -/
def execOutboundTimeout (req : Nat) (s : State) : Out :=
  .next (s.outboundFails (bits req 0 13) (bits req 13 2) (bits req 15 6) (req / 2 ^ 21))

/-! ### PCIe configuration and AtomicOps (R399, R401) -/

def execInboundAtomicop (rid : Nat) (s : State) : Out := .next (s.send (.ur rid))
def execOnwctlWrite (w : Nat) (s : State) : Out :=
  .next (s.setPkg { s.pkg with onwctl := bits w 12 24 * 2 ^ 12 + bits w 0 1 })

/-! ### The Towpath (R406 to R408) -/

def State.setLink (s : State) (d j : Nat) (l : Link) : State :=
  let s1 := s.setDie d { s.die d with links := (s.die d).links.setIfInBounds j l }
  if l.state = (s.link d j).state then s1 else s1.setHevt 8

/-- One more, saturating at 0xFFFF. -/
def satInc (n : Nat) : Nat := min 0xFFFF (n + 1)

/-- A Towpath link repeats a flit (R406, R408). -/
def State.linkRetry (s : State) (d j : Nat) : State :=
  s.setDie d { s.die d with links := (s.die d).links.setIfInBounds j { s.link d j with retry := satInc (s.link d j).retry } }

/-- TOWPATH_RETRY_FAILURE (R407): the module retrains; after three failures to retrain it is retired, and with no module
up the link is down. -/
def execTowpathRetryFailure (d j mod : Nat) (s : State) : Out :=
  let l := s.link d j
  let md := mod % 16
  let n := if mod.testBit 4 then 0 else getD l.failed md 0 + 1
  let up := if 3 ≤ n ∧ l.modup.testBit md then l.modup - 2 ^ md else l.modup
  .next (s.setLink d j { l with retry := satInc l.retry, retrain := satInc l.retrain, failed := put l.failed md n, modup := up,
                                state := if up = 0 ∧ l.state = 2 then 0 else l.state })

/-- TOWPATH_LINK_UP (R407): the link is up with some modules; what waited for it proceeds (`unitMove`). -/
def execTowpathLinkUp (d j mds : Nat) (s : State) : Out :=
  if mds % 65536 = 0 then .next s
  else .next (s.setLink d j { s.link d j with state := 2, modup := mds % 65536, failed := [] })

/-! ### The Drabor fabric (R409 to R413) -/

/-- Change a transfer of a die. -/
def State.modXfer (s : State) (d id : Nat) (f : Xfer → Xfer) : State :=
  s.setDie d { s.die d with inflight := (s.die d).inflight.map fun y => if y.id = id then f y else y }

/-- The local completion word of a transfer is one that can be written. -/
def State.lpaOk (s : State) (x : Xfer) : Bool := x.lpa != 0 && x.lpa % 8 == 0 && s.exists? x.lpa

/-- A transfer is complete once its local completion word has taken the outcome (R411, R412): while that word's home cannot
be reached (R407), or the Weir holds the addition, it stays in flight. -/
def State.endXfer (s : State) (d : Nat) (x : Xfer) (code : Nat) : State :=
  if !s.lpaOk x then s.xferOver d x.id
  else if !s.reaches d (homeDie x.lpa) then s.modXfer d x.id fun y => { y with code := some code }
  else
    let r := s.homeAdd d x.lpa (if code = 0 then 1 else code * 2 ^ 32) (some x.id)
    if r.2 then r.1.xferOver d x.id else r.1.modXfer d x.id fun y => { y with code := some code, adding := true }

/-- The transfers of a die out of a port that is down fail with code 2 (R411); one whose outcome is known keeps it. -/
def State.portDown (s : State) (d p : Nat) : State :=
  ((s.die d).inflight.filter fun x => x.desc.isNone && x.code.isNone && x.port == p).foldl (fun s x => s.endXfer d x 2) s

/-- DRABOR_PORT_STATE (R410, R411): when the port goes down its unacknowledged transfers, of every die, fail. -/
def execDraborPortState (p st peer : Nat) (s : State) : Out :=
  let d := p / 4
  let o := s.port p
  let new : Port := { o with state := st % 3, peer := if st % 3 = 2 then peer % 4096 else o.peer }
  let s1 := s.setDie d { s.die d with ports := (s.die d).ports.setIfInBounds (p % 4) new }
  let s2 := if st % 3 = 0 then s1.dies.foldl (fun s x => s.portDown x.1 p) s1 else s1
  .next (if st % 3 = o.state then s2 else s2.setHevt 8)

/-- A post is wrong in itself: code 1 (R411). -/
def State.badXfer (s : State) (a : Nat) : Bool :=
  let f : Nat → Nat := fun o => Memory.num s.mem (a + o) 8
  let port := f 0x18
  decide (256 ≤ port) || decide (31 < port % 256) || decide (2 ^ 32 < f 0x10) || f 0x38 != 0 || f 0x20 % 8 != 0 ||
  f 0x30 % 8 != 0 ||
  (f 0x10 != 0 && !(framesRange (f 0) (f 0x10)).all fun fr => s.exists? (fr * 65536))
where
  /-- The frames of n bytes at an address. -/
  framesRange (a n : Nat) : List Nat := span (a / 65536) ((a + n - 1) / 65536 - a / 65536 + 1)

/-- The migrated frames among those of n bytes at an address. -/
def State.migratedIn (s : State) (a n : Nat) : List Nat :=
  s.dies.flatMap fun (x : Nat × Die) => (x.2.frames.filter fun f =>
    f.2.slot.isSome && n != 0 && decide (a < f.1 * 65536 + 65536) && decide (f.1 * 65536 < a + n)).map Prod.fst

/-- A read of n bytes at home by a master of the package recalls the migrated frames that it touches (R357): false while the
Weir holds a recall of that master. -/
def State.recallAll (s : State) (m : Master) (a n : Nat) : State × Bool :=
  let l := s.migratedIn a n
  if l.isEmpty then (s, true)
  else if s.dies.any fun x => x.2.held.any fun w => w.master == m && w.finish == .again then (s, false)
  else
    l.foldl (fun (r : State × Bool) fr =>
      if r.2 then r.1.recallFor (fr * 65536) .ordinary (heldOf m 0 (fr * 65536) false .again) else r) (s, true)

/-- A transfer whose descriptor is right leaves on its port, once the port's die and the source can be reached (R12, R407,
R411). -/
def State.launch (s : State) (d : Nat) (x : Xfer) : State :=
  if (s.port x.port).state = 0 then s.endXfer d x 2
  else if !s.reaches d (x.port / 4) || (x.len != 0 && !(s.reaches d (homeDie x.src) && s.reaches d (homeDie (x.src + x.len - 1))))
  then s
  else
    let r := s.recallAll (fabricMaster d) x.src x.len
    if r.2 then
      (r.1.modXfer d x.id fun y => { y with sent := true }).send
        (.fabric x.port x.dst x.len x.cpa x.inc (Memory.readN r.1.mem x.src x.len))
    else r.1

/-- A transfer of die d goes as far as it can (R411): its descriptor is read at home, it leaves, its outcome is written. -/
def State.xferGo (s : State) (d : Nat) (x : Xfer) : State :=
  match x.code, x.desc with
  | some c, _ => if x.adding then s else s.endXfer d x c
  | none, some a =>
    let r := s.recallAll (fabricMaster d) a 64
    if !s.reaches d (homeDie a) then s
    else if !r.2 then r.1
    else
      let s := r.1
      let f : Nat → Nat := fun o => Memory.num s.mem (a + o) 8
      let y : Xfer := { x with desc := none, port := f 0x18 % 256, src := f 0, dst := f 8, len := f 0x10, cpa := f 0x20,
                               inc := f 0x28, lpa := f 0x30 }
      let s1 := s.modXfer d x.id fun _ => y
      if s.badXfer a then s1.endXfer d y 1 else s1.launch d y
  | none, none => if x.sent then s else s.launch d x

/-- The additions that the fabric of a die owes to completion words that can now be reached (R407, R411). -/
def State.payOwed (s : State) (d : Nat) : State :=
  (s.die d).owed.foldl (fun s p => s.fabricCount d p.1 p.2) (s.setDie d { s.die d with owed := [] })

/-- The transfers that the Towpath held back go on (R407). -/
def State.fabricAll (s : State) : State :=
  s.dies.foldl (fun s x => x.2.inflight.foldl (fun s y => s.xferGo x.1 y) (s.payOwed x.1)) s

/-- A store to FPOST of die d (R410, R411), by a hart or the host. -/
def State.fpost (s : State) (d w : Nat) (poster : Option Nat) : State :=
  let x := s.die d
  if 64 ≤ x.inflight.length then s.setDie d { x with ffull := true }
  else
    let t : Xfer := { id := s.fresh, desc := some (bits w 6 46 * 64), sent := false, code := none, adding := false, poster := poster,
                      port := 0, src := 0, dst := 0, len := 0, cpa := 0, inc := 0, lpa := 0 }
    ((s.setDie d { x with ffull := false, inflight := x.inflight ++ [t] }).bump 1).xferGo d t

def execFpost (d w : Nat) (s : State) : Out := .next (s.fpost d w ((s.hart? s.cur).map fun _ => s.cur))

/-- FABRIC_ACK (R411): the acknowledgement of a transfer. -/
def execFabricAck (id code : Nat) (s : State) : Out :=
  .next (match s.dies.findSome? fun x => (x.2.inflight.find? fun t => t.id == id && t.code.isNone).map fun t => (x.1, t) with
    | some (d, t) => s.endXfer d t (if code = 0 then 0 else 3)
    | none => s)

/-- FABRIC_TRANSFER_ARRIVAL (R411): written at home and counted, then acknowledged, or rejected whole. One whose home cannot be reached stays
with its sender, to arrive later (R407). -/
def execFabricTransferArrival (d dst len data cpa inc : Nat) (s : State) : Out :=
  let x := s.die d
  let lo := x.finbase
  let hi := x.finbase + x.finsize * 65536
  let inside : Nat → Nat → Bool := fun a n => x.finsize != 0 && decide (lo ≤ a) && decide (a + n ≤ hi)
  if !inside dst len || (cpa != 0 && !inside cpa 8) then
    .next ((s.setDie d { x with fdrop := min (2 ^ 32 - 1) (x.fdrop + 1) }).send (.fabricAck 3))
  else if !s.reaches d (homeDie dst) || !s.reaches d (homeDie (dst + len - 1)) || (cpa != 0 && !s.reaches d (homeDie cpa)) then
    .next s
  else
    let r := s.homeWrite (cellsAt dst len data) .ordinary (heldOf (fabricMaster d) 0 dst false (.fabric cpa inc))
    .next (if r.2 then r.1.fabricCount d cpa inc else r.1)

/-- A port repeats a flit (R409, R410). -/
def State.flitRetry (s : State) (p : Nat) : State :=
  let d := p / 4
  let o := s.port p
  s.setDie d { s.die d with ports := (s.die d).ports.setIfInBounds (p % 4) { o with retry := satInc o.retry } }

/-! ### Registers (R402, R408, R410) -/

/-- A load of a register of the host interface block of die 0. -/
def State.hostRead (s : State) (off : Nat) : W64 :=
  let p := s.pkg
  w64 (if 0x100 ≤ off ∧ off < 0x180 then vat p.hwin ((off - 0x100) / 8) 0
    else
      match off with
      | 0x000 => p.ctxtbase
      | 0x008 => p.boot
      | 0x200 => p.hevt
      | 0x208 => p.hevten
      | 0x210 => p.hfrozen.toNat
      | 0x218 => p.hoos % 2 ^ 52
      | 0x220 => p.herr
      | 0x308 => (vat p.svcarg 0 0).toNat
      | 0x310 => (vat p.svcarg 1 0).toNat
      | 0x318 => (vat p.svcarg 2 0).toNat
      | 0x320 => p.svcDetail * 2 ^ 32 + p.svcst
      | _ => 0)

/-- A store to a register of the host interface block of die 0; SVCCMD is in Service.lean. -/
def State.hostWrite (s : State) (off : Nat) (v : W64) : State :=
  let p := s.pkg
  let n := v.toNat
  if 0x100 ≤ off ∧ off < 0x180 then
    s.setPkg { p with hwin := p.hwin.setIfInBounds ((off - 0x100) / 8) (bits n 62 2 * 2 ^ 62 + bits n 32 20 * 2 ^ 32) }
  else
    match off with
    | 0x000 => s.setPkg { p with ctxtbase := bits n 12 40 * 4096 }
    | 0x200 => s.setHevtMask (p.hevt - (p.hevt &&& bits n 0 11)) p.hevten
    | 0x208 => s.setHevtMask p.hevt (bits n 0 11)
    | 0x308 => s.setPkg { p with svcarg := p.svcarg.setIfInBounds 0 v }
    | 0x310 => s.setPkg { p with svcarg := p.svcarg.setIfInBounds 1 v }
    | 0x318 => s.setPkg { p with svcarg := p.svcarg.setIfInBounds 2 v }
    | _ => s

/-- A load of a Towpath register. -/
def State.linkRead (s : State) (d off : Nat) : W64 :=
  if off = 0 ∨ off = 8 then
    let l := s.link d (off / 8)
    w64 (l.state * 2 ^ 62 + l.retrain * 2 ^ 32 + l.retry * 2 ^ 16 + l.modup)
  else 0

/-- A load of a fabric register. -/
def State.fabricRead (s : State) (d off : Nat) : W64 :=
  let x := s.die d
  w64 (if 0x008 ≤ off ∧ off < 0x028 then
      let p := s.port (4 * d + (off - 8) / 8)
      p.state * 2 ^ 62 + p.peer * 2 ^ 40 + p.retry
    else
      match off with
      | 0x000 => s.pkg.fabid
      | 0x040 => x.finbase
      | 0x048 => x.finsize
      | 0x058 => bitOf x.ffull * 2 ^ 63 + x.inflight.length
      | 0x060 => x.fdrop
      | _ => 0)

/-- A store to a fabric register. -/
def State.fabricWrite (s : State) (d off : Nat) (v : W64) (poster : Option Nat) : State :=
  let n := v.toNat
  match off with
  | 0x000 => s.setPkg { s.pkg with fabid := bits n 0 12 }
  | 0x040 => s.setDie d { s.die d with finbase := bits n 16 36 * 65536 }
  | 0x048 => s.setDie d { s.die d with finsize := bits n 0 32 }
  | 0x050 => s.fpost d n poster
  | _ => s

end Sys2Proof.Machine
end

