-- ==== Sys2Proof/Machine/Hash.lean ====
section
/-! DEFINITION. SHA-512, the hash of images and of the measurement (R415, R416). The manual names the function and does
not define it; this is the function of FIPS 180-4 (PRESUMED, log 15). -/

namespace Sys2Proof.Machine

/-- The first 80 primes. -/
def shaPrimes : List Nat :=
  ([2, 3, 5, 7, 11, 13, 17, 19, 23, 29, 31, 37, 41, 43, 47, 53, 59, 61, 67, 71] ++
    [73, 79, 83, 89, 97, 101, 103, 107, 109, 113, 127, 131, 137, 139, 149, 151, 157, 163, 167, 173] ++
    [179, 181, 191, 193, 197, 199, 211, 223, 227, 229, 233, 239, 241, 251, 257, 263, 269, 271, 277, 281] ++
    [283, 293, 307, 311, 313, 317, 331, 337, 347, 349, 353, 359, 367, 373, 379, 383, 389, 397, 401, 409])

/-- The largest r with r ^ 3 ≤ n, of `k` bits from `r` on. -/
def icbrtGo (n : Nat) : (k r : Nat) → Nat
  | 0, r => r
  | k + 1, r => if (r + 2 ^ k) ^ 3 ≤ n then icbrtGo n k (r + 2 ^ k) else icbrtGo n k r

/-- The round constants: 64 bits of the fraction of the cube root of each prime. -/
def shaRound : List W64 := shaPrimes.map fun p => w64 (icbrtGo (p * 2 ^ 192) 68 0)

/-- The initial value: 64 bits of the fraction of the square root of the first eight primes. -/
def shaInit : List W64 := (shaPrimes.take 8).map fun p => w64 (isqrt (p * 2 ^ 128))

/-- A number of big-endian bytes. -/
def ofBytesBig (l : List Byte) : Nat := l.foldl (fun a b => 256 * a + b.toNat) 0

/-- `n` big-endian bytes of a number. -/
def toBytesBig (n x : Nat) : List Byte := (toBytes n x).reverse

/-- The message with its padding: a one, zeros, and its length in bits in 16 bytes. -/
def shaPad (l : List Byte) : List Byte :=
  l ++ 0x80 :: List.replicate ((239 - l.length % 128) % 128) 0 ++ toBytesBig 16 (8 * l.length)

def shaSmall0 (x : W64) : W64 := x.rotateRight 1 ^^^ x.rotateRight 8 ^^^ (x >>> 7)
def shaSmall1 (x : W64) : W64 := x.rotateRight 19 ^^^ x.rotateRight 61 ^^^ (x >>> 6)
def shaBig0 (x : W64) : W64 := x.rotateRight 28 ^^^ x.rotateRight 34 ^^^ x.rotateRight 39
def shaBig1 (x : W64) : W64 := x.rotateRight 14 ^^^ x.rotateRight 18 ^^^ x.rotateRight 41

/-- The message schedule: `n` words after the words `w`, the latest first. -/
def shaSchedule : (n : Nat) → (w : List W64) → List W64
  | 0, w => w.reverse
  | n + 1, w => shaSchedule n ((shaSmall1 (w.getD 1 0) + w.getD 6 0 + shaSmall0 (w.getD 14 0) + w.getD 15 0) :: w)

/-- One round over the eight working values. -/
def shaStep (x : List W64) (kw : W64 × W64) : List W64 :=
  match x with
  | [a, b, c, d, e, f, g, h] =>
    let t := h + shaBig1 e + ((e &&& f) ^^^ (~~~e &&& g)) + kw.1 + kw.2
    [t + shaBig0 a + ((a &&& b) ^^^ (a &&& c) ^^^ (b &&& c)), a, b, c, d + t, e, f, g]
  | _ => x

/-- One block of 128 bytes. -/
def shaBlock (h : List W64) (block : List Byte) : List W64 :=
  let w := (List.range 16).map fun i => w64 (ofBytesBig ((block.drop (8 * i)).take 8))
  let r := (shaRound.zip (shaSchedule 64 w.reverse)).foldl shaStep h
  List.zipWith (fun a b => a + b) h r

/-- The blocks of a padded message. -/
def shaBlocks : (n : Nat) → List W64 → List Byte → List W64
  | 0, h, _ => h
  | n + 1, h, l => shaBlocks n (shaBlock h (l.take 128)) (l.drop 128)

/-- SHA-512 of a message: 64 bytes (R415). -/
@[irreducible] def sha512 (l : List Byte) : List Byte :=
  let p := shaPad l
  (shaBlocks (p.length / 128) shaInit p).flatMap fun x => toBytesBig 8 x.toNat

end Sys2Proof.Machine
end

