-- ==== Sys2Proof/Machine/Sign.lean ====
section
/-! DEFINITION. Ed25519 signatures of images and of attestation reports (R415, R416). The manual names RFC 8032 and does
not define it; this is that document's scheme (PRESUMED, log 15). -/

namespace Sys2Proof.Machine

/-- The prime of the field, the order of the base point, and the curve's constant d. -/
def edP : Nat := 2 ^ 255 - 19
def edL : Nat := 2 ^ 252 + 27742317777372353535851937790883648493

/-- x ^ e modulo the prime, for e of `n` bits. -/
def edPow (x : Nat) : (n e : Nat) → Nat
  | 0, _ => 1
  | n + 1, e =>
    let h := edPow x n (e / 2)
    let q := h * h % edP
    if e % 2 = 1 then q * x % edP else q

def edInv (x : Nat) : Nat := edPow x 255 (edP - 2)
def edSub (a b : Nat) : Nat := (a + (edP - b % edP)) % edP
def edD : Nat := (edP - 121665) * edInv 121666 % edP

/-- The x coordinate for a y and a sign, if there is one. -/
def edX (y sign : Nat) : Option Nat :=
  let u := edSub (y * y) 1
  let v := (edD * (y * y % edP) + 1) % edP
  let v3 := v * v % edP * v % edP
  let x := u * v3 % edP * edPow (u * v3 % edP * (v3 * v % edP) % edP) 255 ((edP - 5) / 8) % edP
  let z := v * (x * x % edP) % edP
  let root := if z = u then some x else if z = edSub 0 u then some (x * edPow 2 255 ((edP - 1) / 4) % edP) else none
  root.bind fun x => if x = 0 ∧ sign = 1 then none else some (if x % 2 = sign then x else edSub 0 x)

/-- A point in projective coordinates: X, Y, Z. -/
abbrev EdPoint := Nat × Nat × Nat

def edNeutral : EdPoint := (0, 1, 1)

/-- The sum of two points. -/
def edAdd (p q : EdPoint) : EdPoint :=
  let a := p.2.2 * q.2.2 % edP
  let b := a * a % edP
  let c := p.1 * q.1 % edP
  let d := p.2.1 * q.2.1 % edP
  let e := edD * c % edP * d % edP
  let f := edSub b e
  let g := (b + e) % edP
  let cross := edSub (edSub ((p.1 + p.2.1) * (q.1 + q.2.1)) c) d
  (a * f % edP * cross % edP, a * g % edP * ((d + c) % edP) % edP, f * g % edP)

/-- A multiple of a point, by a number of `n` bits. -/
def edMul (p : EdPoint) : (n k : Nat) → EdPoint
  | 0, _ => edNeutral
  | n + 1, k =>
    let h := edMul p n (k / 2)
    let q := edAdd h h
    if k % 2 = 1 then edAdd q p else q

def edEq (p q : EdPoint) : Bool :=
  p.1 * q.2.2 % edP == q.1 * p.2.2 % edP && p.2.1 * q.2.2 % edP == q.2.1 * p.2.2 % edP

/-- The base point. -/
def edBase : EdPoint :=
  let y := 4 * edInv 5 % edP
  ((edX y 0).getD 0, y, 1)

/-- The 32 bytes of a point. -/
def edEncode (p : EdPoint) : List Byte :=
  let i := edInv p.2.2
  toBytes 32 (p.2.1 * i % edP + 2 ^ 255 * (p.1 * i % edP % 2))

/-- The point that 32 bytes encode, if there is one. -/
def edDecode (l : List Byte) : Option EdPoint :=
  let n := ofBytes l
  let y := n % 2 ^ 255
  if edP ≤ y then none else (edX y (n / 2 ^ 255)).map fun x => (x, y, 1)

/-- SHA-512 as a number modulo the order of the base point. -/
def edHash (l : List Byte) : Nat := ofBytes (sha512 l) % edL

/-- Verification (R415): the check of RFC 8032, with the cofactor. -/
@[irreducible] def ed25519Verify (key message signature : List Byte) : Bool :=
  let r := signature.take 32
  let s := ofBytes (signature.drop 32)
  match edDecode key, edDecode r with
  | some a, some p =>
    decide (s < edL) && edEq (edMul edBase 256 (8 * s)) (edMul (edAdd p (edMul a 253 (edHash (r ++ key ++ message)))) 4 8)
  | _, _ => false

/-- The secret scalar of a private key. -/
def edScalar (seed : List Byte) : Nat := 2 ^ 254 + ofBytes ((sha512 seed).take 32) % 2 ^ 254 / 8 * 8

/-- The public half of a private key of 32 bytes (R416). -/
@[irreducible] def ed25519Public (seed : List Byte) : List Byte := edEncode (edMul edBase 256 (edScalar seed))

/-- The signature of a message under a private key (R416). -/
@[irreducible] def ed25519Sign (seed message : List Byte) : List Byte :=
  let key := ed25519Public seed
  let r := edHash ((sha512 seed).drop 32 ++ message)
  let p := edEncode (edMul edBase 256 r)
  p ++ toBytes 32 ((r + edHash (p ++ key ++ message) * edScalar seed) % edL)

/-- The attestation identity key (R416): its public half, and a signature with its private half. -/
def attestKey : List Byte := ed25519Public Config.attestSeed
def attestSign (message : List Byte) : List Byte := ed25519Sign Config.attestSeed message

end Sys2Proof.Machine
end

