-- ==== Sys2Proof/Machine/Service.lean ====
section
/-! DEFINITION. The service controller (R414 to R425): images, attestation, service commands, the march test and repair,
boot and power, and their registers. -/

namespace Sys2Proof.Machine

/-! ### Images and attestation (R415, R416) -/

/-- The fused minimum SVN of a kind (R415). -/
def State.minSvn (s : State) (kind : Nat) : Nat := (find? s.pkg.svn kind).getD (Config.fusedSvn kind)

/-- The checks of an image (R415): 0 accepted, 2 refused, 3 invalid. -/
def State.imageCheck (s : State) (img : List Byte) : Nat :=
  let f : Nat → Nat → Nat := fun o n => ofBytes ((img.drop o).take n)
  let part : Nat → Nat → List Byte := fun o n => (img.drop o).take n
  let kind := f 6 2
  let len := f 0xC 4
  if f 0 4 ≠ 0x4C58494D ∨ f 4 2 ≠ 1 ∨ kind < 1 ∨ 4 < kind ∨ len < 1 ∨ 0x1000000 < len ∨ f 0x10 16 ≠ 0 then 3
  else if (sha512 (part 0x60 32)).take 32 ≠ Config.vendorKeyHash then 2
  else if !ed25519Verify (part 0x60 32) (part 0 0x80) (part 0x80 64) then 2
  else if sha512 (part 0xC0 len) ≠ part 0x20 64 then 2
  else if f 8 4 < s.minSvn kind then 2
  else 0

/-- An accepted image extends the measurement (R415). -/
def State.measured (s : State) (img : List Byte) : State :=
  let kind := ofBytes ((img.drop 6).take 2)
  s.setPkg { s.pkg with meas := sha512 (s.pkg.meas ++ toBytes 4 kind ++ (img.drop 0x20).take 64) }

/-- A service command ends with an outcome (R417). -/
def State.svcEnds (s : State) (st detail : Nat) : State :=
  s.setPkg { s.pkg with svcst := 1, svcNext := st, svcDetail := detail, svcOp := none }

/-- The service controller as a master of reads and writes at home. -/
def serviceMaster : Master := .inbound 65544

/-- n bytes at home that the service controller of die 0 can reach (R407). -/
def State.serviceReaches (s : State) (a n : Nat) : Bool := s.reaches 0 (homeDie a) && s.reaches 0 (homeDie (a + n - 1))

/-- A read of n bytes at home by the service controller: migrated frames are recalled first (R357); no bytes while the Weir
holds a recall, or while a home cannot be reached (R407). -/
def State.serviceRead (s : State) (a n : Nat) : State × Option (List Byte) :=
  if !s.serviceReaches a n then (s, none)
  else
    let r := s.recallAll serviceMaster a n
    (r.1, if r.2 then some (Memory.readN r.1.mem a n) else none)

/-- An image that passed its checks is written to flash, extends the measurement, and is in force as R417 says. -/
def State.loaded (s : State) (img : List Byte) (a1 : Nat) : State :=
  let kind := ofBytes ((img.drop 6).take 2)
  let svn := ofBytes ((img.drop 8).take 4)
  let s1 := s.measured img
  s1.setPkg { s1.pkg with flash := put s.pkg.flash kind img, updates := put s.pkg.updates kind ((img.drop 0x20).take 64),
                          svn := if a1 = 1 then put s.pkg.svn kind svn else s.pkg.svn }

/-- LOADIMG (R415, R417), once its image can be read. -/
def State.loadimgGo (s : State) (a0 a1 : Nat) : State :=
  let r := s.serviceRead a0 0xC0
  match r.2 with
  | none => r.1
  | some hdr =>
    let q := r.1.serviceRead a0 (0xC0 + min (ofBytes ((hdr.drop 0xC).take 4)) 0x1000000)
    match q.2 with
    | none => q.1
    | some img =>
      match q.1.imageCheck img with
      | 0 => (q.1.loaded img a1).svcEnds 0 0
      | k => q.1.svcEnds k 0

/-- The report of ATTEST (R416). -/
def State.report (s : State) (seq : Nat) (nonce : List Byte) : List Byte :=
  let body := toBytes 4 0x4C584154 ++ toBytes 4 1 ++ toBytes 8 seq ++ nonce ++ s.pkg.meas ++
    ((List.range 4).flatMap fun k => toBytes 4 (s.minSvn (k + 1))) ++ attestKey
  body ++ attestSign body ++ toBytes 4 Config.certChain.length ++ Config.certChain

/-- ATTEST (R416, R417), once its NONCE can be read and its report written; parts of the report that the Weir holds are
written later, before the command ends. -/
def State.attestGo (s : State) (a0 : Nat) : State :=
  let q := s.serviceRead a0 32
  match q.2 with
  | none => q.1
  | some nonce =>
    let s1 := q.1.setPkg { q.1.pkg with reports := s.pkg.reports + 1 }
    let r := s1.report s1.pkg.reports nonce
    if !s.serviceReaches (a0 + 0x40) r.length then q.1
    else
      let cs := (span (a0 + 0x40) r.length).zip r
      (s1.homeWrite cs .ordinary (heldOf serviceMaster 0 (a0 + 0x40) false .again)).1.svcEnds 0 r.length

/-- The command that waits for its accesses at home goes on (R357, R407, R417). -/
def State.svcGo (s : State) : State :=
  match s.pkg.svcOp with
  | some (op, a0, a1) => if op = 1 then s.loadimgGo a0 a1 else s.attestGo a0
  | none => s

/-- A command with accesses at home starts. -/
def State.svcStarts (s : State) (op a0 a1 : Nat) : State :=
  (s.setPkg { s.pkg with svcst := 1, svcDetail := 0, svcOp := some (op, a0, a1) }).svcGo

/-- LOADIMG (R417). -/
def State.svcLoadimg (s : State) (a0 a1 : Nat) : State :=
  if 2 ^ 52 ≤ a0 ∨ 2 ≤ a1 then s.svcEnds 3 0 else s.svcStarts 1 a0 a1

/-- ATTEST (R416, R417). -/
def State.svcAttest (s : State) (a0 : Nat) : State := if 2 ^ 52 ≤ a0 then s.svcEnds 3 0 else s.svcStarts 2 a0 0

/-- The running command still has accesses to make at home. -/
def State.svcBusy (s : State) : Bool :=
  s.pkg.svcOp.isSome || s.dies.any fun x => x.2.held.any fun w => w.master == serviceMaster

/-! ### START, DRAIN, SWAP, UNDRAIN, RETIRE (R417 to R419) -/

/-- The hart that START creates (R417): supervisor mode, SVH, PRIO 7. -/
def State.svcStart (s : State) (a0 : Nat) (a1 a2 : W64) : State :=
  if 2 ^ 13 ≤ a0 ∨ 35 < bits a0 4 6 then s.svcEnds 3 0
  else if (s.hart? a0).isSome || !s.stationActive (stnOf a0) then s.svcEnds 2 0
  else
    let s1 := s.createHart a0 0 a1 a2 0 0 7
    ((s1.modHart a0 fun h => { h with status := h.status ||| 1 }).claimSvh a0 0).svcEnds 0 a0

/-- The station of an argument: die in [10:8], station in [5:0]; none when a bit lies outside the fields. -/
def stationArg (a0 : Nat) : Option Nat :=
  if 2 ^ 11 ≤ a0 ∨ bits a0 6 2 ≠ 0 then none else some (64 * bits a0 8 3 + bits a0 0 6)

/-- DRAIN (R418). -/
def State.svcDrain (s : State) (a0 : Nat) : State :=
  match stationArg a0 with
  | none => s.svcEnds 3 0
  | some k =>
    if 36 ≤ k % 64 || !s.stationActive k then s.svcEnds 2 0
    else
      let s1 := s.setStn k { s.stn k with state := 1 }
      { s1 with harts := s1.harts.map fun (p : Nat × Hart) => if stnOf p.1 == k then (p.1, p.2.raise ipPreempt 0) else p }.svcEnds 0 0

/-- SPARE of a die: STATE and FOR (R418). -/
def State.spare (s : State) (d : Nat) : Nat × Nat := getD s.spares d (0, 0)

/-- The defects of a core's arrays, in a core that is powered off. -/
def Core.off (c : Core) : Core := { Core.reset with defects := c.defects }

/-- The spare takes the number of a station (R13, R418): with its own cores, caches and counter (R372). The replaced station's
cores are powered off; they stand where the spare's stood until the next reset. -/
def State.spareTakes (s : State) (k : Nat) : State :=
  let d := k / 64
  let n := k % 64
  let s1 := { s with spares := put s.spares d (1, n) }
  let s2 := (List.range 4).foldl (fun (s : State) c =>
    let a := 256 * d + 4 * n + c
    let b := 256 * d + 144 + c
    (s.setCore a (s.core b)).setCore b (s.core a).off) s1
  (s2.setStn k { Station.reset with drcBase := (s.stn (64 * d + 36)).drcBase }).warmed k

/-- The cores with defects, each under the number of its own hardware, which it has again at the next reset (R13, R425). -/
def State.hardware (s : State) : List (Nat × Core) :=
  (s.cores.filter fun c => !c.2.defects.isEmpty).map fun (c : Nat × Core) =>
    let d := c.1 / 256
    let k := c.1 % 256
    let sp := s.spare d
    (256 * d + (if sp.1 ≠ 1 then k else if k / 4 = sp.2 then 144 + k % 4 else if k / 4 = 36 then 4 * sp.2 + k % 4 else k),
     c.2.off)

/-- SWAP (R418). -/
def State.svcSwap (s : State) (a0 : Nat) : State :=
  match stationArg a0 with
  | none => s.svcEnds 3 0
  | some k =>
    if 36 ≤ k % 64 || (s.stn k).state != 2 || (s.spare (k / 64)).1 != 0 then s.svcEnds 2 0
    else (s.spareTakes k).svcEnds 0 0

/-- UNDRAIN (R417). -/
def State.svcUndrain (s : State) (a0 : Nat) : State :=
  match stationArg a0 with
  | none => s.svcEnds 3 0
  | some k =>
    if 36 ≤ k % 64 || (s.stn k).state == 3 then s.svcEnds 2 0
    else (s.setStn k { s.stn k with state := 0 }).svcEnds 0 0

/-- Sectors of a pseudo-channel (R419). -/
def channelSectors : Nat := 1572864

/-- RETIRE (R419). -/
def State.svcRetire (s : State) (a0 : Nat) : State :=
  if 2 ^ 11 ≤ a0 ∨ bits a0 7 1 ≠ 0 then s.svcEnds 3 0
  else
    let d := bits a0 8 3
    let c := bits a0 0 7
    let P := s.pool d 0
    if P.retired.contains c then s.svcEnds 0 0
    else if !P.enabled || decide (P.free < channelSectors + P.wlow) then s.svcEnds 2 0
    else (s.setPool d 0 ({ P with retired := c :: P.retired }.setFree (P.free - channelSectors))).svcEnds 0 0

/-- A write to SVCCMD (R417): ignored while a command runs. -/
def State.svcCmd (s : State) (op : Nat) (a : Vector W64 3) : State :=
  if s.pkg.svcst = 1 then s
  else
    let a0 := (vat a 0 0).toNat
    match op with
    | 1 => s.svcLoadimg a0 (vat a 1 0).toNat
    | 2 => s.svcAttest a0
    | 3 => s.svcStart a0 (vat a 1 0) (vat a 2 0)
    | 4 => s.svcDrain a0
    | 5 => s.svcSwap a0
    | 6 => s.svcUndrain a0
    | 7 => s.svcRetire a0
    | _ => s.svcEnds 3 0

def execLoadimg (a0 a1 : Nat) (s : State) : Out := .next (s.svcCmd 1 #v[w64 a0, w64 a1, 0])
def execAttest (a0 : Nat) (s : State) : Out := .next (s.svcCmd 2 #v[w64 a0, 0, 0])
def execStart (a0 a1 a2 : Nat) (s : State) : Out := .next (s.svcCmd 3 #v[w64 a0, w64 a1, w64 a2])
def execDrain (a0 : Nat) (s : State) : Out := .next (s.svcCmd 4 #v[w64 a0, 0, 0])
def execSwap (a0 : Nat) (s : State) : Out := .next (s.svcCmd 5 #v[w64 a0, 0, 0])
def execUndrain (a0 : Nat) (s : State) : Out := .next (s.svcCmd 6 #v[w64 a0, 0, 0])
def execRetire (a0 : Nat) (s : State) : Out := .next (s.svcCmd 7 #v[w64 a0, 0, 0])
/-- An unassigned OP (R417). -/
def execSvcInvalid (op : Nat) (s : State) : Out :=
  .next (s.svcCmd (if 1 ≤ op ∧ op ≤ 7 then 0 else op) #v[0, 0, 0])
/-- A running service command ends (R417): ST takes its outcome, and host event 7. -/
def execSvcCommandEnd (s : State) : Out :=
  if s.pkg.svcst = 1 ∧ !s.svcBusy then .next ((s.setPkg { s.pkg with svcst := s.pkg.svcNext }).setHevt 7) else .next s

/-- The dirty bytes of a line of a station, written back by the cache itself when the pool admits them (R112, R353). -/
def State.selfWriteback (s : State) (k line : Nat) : State :=
  let cs := (s.stn k).dirty.filter fun c => c.1 / 64 == line
  if cs.isEmpty || !s.reaches (k / 64) (homeDie (line * 64)) then s
  else
    match s.homePart (line / 1024) cs [] .ordinary false with
    | some s' => s'.setStn k ((s'.stn k).cleaned cs)
    | none => s

def execStationCacheWriteback (d n line : Nat) (s : State) : Out := .next (s.selfWriteback (64 * d + n) line)

/-- A line that a station cache may hold (R112): of DRAM or the host region, in no migrated frame. -/
def State.cacheable (s : State) (line : Nat) : Bool :=
  s.exists? (line * 64) && (s.frameInfo (line / 1024)).slot.isNone &&
  (match regionOf (line * 64) with
   | .pool _ _ => true
   | .host => true
   | _ => false)

/-- A line that the cache fetches by itself: it takes no way from a line with dirty bytes (R112, R353). -/
def execStationCacheFill (d n line : Nat) (s : State) : Out :=
  let t := s.stn (64 * d + n)
  if !s.cacheable line || !s.reaches d (homeDie (line * 64)) || (t.full line && (t.sliceClean (line % 16)).isEmpty) then .next s
  else .next (s.fillLine (64 * d + n) line (heldOf (.inbound 65544) 0 (line * 64) false .again)).1

/-- The rows of lane SRAM, masks and tags of a station's cores as its harts have left them (R423): free values (log 22). -/
def State.rowsLeft (s : State) (k : Nat) : State :=
  ((List.range 4).foldl (fun (s : State) i =>
    let c := s.core (4 * k + i)
    s.setCore (4 * k + i) { c with pattern := (c.pattern.set 0 (s.fresh + 3)).set 1 (s.fresh + 3) }) s).bump 1

/-- STATION_DRAINED (R418): no slot holds a hart; the caches are written back and emptied. -/
def execStationDrained (d n : Nat) (s : State) : Out :=
  let k := 64 * d + n
  if (s.stn k).state ≠ 1 ∨ (s.harts.any fun p => stnOf p.1 == k) then .next s
  else
    let lines := ((s.stn k).dirty.map fun c => c.1 / 64).foldl (fun l x => if l.contains x then l else l ++ [x]) []
    let s1 := lines.foldl (fun s l => s.selfWriteback k l) s
    if (s1.stn k).dirty.isEmpty then .next ((s1.setStn k { s1.stn k with clean := [], state := 2 }).rowsLeft k) else .next s1

/-! ### The march test (R421 to R424) -/

/-- Macros of a target (R421). -/
def macros (t : Nat) : Nat :=
  match t with
  | 0 => 1024
  | 1 => 64
  | 2 => 4
  | _ => 32
/-- Rows of a macro (R421). -/
def rowsOf (t : Nat) : Nat :=
  match t with
  | 0 => 128
  | 1 => 520
  | 2 => 64
  | _ => 1024
/-- Spares of a macro (R421). -/
def sparesOf (t : Nat) : Nat := if t = 3 then 4 else 2

/-- The core of a march block (R422): cores of the stations, or of the spare while it holds no number. -/
def State.marchCore (s : State) (d k : Nat) : Option Nat :=
  if k < 144 then some (256 * d + k) else if k < 148 ∧ (s.spare d).1 ≠ 1 then some (256 * d + k) else none

/-- The march may run (R423): while booting, or on a drained station, or on the idle spare. -/
def State.marchOk (s : State) (d k : Nat) : Bool :=
  s.pkg.boot == 0 || (if k < 144 then (s.stn (64 * d + k / 4)).state == 2 else (s.spare d).1 != 1)

/-- A row has been replaced by a spare (R424). -/
def Core.repaired (c : Core) (t m r : Nat) : Bool :=
  c.rpt.any fun e => !e.unrep && e.target == t && e.macroNo == m && e.row == r

/-- What a defective row, not replaced, is stuck at. -/
def Core.stuck (c : Core) (t m r : Nat) : Option Bool :=
  if c.repaired t m r then none
  else (c.defects.find? fun x => x.target == t && x.macroNo == m && x.row == r).map fun x => x.one

/-- A tile row reads as all zeros, or all ones. -/
def tileRow (T : Tile) (r : Nat) (ones : Bool) : Bool :=
  let l := T.acc.filter fun a => a.1 / 128 == r
  if ones then (List.range 128).all fun n => getD l (128 * r + n) 0 == 2 ^ 136 - 1 else l.isEmpty

/-- A scratchpad row reads as all zeros, or all ones (R115). -/
def State.padRow (s : State) (core m r : Nat) (ones : Bool) : Bool :=
  let d := core / 256
  let base := spmBase d (core % 256)
  (Memory.readN s.mem (base + r * 2048 + m * 64) 64).all fun b => b == (if ones then 0xFF else 0)

/-- A row reads as expected (R423). -/
def State.rowReads (s : State) (core t m r : Nat) (ones : Bool) : Bool :=
  let c := s.core core
  (match c.stuck t m r with
   | some one => one == ones
   | none => true) &&
  (match t with
   | 2 => tileRow (vat c.tiles m Tile.reset) r ones
   | 3 => s.padRow core m r ones
   | _ =>
     let p := vat c.pattern t 1
     (if p < 3 then p else Config.rowLeft (p - 3) (2 ^ 21 * core + 2 ^ 20 * t + 1024 * m + r)) == if ones then 2 else 1)

/-- The failing rows of an element that reads, ascending (R423). -/
def State.failing (s : State) (core t : Nat) (ones : Bool) : List (Nat × Nat × Nat) :=
  (List.range (macros t)).flatMap fun m =>
    ((List.range (rowsOf t)).filter fun r => !s.rowReads core t m r ones).map fun r => (t, m, r)

/-- What an element that writes leaves (R423). -/
def State.marchWrite (s : State) (core t : Nat) (ones : Bool) : State :=
  let c := s.core core
  let d := core / 256
  let k := core % 256
  match t with
  | 2 =>
    let acc := if ones then (List.range 8192).map fun i => (i, 2 ^ 136 - 1) else []
    s.setCore core { c with tiles := c.tiles.map fun T => { T with acc := acc } }
  | 3 =>
    let m := Memory.clear s.mem (spmBase d k) 0x200000
    { s with mem := if ones then Memory.fill s.mem (spmBase d k) (List.replicate 0x200000 0xFF) else m }
  | _ => s.setCore core { c with pattern := c.pattern.setIfInBounds t (if ones then 2 else 1) }

/-- One element (R423): the registers of the core's harts become undefined for targets 0 and 1. -/
def State.marchElement (s : State) (core w : Nat) : State :=
  let t := bits w 16 2
  let read := bits w 4 2
  let write := bits w 0 2
  let s1 :=
    if read = 0 then s
    else
      let c := s.core core
      let new := (s.failing core t (read == 2)).filter fun f => !c.fails.contains f
      s.setCore core { c with fails := c.fails ++ new }
  let s2 := if write = 0 then s1 else s1.marchWrite core t (write == 2)
  if t = 0 ∨ t = 1 then
    { s2 with harts := s2.harts.map fun (p : Nat × Hart) => if coreOf p.1 == core then (p.1, p.2.undefRegs s.fresh) else p }.bump 40
  else s2

/-- The lowest spare of a macro that is not in use and passes (R424). -/
def Core.goodSpare (c : Core) (t m : Nat) : Option Nat :=
  firstFrom (fun i =>
    !(c.rpt.any fun e => !e.unrep && e.target == t && e.macroNo == m && e.spare == i) &&
    !(c.defects.any fun x => x.target == t && x.macroNo == m && x.row == rowsOf t + i)) 0 (sparesOf t)

/-- One listed row of a finish (R424). -/
def Core.repairRow (c : Core) (f : Nat × Nat × Nat) : Core :=
  let bad := { c with unrep := c.unrep ||| 2 ^ f.1 }
  if 32 ≤ c.rpt.length then bad
  else
    match c.goodSpare f.1 f.2.1 with
    | some i => { c with rpt := c.rpt ++ [{ unrep := false, target := f.1, macroNo := f.2.1, row := f.2.2, spare := i }] }
    | none => { bad with rpt := c.rpt ++ [{ unrep := true, target := f.1, macroNo := f.2.1, row := f.2.2, spare := 0xFF }] }

/-- A finish (R424): its list in ascending macro and row. -/
def Core.marchFinish (c : Core) (t : Nat) : Core :=
  let l := sortBy (fun a b => decide (a.2.1 * 65536 + a.2.2 ≤ b.2.1 * 65536 + b.2.2)) (c.fails.filter fun f => f.1 == t)
  let c1 := l.foldl Core.repairRow c
  { c1 with fails := c1.fails.filter fun f => f.1 != t, fin := c1.fin ||| 2 ^ t }

/-- A reserved value in a march command (R423). -/
def marchReserved (w : Nat) : Bool := decide (2 ≤ bits w 62 2) || bits w 4 2 == 3 || bits w 0 2 == 3

/-- FIN of a core: every target after the boot march (R414, R422). -/
def State.finOf (s : State) (core : Nat) : Nat := if s.pkg.marched then 0xF else (s.core core).fin

/-- Every core of the package has finished (R425). -/
def State.allFinished (s : State) : Bool :=
  s.pkg.marched || (List.range 8).all fun d => (List.range 148).all fun k =>
    (s.marchCore d k).isNone || (s.core (256 * d + k)).fin == 0xF

/-- A spare that holds no number and has a failing core has failed its march (R425). -/
def State.spareFails (s : State) (d : Nat) : State :=
  if (s.spare d).1 ≠ 1 ∧ (List.range 4).any (fun c => (s.core (256 * d + 144 + c)).unrep != 0) then
    { s with spares := put s.spares d (2, 0) }
  else s

/-- A write to MCMD (R423). -/
def State.mcmd (s : State) (d k w : Nat) : State :=
  match s.marchCore d k with
  | none => s
  | some core =>
    if marchReserved w || !s.marchOk d k then s.setCore core { s.core core with merr := true }
    else
      let s1 := s.setCore core { s.core core with merr := false, target := bits w 16 2 }
      if bits w 62 2 = 0 then s1.marchElement core w
      else
        let s2 := (s1.setCore core ((s1.core core).marchFinish (bits w 16 2))).spareFails d
        if !s2.pkg.marched && s2.allFinished then (s2.setPkg { s2.pkg with marched := true }).setHevt 1 else s2

/-- MARCH_ELEMENT (R423): a command with OP 00. -/
def execMarchElement (d k w : Nat) (s : State) : Out := .next (s.mcmd d k (setBits w 62 2 0))
/-- MARCH_FINISH (R424): a command with OP 01. -/
def execMarchFinish (d k w : Nat) (s : State) : Out := .next (s.mcmd d k (setBits w 62 2 1))

/-! ### Registers (R418, R422) -/

def Rpt.word (e : Rpt) : Nat :=
  2 ^ 63 + bitOf e.unrep * 2 ^ 62 + e.target * 2 ^ 60 + e.macroNo * 2 ^ 40 + e.row * 2 ^ 16 + e.spare

/-- A load of a march block of core record `core`. FAILS is that of the target of the latest accepted command (DEDUCED,
log 22). -/
def State.marchRead (s : State) (core off : Nat) : Nat :=
  let c := s.core core
  let fin := s.finOf core
  if 0x100 ≤ off then
    match c.rpt[(off - 0x100) / 8]? with
    | some e => e.word
    | none => 0
  else
    match off with
    | 0x008 => bitOf c.merr * 2 ^ 62 + (c.fails.filter fun f => f.1 == c.target).length % 65536 * 2 ^ 32
    | 0x010 =>
      c.unrep * 2 ^ 56 + fin * 2 ^ 48 + (c.rpt.filter fun e => !e.unrep).length * 2 ^ 40 +
        bitOf (fin == 0xF && c.unrep == 0)
    | _ => 0

/-- A load of a register of the service block of a die. -/
def State.svcRead (s : State) (d off : Nat) : W64 :=
  w64 (if off < 0x12800 then
      match s.marchCore d (off / 0x200) with
      | some core => s.marchRead core (off % 0x200)
      | none => 0
    else if 0x18000 ≤ off ∧ off < 0x18120 then (s.stn (64 * d + (off - 0x18000) / 8)).state
    else if off = 0x18120 then
      (if (s.spare d).1 = 1 then (s.spare d).2 * 256 else 0) + (s.spare d).1
    else 0)

/-- A store to a register of the service block of a die. -/
def State.svcWrite (s : State) (d off : Nat) (v : W64) : State :=
  if off < 0x12800 ∧ off % 0x200 = 0 then s.mcmd d (off / 0x200) v.toNat else s

/-! ### Boot and power (R396, R397, R414, R425) -/

/-- The boot march of one core: every defective row is found and repaired as far as its spares allow (R422 to R425). -/
def Core.bootMarch (c : Core) : Core :=
  let base : Core := { Core.reset with defects := c.defects }
  (List.range 4).foldl (fun c t =>
    let rows := (c.defects.filter fun x => x.target == t && decide (x.row < rowsOf t)).map fun x => (t, x.macroNo, x.row)
    ({ c with fails := rows.foldl (fun l r => if l.contains r then l else l ++ [r]) [] }).marchFinish t) base

/-- Stations with a failing core are replaced by the spare or retired (R425). -/
def State.bootStations (s : State) : State :=
  let bad : State → Nat → Bool := fun s k =>
    (List.range 4).any fun c => (s.core (256 * (k / 64) + 4 * (k % 64) + c)).unrep != 0
  let s0 := (List.range 8).foldl State.spareFails s
  allStations.foldl (fun s k =>
    if !bad s k then s
    else if (s.spare (k / 64)).1 = 0 then s.spareTakes k
    else s.setStn k { s.stn k with state := 3 }) s0

/-- Memory that keeps its bytes over a reset of the package: all but the scratchpads (R414). -/
def keptMem (s : State) : List Host.Cell :=
  s.mem.filter fun c => match regionOf c.1 with
    | .spm _ _ => false
    | _ => true

/-- A die after a reset: the kept save registers apart (R397). -/
def Die.rebooted (x : Die) : Die :=
  { Die.reset with esbase := x.esbase, essize := x.essize, arm := x.arm, egen := x.egen, esstate := x.esstate }

/-- The dies of the package. -/
def allDies : List Nat := List.range 8

/-- The links of a die after training, each of which changes STATE (R405, R414). -/
def State.trained (s : State) (d : Nat) : State :=
  (List.range 2).foldl (fun s j => s.setLink d j { state := 2, retrain := 0, retry := 0, modup := 0xFFFF, failed := [] }) s

/-- A gang's members all lie in frames of the thermal save. -/
def State.savedGang (s : State) (g : Gang) : Bool :=
  g.members.all fun m => match m.who with
    | .hart _ => false
    | .saved n => s.frames.any fun f => f.gen == n && f.emergency

/-- The image of a kind in the module's flash (R414): as delivered until LOADIMG writes one. -/
def State.flashImage (s : State) (kind : Nat) : List Byte := (find? s.pkg.flash kind).getD (Config.delivered kind)

/-- Boot verifies and installs the image of a kind from flash (R414, R415); one that fails its checks is not installed (DEDUCED,
log 15). -/
def State.install (s : State) (kind : Nat) : State :=
  let img := s.flashImage kind
  if s.imageCheck img = 0 then
    let s1 := s.measured img
    s1.setPkg { s1.pkg with installed := put s1.pkg.installed kind ((img.drop 0x20).take 64) }
  else s

/-- The package after its reset and boot (R414, R425): the service firmware's check, training, the march, the other images. -/
def State.boot (s : State) (mem : List Host.Cell) : State :=
  let p := s.pkg
  let gangs := s.gangs.filter fun g => s.savedGang g.2
  let base : State :=
    { State.reset with
      mem := mem, now := s.now, tick := s.tick, fresh := s.fresh + 1, out := s.out, eager := s.eager,
      agenda := s.agenda, dies := s.dies.map fun x => (x.1, x.2.rebooted), frames := s.frames.filter fun f => f.emergency,
      gangs := gangs, barriers := s.barriers.filter fun b => b.1 / 2 ^ 32 == 3 && gangs.any fun g => g.1 == b.1 % 2 ^ 32,
      stations := (s.stations.filter fun t => t.2.drcBase != 0).map fun t =>
        (t.1, { Station.reset with drcBase := t.2.drcBase }),
      pkg := { Pkg.reset with flash := p.flash, svn := p.svn, eshad := p.eshad },
      cores := s.hardware }
  if base.imageCheck (base.flashImage 1) ≠ 0 then (base.setPkg { base.pkg with boot := 2 }).setHevt 0
  else
    let s1 := allDies.foldl State.trained (base.install 1)
    let s2 := State.bootStations { s1 with cores := s1.cores.map fun (c : Nat × Core) => (c.1, c.2.bootMarch) }
    let s3 := [2, 3, 4].foldl State.install s2
    ((s3.setPkg { s3.pkg with boot := 1, marched := true }).setHevt 1).setHevt 0

/-- PACKAGE_RESET (R414). -/
def execPackageReset (s : State) : Out := .next (s.boot (keptMem s))

/-- A die whose standby power is first applied: the kept registers at reset (R397). -/
def Die.standby (x : Die) : Die := { x with esbase := 0, essize := 0, arm := false, egen := 0, esstate := 0 }

def execStandbyPowerApplied (s : State) : Out := .next { s with dies := s.dies.map fun x => (x.1, x.2.standby) }

/-- Bytes of an HBM4 window, or of the host: kept while core power is off (R396). -/
def hbmOnly (m : List Host.Cell) : List Host.Cell :=
  m.filter fun c => match regionOf c.1 with
    | .pool _ p => p == 0
    | .host => true
    | _ => false

/-- STANDBY_POWER_LOSS (R397): the HBM4 stacks lose their contents, and the kept registers their values. -/
def execStandbyPowerLoss (s : State) : Out :=
  .next { s with dies := s.dies.map fun x => (x.1, x.2.standby),
                 mem := s.mem.filter fun c => match regionOf c.1 with
                   | .pool _ p => p != 0
                   | _ => true }

/-- Core power goes; the HBM4 stacks keep their bytes (R396). -/
def State.trip (s : State) : State :=
  { State.reset with
    mem := hbmOnly s.mem, now := s.now, tick := s.tick, fresh := s.fresh + 1, out := s.out, eager := s.eager,
    agenda := s.agenda, dies := s.dies.map fun x => (x.1, x.2.rebooted), frames := s.frames, gangs := s.gangs,
    barriers := s.barriers,
    cores := s.hardware,
    pkg := { Pkg.reset with flash := s.pkg.flash, svn := s.pkg.svn, eshad := s.pkg.eshad, powered := false } }

/-- TRIP (R396). -/
def execTrip (s : State) : Out := .next s.trip

end Sys2Proof.Machine
end

