-- ==== Sys2Proof/Machine/Device.lean ====
section
/-! DEFINITION. The device-register region: which block an address lies in, and the thermal and save registers
(R364, R373, R388, R391, R398). -/

namespace Sys2Proof.Machine

/-- ESCTL.ARM = 1 is accepted (R391): the whole area is class-none frames of the die's HBM4 present span. -/
def State.armable (s : State) (d : Nat) : Bool :=
  let x := s.die d
  (List.range x.essize).all fun i =>
    let fr := x.esbase / 65536 + i
    regionOf (fr * 65536) == .pool d 0 && s.exists? (fr * 65536) && !s.lossless fr

/-- A write of ARM (R391). -/
def State.setArm (s : State) (d : Nat) (on : Bool) : State :=
  let x := s.die d
  if !on then s.setDie d { x with arm := false, esstate := 0 }
  else if s.armable d then s.setDie d { x with arm := true, esstate := 1, egen := (x.egen + 1) % 2 ^ 32 }
  else s

/-- ARM (R391). -/
def execArm (d : Nat) (s : State) : Out := .next (s.setArm d true)

/-- A load of a thermal or save register. -/
def State.saveRead (s : State) (d off : Nat) : W64 :=
  let x := s.die d
  let p := s.pkg
  w64 (match off with
    | 0x000 => x.crit * 256 + x.warn
    | 0x008 => x.esbase
    | 0x010 => x.essize
    | 0x018 => bitOf x.arm
    | 0x020 => x.egen * 2 ^ 32 + x.esstate
    | 0x028 => if d = 0 then p.eskept else 0
    | 0x030 => if d = 0 then p.eslost else 0
    | 0x038 => if d = 0 then p.esscan else 0
    | _ => 0)

/-- A store to a thermal or save register. -/
def State.saveWrite (s : State) (d off : Nat) (v : W64) : State :=
  let x := s.die d
  let n := v.toNat
  match off with
  | 0x000 =>
    if bits n 0 8 < bits n 8 8 then
      (List.range 36).foldl (fun s n => s.warmed (64 * d + n)) (s.setDie d { x with crit := bits n 8 8, warn := bits n 0 8 })
    else s
  | 0x008 => s.setDie d { x with esbase := bits n 16 36 * 65536 }
  | 0x010 => s.setDie d { x with essize := bits n 0 32 }
  | 0x018 => s.setArm d (n.testBit 0)
  | _ => s

/-- Who accesses a device register: a hart, or the host. -/
abbrev Accessor := Option Nat

/-- The context of an accessor. -/
def State.accCtx (s : State) (a : Accessor) : Nat :=
  match a.bind fun id => s.hart? id with
  | some h => h.ctx
  | none => 0

/-- A load of a device register: n bytes at an address of the region. Only an aligned 8-byte access reads one. -/
def State.devRead (s : State) (a : Accessor) (pa n : Nat) : State × W64 :=
  match regionOf pa with
  | .dev d off =>
    if n ≠ 8 ∨ pa % 8 ≠ 0 then (s, 0)
    else
      let o := off % 0x100000
      match off / 0x100000 with
      | 0 => (s, if d = 0 then s.hostRead o else 0)
      | 1 =>
        match a with
        | some id => s.weirRead id d o
        | none => s.weirRead 8192 d o
      | 2 => (s, if o / 0x1000 < 36 then s.govRead (64 * d + o / 0x1000) (o % 0x1000) else 0)
      | 3 => (s, if d = 0 then s.powerRead o else 0)
      | 4 => (s, s.saveRead d o)
      | 5 => (s, s.svcRead d o)
      | 6 => (s, s.linkRead d o)
      | 7 => (s, s.fabricRead d o)
      | _ => (s, 0)
  | _ => (s, 0)

/-- A store to a device register. -/
def State.devWrite (s0 : State) (a : Accessor) (pa n : Nat) (v : W64) : State :=
  let s := s0.wakeLines fun l => l == pa / 64
  match regionOf pa with
  | .dev d off =>
    if n ≠ 8 ∨ pa % 8 ≠ 0 then s
    else
      let o := off % 0x100000
      match off / 0x100000 with
      | 0 =>
        if d ≠ 0 then s
        else if o = 0x300 then s.svcCmd (bits v.toNat 0 8) s.pkg.svcarg
        else s.hostWrite o v
      | 1 => s.weirWrite (s.accCtx a) d o v
      | 2 => if o / 0x1000 < 36 then s.govWrite (64 * d + o / 0x1000) (o % 0x1000) v else s
      | 3 => if d = 0 then s.powerWrite o v else s
      | 4 => s.saveWrite d o v
      | 5 => s.svcWrite d o v
      | 7 => s.fabricWrite d o v a
      | _ => s
  | _ => s0

/-- DEVICE_REGISTER_WRITE (R373): an 8-byte store at a device-physical address, by the current hart or the host. -/
def execDeviceRegisterWrite (pa w : Nat) (s : State) : Out :=
  .next (s.devWrite ((s.hart? s.cur).map fun _ => s.cur) pa 8 (w64 w))

end Sys2Proof.Machine
end

