-- ==== Sys2Proof/Machine/Freeze.lean ====
section
/-! DEFINITION. Inbound requests (R403), frozen masters and their answers (R182, R183), array errors (R420), and the
admission of held writes as events (R353, R360, R361). -/

namespace Sys2Proof.Machine

/-! ### Inbound requests (R74, R354, R400, R403) -/

/-- What a piece of an inbound request comes to: performed with the bytes read, frozen with a reason, held by the Weir, or
waiting for a home that cannot be reached (R407). -/
inductive Piece where
  | done (s : State) (data : Nat)
  | freeze (reason : Nat)
  | held (s : State)
  | wait

/-- The window of a BAR2 offset, and the device-physical address behind it (R403). -/
def State.winOf (s : State) (o : Nat) : Nat := vat s.pkg.hwin (o / 2 ^ 32 % 16) 0
def State.bar2Pa (s : State) (o : Nat) : Nat := bits (s.winOf o) 32 20 * 2 ^ 32 + o % 2 ^ 32

/-- Why a piece at BAR2 offset o freezes its requester (R403). -/
def State.pieceFault (s : State) (wr : Bool) (o : Nat) : Option Nat :=
  let win := s.winOf o
  let pa := s.bar2Pa o
  if !win.testBit 63 || (wr && !win.testBit 62) then some 0x02
  else if !s.exists? pa || regionOf pa == .host then some 0x13
  else none

/-- One piece, n bytes at BAR2 offset o, within 64 bytes. -/
def State.inboundPiece (s : State) (rid : Nat) (wr : Bool) (o n data : Nat) : Piece :=
  let pa := s.bar2Pa o
  match s.pieceFault wr o with
  | some r => .freeze r
  | none =>
    if !s.reaches 0 (homeDie pa) then .wait
    else
    match regionOf pa with
    | .dev _ _ =>
      if wr then .done (s.devWrite none pa n (w64 data)) 0
      else
        let r := s.devRead none pa n
        .done r.1 r.2.toNat
    | _ =>
      if wr then
        let r := s.homeWrite (cellsAt pa n data) .ordinary (heldOf (.inbound rid) 0 pa false .again)
        if r.2 then .done r.1 0 else .held r.1
      else
        let r := s.recallFor pa .ordinary (heldOf (.inbound rid) 0 pa false .again)
        if r.2 then .done r.1 (Memory.num r.1.mem pa n) else .held r.1

/-- A held write of the requester stands in the Weir (R354). -/
def State.requesterHeld (s : State) (rid : Nat) : Bool := s.dies.any fun x => x.2.held.any fun w => w.master == .inbound rid

/-- The bytes of BAR0 that map the device-register regions, and those of one die (R400). -/
def bar0Span : Nat := 0x8000000
def bar0Die : Nat := 0x1000000

/-- The device-register address behind a BAR0 offset; none where BAR0 reads 0 and ignores writes (R400). -/
def bar0Pa (o : Nat) : Option Nat := if o < bar0Span then some (devBase (o / bar0Die) + o % bar0Die) else none

/-- The home controller of an address: its die, and which of the die's memories (R354). -/
def controllerOf (pa : Nat) : Nat × Nat :=
  match regionOf pa with
  | .pool d p => (d, p)
  | _ => (homeDie pa, 2)

/-- The home controllers of a BAR2 request. -/
def State.controllers (s : State) (x : Inbound) : List (Nat × Nat) :=
  if x.bar0 || x.len == 0 then []
  else [controllerOf (s.bar2Pa x.off), controllerOf (s.bar2Pa (x.off + x.len - 1))]

/-- A held write of a requester stands before a home controller. -/
def State.heldBefore (s : State) (rid : Nat) (k : Nat × Nat) : Bool :=
  (s.die k.1).held.any fun w => w.master == .inbound rid && w.pool == k.2

/-- The next bytes of a request lie in a die that cannot be reached (R407). -/
def State.requestAway (s : State) (x : Inbound) : Bool :=
  if x.bar0 then (bar0Pa x.off).any fun pa => !s.reaches 0 (homeDie pa)
  else (s.pieceFault x.wr (x.off + x.pos)).isNone && !s.reaches 0 (homeDie (s.bar2Pa (x.off + x.pos)))

/-- A request of a requester waits behind held writes and behind its requests `before` it that wait (R74, R354): a write
into the ordered-notify window behind every write, any other write behind those to its home controller, a read only for
its own recall; and each for a home that can be reached (R407). -/
def State.requestWaits (s : State) (rid : Nat) (before : List Inbound) (x : Inbound) : Bool :=
  let ks := s.controllers x
  let pa := s.bar2Pa (x.off + x.pos)
  s.requestAway x ||
  (if !x.wr then
    !x.bar0 && ((s.die (homeDie pa)).held.any fun w => w.master == .inbound rid && w.cells.isEmpty && w.fr == pa / 65536)
  else if x.notify then s.requesterHeld rid || before.any fun y => y.wr
  else ks.any fun k => s.heldBefore rid k || before.any fun y => y.wr && (s.controllers y).contains k)

/-- The first request that need not wait, between those before it and after it. -/
def State.nextRequest (s : State) (rid : Nat) : (before l : List Inbound) → Option (List Inbound × Inbound × List Inbound)
  | _, [] => none
  | b, x :: l => if s.requestWaits rid b x then s.nextRequest rid (b ++ [x]) l else some (b, x, l)

/-- The pieces of a BAR2 request, ascending, from the first one not performed: the request as far as it comes, and why it
stops before its end (0 for a piece that waits or that the Weir holds, whose bytes a write has given away). -/
def State.inboundPieces (s : State) (rid : Nat) : (fuel : Nat) → Inbound → State × Inbound × Option Nat
  | 0, x => (s, x, none)
  | k + 1, x =>
    if x.len ≤ x.pos then (s, x, none)
    else
      let o := x.off + x.pos
      let n := min (x.len - x.pos) (64 - o % 64)
      match s.inboundPiece rid x.wr o n (x.data / 2 ^ (8 * x.pos) % 2 ^ (8 * n)) with
      | .done s' b => s'.inboundPieces rid k { x with pos := x.pos + n, got := x.got + b * 2 ^ (8 * x.pos) }
      | .freeze r => (s, x, some r)
      | .held s' => (s', if x.wr then { x with pos := x.pos + n, wid := some (s'.fresh - 1) } else x, some 0)
      | .wait => (s, x, some 0)

/-- A request to BAR0 (R373, R400, R403): it is performed whole and never freezes. -/
def State.inboundBar0 (s : State) (x : Inbound) : State × Inbound × Option Nat :=
  match bar0Pa x.off with
  | none => (s, { x with pos := x.len }, none)
  | some pa =>
    if x.wr then (s.devWrite none pa x.len (w64 x.data), { x with pos := x.len }, none)
    else
      let r := s.devRead none pa x.len
      (r.1, { x with pos := x.len, got := r.2.toNat }, none)

/-- One request, between those before it and after it: it completes, waits, or freezes its requester (R182). -/
def State.inbound1 (s : State) (rid : Nat) (b : List Inbound) (x : Inbound) (l : List Inbound) : State :=
  let r := if x.bar0 then s.inboundBar0 x else s.inboundPieces rid (x.len / 64 + 2) x
  let y := r.2.1
  let keep : Nat → List Inbound → State := fun reason l =>
    r.1.setRequester { r.1.requester rid with reason := reason, requests := l }
  match r.2.2 with
  | none => if x.wr then keep 0 (b ++ l) else (keep 0 (b ++ l)).send (.readData rid y.got)
  | some 0 => keep 0 (b ++ (if y.len ≤ y.pos then l else y :: l))
  | some reason => (keep reason (b ++ { y with frozen := true } :: l)).raiseFrozen 0 (handleRid rid reason)

/-- The requests of a requester that may go on, in their order (R74, R354). -/
def State.inboundRun (s : State) (rid : Nat) : (fuel : Nat) → State
  | 0 => s
  | k + 1 =>
    let q := s.requester rid
    if q.reason ≠ 0 then s
    else
      match s.nextRequest rid [] q.requests with
      | none => s
      | some (b, x, l) => State.inboundRun (s.inbound1 rid b x l) rid k

/-- A write into the ordered-notify window as it stands (R401). -/
def State.inWindow (s : State) (off len : Nat) : Bool :=
  s.pkg.onwctl.testBit 0 && decide (off / 4096 ≤ s.pkg.onwctl / 4096) && decide (s.pkg.onwctl / 4096 ≤ (off + len - 1) / 4096)

/-- A request as it arrives: an offset from 2^36 on is one of BAR0 (log 41). -/
def State.arriving (s : State) (wr off len data : Nat) : Inbound :=
  { wr := wr == 1, bar0 := decide (2 ^ 36 ≤ off), notify := wr == 1 && decide (off < 2 ^ 36) && s.inWindow off len,
    off := if off < 2 ^ 36 then off else off - 2 ^ 36, len := len, data := data, pos := 0, got := 0, wid := none,
    frozen := false }

/-- INBOUND_MEMORY_REQUEST (R403): it takes its place behind the requester's earlier requests. -/
def execInboundMemoryRequest (rid wr off len data : Nat) (s : State) : Out :=
  let q := s.requester rid
  let s1 := s.setRequester { q with requests := q.requests ++ [s.arriving wr off len data] }
  .next (s1.inboundRun rid (q.requests.length + 1))

/-- The requests that waited for a held write that has gone, or for a home that can be reached again. -/
def State.inboundAll (s : State) : State :=
  s.pkg.requesters.foldl (fun s q => s.inboundRun q.rid q.requests.length) s

/-- A requester has a request that may go on. -/
def State.inboundReady (s : State) (q : Requester) : Bool := q.reason == 0 && (s.nextRequest q.rid [] q.requests).isSome

/-- ADMIT_HELD_WRITE (R353). -/
def execAdmitHeldWrite (d p : Nat) (s : State) : Out :=
  .next (s.admitAll d p ((s.die d).heldIn p).length).inboundAll
/-- REPLAY (R360): a store to WOOSACT with ACT 01 by the current hart. -/
def execReplay (d w : Nat) (s : State) : Out :=
  .next (s.woosact s.curCtx d (w64 (setBits w 21 2 1))).inboundAll
/-- CANCEL (R361): a store to WOOSACT with ACT 10 by the current hart. -/
def execCancel (d w : Nat) (s : State) : Out :=
  .next (s.woosact s.curCtx d (w64 (setBits w 21 2 2))).inboundAll

/-! ### Frozen masters (R182, R183) -/

/-- A frozen hart resumes by taking the trap that froze it (R183); after an array error its registers are undefined and
its tiles hold 0 (R420). -/
def State.thawHart (s : State) (id : Nat) (h : Hart) (t : TrapRec) : State :=
  let h1 := { h.unpark with frozen := none, frozenReason := 0 }
  if h.frozenReason = 0x01 then s.setHart id (h1.takeTrap false t.cause.code t.pc t.val)
  else if h.frozenReason = 0x14 then
    let c := s.core (coreOf id)
    let wipe : Tile → Tile := fun T => if T.held = some id then { T with acc := [], flags := 0 } else T
    (((s.setCore (coreOf id) { c with tiles := c.tiles.map wipe }).setHart id (h1.undefRegs s.fresh)).bump 40)
  else s.setHart id h1

/-- The master that a handle names. R182 gives the reserved KIND 11 and QUEUE 11 no meaning: they are taken for KIND 01 and
QUEUE 10 (DESIGN CHOICE, log 17). -/
def handleId (hd : Nat) : Nat := bits hd 0 13
def handleCtx (hd : Nat) : Nat := bits hd 56 6
def handleReason (hd : Nat) : Nat := bits hd 48 8
def handleQueue (hd : Nat) : Queue :=
  match bits hd 30 2 with
  | 0 => .vector
  | 1 => .matrix
  | _ => .stream
def handleSlot (hd : Nat) : Nat := bits hd 24 6

/-- The frozen hart that a handle of KIND 00 or 01 names: its context and reason must agree. -/
def State.frozenMaster (s : State) (hd : Nat) : Option Hart :=
  match s.hart? (handleId hd) with
  | none => none
  | some h =>
    if h.ctx ≠ handleCtx hd then none
    else if bits hd 62 2 = 0 then (if h.frozen.isSome ∧ h.frozenReason = handleReason hd then some h else none)
    else
      match h.entry? (handleQueue hd) (handleSlot hd) with
      | some e => if e.frozen = some (handleReason hd) then some h else none
      | none => none

/-- The requests of a requester that are non-posted complete with Unsupported Request (R183, R403). -/
def State.unsupported (s : State) (rid : Nat) (l : List Inbound) : State :=
  l.foldl (fun s x => if x.wr then s else s.send (.ur rid)) s

/-- ACT 01 on a master handle (R183). -/
def State.unfreeze (s : State) (hd : Nat) : State :=
  if bits hd 62 2 = 2 then
    let rid := bits hd 32 16
    let q := s.requester rid
    if q.reason = 0 then s
    else ((s.setRequester { q with reason := 0, requests := q.requests.filter fun x => !x.frozen }).unsupported rid
      (q.requests.filter fun x => x.frozen)).inboundRun rid q.requests.length
  else
    match s.frozenMaster hd with
    | none => s
    | some h =>
      if bits hd 62 2 = 0 then
        match h.frozen with
        | some t => s.thawHart (handleId hd) h t
        | none => s
      else
        s.setHart (handleId hd)
          (h.modEntry (handleQueue hd) (handleSlot hd) fun e => { e with frozen := none, stopped := false })

/-- ACT 10 on a master handle (R183). -/
def State.destroy (s : State) (hd : Nat) : State :=
  if bits hd 62 2 = 2 then
    let rid := bits hd 32 16
    let q := s.requester rid
    if q.reason = 0 then s
    else ((s.setRequester { q with reason := 0, requests := [] }).dropHeldOf fun w => w.master == .inbound rid).unsupported
      rid q.requests
  else
    match s.frozenMaster hd with
    | some h => s.destroyCtx h.ctx
    | none => s

def execUnfreeze (hd : Nat) (s : State) : Out := .next (s.unfreeze hd)
def execDestroy (hd : Nat) (s : State) : Out := .next (s.destroy hd)

/-! ### Array errors (R420) -/

/-- An uncorrectable error in what a hart holds freezes it (R420). -/
def State.arrayFreeze (s : State) (id reason : Nat) : State :=
  match s.hart? id with
  | none => s
  | some h => if h.frozen.isSome then s else s.freezeHart id h reason { cause := .frozen, pc := h.pc, val := 0 }

/-- The read of an array with an uncorrectable error freezes its master (R420): the hart, or with a code of `k` 1 to 3 its
instruction in a slot of queue k - 1. -/
def State.readFreeze (s : State) (id k slot : Nat) : State :=
  match s.hart? id, (if k = 0 then none else Queue.ofCode (k - 1)) with
  | none, _ => s
  | some _, none => s.arrayFreeze id 0x15
  | some h, some q =>
    match h.entry? q slot with
    | some e => if e.frozen.isSome then s else s.freezeEngine id h q slot 0x15
    | none => s

/-- UNCORRECTABLE_ERROR (R253, R420). Sources 0 to 5 are those of HERR, struck by the master `m`: for lane SRAM `pa` 0 is a
register-file bank of the hart, 1 a bank of its lane cache or strip buffer, 2 its tags or masks, others no bank of its (log 22).
Sources 8 and above are those of source - 8 struck by an inbound read of requester `m`. -/
def execUncorrectableError (src die pa m : Nat) (s : State) : Out :=
  let k := src % 8
  let id := bits m 0 13
  let s1 := s.setHerr k die (if k ≤ 1 then id else pa) 6
  if 8 ≤ src then .next (s1.send (.abort m))
  else if k = 0 then
    match s1.hart? id with
    | none => .next s1
    | some h =>
      if pa = 2 then .next (s1.arrayFreeze id 0x14)
      else if 2 < pa then .next s1
      else
        match h.strip with
        | some x => .next (s1.stripFatal id h x)
        | none => if pa = 0 then .next (s1.arrayFreeze id 0x14) else .next (s1.setHart id { h with lcache := [] })
  else if k = 1 then .next (s1.arrayFreeze id 0x14)
  else if k = 3 then
    let t := s1.stn (stnOf id)
    if t.dirty.any fun c => c.1 / 64 == pa / 64 then .next (s1.readFreeze id (bits m 13 2) (bits m 15 6))
    else .next (s1.setStn (stnOf id) { t with clean := erase t.clean (pa / 64) })
  else .next (s1.readFreeze id (bits m 13 2) (bits m 15 6))

/-- CORRECTABLE_ERROR (R420): corrected, with no state change. -/
def execCorrectableError (_src _die _pa : Nat) (s : State) : Out := .next s

end Sys2Proof.Machine
end

