-- ==== Sys2Proof/Machine/Access.lean ====
section
/-! DEFINITION. Scalar accesses to memory (R25, R113, R138, R158, R248), releases and acquires by a hart (R140, R141),
and the address ranges of the instructions of the queues (R24, R227, R237). -/

namespace Sys2Proof.Machine

/-! ### The instructions of the vector memory unit (R227, R231) -/

/-- How an access finds its elements (R227). -/
inductive VAddr where
  | unit | strided | indexed
  deriving DecidableEq, Repr

/-- What a word of the vector memory unit is: a load, a store, or an atomic operation with its code. -/
inductive VDir where
  | load | store
  | amo (op : Nat)
  deriving DecidableEq, Repr

/-- A VMU access: header, data register, addressing, index register, direction, release or acquire scope, mask of a
VLDFF. -/
structure VmuOp where
  hdr : VHdr
  d : Nat
  addr : VAddr
  b : Nat
  dir : VDir
  scope : Option Nat
  ff : Option Nat
  deriving DecidableEq, Repr

/-- A plain VMU access. -/
def vmuPlain (h : VHdr) (d : Nat) (a : VAddr) (b : Nat) (dir : VDir) : VmuOp :=
  { hdr := h, d := d, addr := a, b := b, dir := dir, scope := none, ff := none }

/-- The VMU accesses among the instructions; none for the others, the strip words included. -/
def vmuOp (i : Instr) : Option VmuOp :=
  match i with
  | .vld h d _ => some (vmuPlain h d .unit 0 .load)
  | .vlds h d _ b => some (vmuPlain h d .strided b .load)
  | .vldx h d _ b => some (vmuPlain h d .indexed b .load)
  | .vldff h d _ f => some { vmuPlain h d .unit 0 .load with ff := some f }
  | .vlda h d _ c => some { vmuPlain h d .unit 0 .load with scope := some c }
  | .vst h d _ => some (vmuPlain h d .unit 0 .store)
  | .vsts h d _ b => some (vmuPlain h d .strided b .store)
  | .vstx h d _ b => some (vmuPlain h d .indexed b .store)
  | .vstr h d _ c => some { vmuPlain h d .unit 0 .store with scope := some c }
  | .vamoadd h d _ b => some (vmuPlain h d .indexed b (.amo 0))
  | .vamoor h d _ b => some (vmuPlain h d .indexed b (.amo 1))
  | .vamoand h d _ b => some (vmuPlain h d .indexed b (.amo 2))
  | .vamomin h d _ b => some (vmuPlain h d .indexed b (.amo 3))
  | .vamomax h d _ b => some (vmuPlain h d .indexed b (.amo 4))
  | .vamoswap h d _ b => some (vmuPlain h d .indexed b (.amo 5))
  | .vamocas h d _ b => some (vmuPlain h d .indexed b (.amo 6))
  | _ => none

/-- STRIP.COMMIT or STRIP.ABORT. -/
def endsStrip (i : Instr) : Bool := stripWord i == some false

/-- The byte range, from lo to below hi, that a unit-stride or strided access may touch, known at its capture (R138);
a range that leaves the address space counts as all of it. -/
def Entry.vmuSpan (e : Entry) : Option (Nat × Nat) :=
  match vmuOp e.op with
  | none => none
  | some o =>
    let w := (VT.of e.vtype).wd
    let b0 : Int := 8 * (e.ga.toNat : Int)
    let step : Int := match o.addr with
      | .strided => e.gb.toInt
      | _ => w
    let b1 := b0 + ((e.vl : Int) - 1) * step
    let lo := min b0 b1 / 8
    let hi := (max b0 b1 + w + 7) / 8
    if o.addr = .indexed ∨ e.vl = 0 then none
    else if lo < 0 ∨ (2 ^ 64 : Nat) < hi then some (0, 2 ^ 64)
    else some (lo.toNat, hi.toNat)

/-- An engine transfer of the stream queue (R24). -/
def isTransfer (i : Instr) : Bool :=
  match i with
  | .sunbind _ _ => false
  | _ => true

/-- Two byte ranges overlap. -/
def meets (lo hi lo' hi' : Nat) : Bool := decide (lo < hi') && decide (lo' < hi)

/-- A conflict with the interlock table (R25), for an access dispatched after transfer number `before`'s elders; the
transfers `fed` feed counters on which the access chains. Two reads are kept in order too (R138 case 1), but behind a binding,
whose entry lasts until SUNBIND though its SBIND has retired (R317). -/
def Hart.ilkHit (h : Hart) (before lo hi : Nat) (wr : Bool) (fed : List Nat) : Bool :=
  h.ilk.any fun k => decide (k.seq < before) && !fed.contains k.seq && meets lo hi k.lo k.hi &&
    (wr || k.wr || !h.binds.any fun b => b.1 == k.seq)

/-- An open strip buffers a byte of the 64-byte virtual line of `va` (R247). -/
def Strip.holdsLine (x : Strip) (va : Nat) : Bool := x.buf.any fun c => c.1 / 64 == va / 64

/-- Bytes that join the buffer of a strip (R247); a new line goes to the group of grant index `idx`. -/
def Strip.join (x : Strip) (idx : Nat) (cs : List Host.Cell) : Strip :=
  { x with buf := cs.foldl (fun (l : List Host.Cell) (c : Host.Cell) => put l c.1 c.2) x.buf,
           at_ := cs.foldl (fun l c => if (find? l (c.1 / 64)).isSome then l else put l (c.1 / 64) idx) x.at_ }

/-- The open strip whose buffer takes part in a scalar access (R248). -/
def Hart.stripAt (h : Hart) (va : Nat) : Option Strip :=
  h.strip.bind fun x => if x.holdsLine va then some x else none

/-- A scalar access of n bytes waits (R25, R138, R248): for an interlock entry, for an engine transfer or an indexed
VMU access that has not issued, for an overlapping VMU access, for a vector acquire (R141), or for the end of the
strip that holds its line. -/
def Hart.accessWaits (h : Hart) (va n : Nat) (wr : Bool) : Bool :=
  h.ilkHit h.seq va (va + n) wr [] ||
  (h.sq.any fun e => isTransfer e.op && !e.started) ||
  (h.vq.any fun v =>
    (match vmuOp v.e.op with
     | some o => (o.addr == .indexed && !v.e.started) || (o.scope.isSome && o.dir == .load)
     | none => false) ||
    (match v.e.vmuSpan with
     | some r => meets va (va + n) r.1 r.2
     | none => false) ||
    (endsStrip v.e.op && (h.stripAt va).isSome))

/-- A device-class access waits for older VMU instructions (R138): not yet probed, or with device-class elements. -/
def Hart.deviceWaits (h : Hart) : Bool :=
  h.vq.any fun v => (vmuOp v.e.op).isSome && (!v.e.probed || v.e.part.seen)

/-! ### What is pending (R140, R143) -/

/-- Row capacity of a bound register (R317). -/
def Hart.ringCap (h : Hart) (b : Binding) : Nat := h.lanes * b.epl

/-- Element s of a bound stream may land in a ring of C elements (R317): it lies within the ring, or some consumer
covers the element that it replaces and every consumer that covers it has passed it. -/
def Binding.canLand (b : Binding) (C s : Nat) : Bool :=
  b.issued && decide (s < b.n) &&
  (decide (s < C) ||
   (decide (s - C < b.pos) &&
    b.cons.all fun c => !(decide (c.2.1 ≤ s - C) && decide (s - C < c.2.1 + c.2.2.1)) ||
      decide (s - C < c.2.1 + c.2.2.2)))

/-- A FLUSH that has not taken effect: its buffered stores take their place there (R249, R251). -/
def Hart.flushPending (h : Hart) : Bool := h.sbpend.any fun p => p.2.getLsbD 63 && !p.2.getLsbD 62

/-- Accesses of the hart that are not performed: in its queues, of a FLUSH, or of a bound stream that can still land. -/
def Hart.memPending (h : Hart) : Bool :=
  h.flushPending || (h.vq.any fun v => (vmuOp v.e.op).isSome || endsStrip v.e.op) ||
  (h.sq.any fun e => isTransfer e.op) ||
  (h.slots.toList.any fun t =>
    match t.bind.bind fun k => find? h.binds k with
    | some b => !t.stopped && b.canLand (h.ringCap b) t.ea
    | none => false)

/-- VMU stores, those of a FLUSH among them, and vector AMOs that are not performed (R143). -/
def Hart.storesPending (h : Hart) : Bool :=
  h.flushPending || h.vq.any fun v =>
    (match vmuOp v.e.op with
     | some o => o.dir != .load
     | none => false) || endsStrip v.e.op

/-! ### Releases by a hart (R140) -/

/-- Posted transfers of a hart that are not acknowledged (R140 step 3). -/
def State.posted (s : State) (id : Nat) : Bool := s.dies.any fun d => d.2.inflight.any fun x => x.poster == some id

/-- Steps 1 to 3 of a release by a hart: not complete while accesses are pending or a write-back is held. -/
def State.release (s : State) (id : Nat) (h : Hart) (scope : Nat) : State × Bool :=
  if h.memPending then (s, false)
  else
    let r := s.releaseHome id scope (heldOf (.hart id) h.ctx (Config.failedAddress s.tick) false .again)
    (r.1, r.2 && !(scope == 7 && r.1.posted id))

/-- An instruction that goes on once its release is complete, and otherwise stalls. -/
def onRelease (s : State) (id : Nat) (h : Hart) (scope : Nat) (k : State → Hart → Out) : Out :=
  let r := s.release id h scope
  if r.2 then
    match r.1.hart? id with
    | some h' => k r.1 h'
    | none => .next r.1
  else .next r.1

/-! ### One scalar access -/

/-- The home of an address cannot be reached (R407). -/
def State.cutOff (s : State) (id pa : Nat) : Bool := !s.reaches (dieOf id) (homeDie pa)

/-- A cached read finds every byte in the station (R112). -/
def State.stationHas (s : State) (k pa n : Nat) : Bool :=
  let t := s.stn k
  (find? t.clean (pa / 64)).isSome || (span pa n).all fun a => (find? t.dirty a).isSome

/-- The common part of a scalar access (R158, R160): it stalls, traps, or goes on with its translation. -/
def access (s : State) (id : Nat) (h : Hart) (va n : Nat) (k : AKind) (go : State → Xlat → Out) : Out :=
  if h.accessWaits va n (k != .r) || s.walkAway (h.who id) va n then .next s
  else
    match s.probe1 (h.who id) { e := 0, va := va, n := n, k := k, al := n } with
    | some (c, a) => trapAt s id h c (w64 a)
    | none =>
      match s.xlat (h.who id) va with
      | none => .next s
      | some x =>
        if pathOf x = .device && h.deviceWaits then .next s
        else if s.cutOff id x.pa && !(pathOf x == .cached && s.stationHas (stnOf id) x.pa n) then .next s
        else go (s.tlbFill (h.who id) va x) x

/-- Bytes read, those that the open strip buffers taken from it (R248). -/
def overStrip (h : Hart) (va : Nat) (bs : List Byte) : List Byte :=
  match h.stripAt va with
  | none => bs
  | some x => bs.zipIdx.map fun b => (find? x.buf (va + b.2)).getD b.1

/-- The threshold of a path (R352). -/
def thrOf (x : Xlat) : Thr := if pteIdem x.pte then .device else .ordinary

/-- A held access of a hart at home. -/
def heldAt (id : Nat) (h : Hart) (va : Nat) (x : Xlat) (f : Finish) : HeldWrite :=
  heldOf (.hart id) h.ctx va (pteIdem x.pte) f

/-- n bytes read at home for hart `id` (R135, R357): none while a recall is held, as `hw` says by whom. -/
def State.readHome (s : State) (id n : Nat) (x : Xlat) (hw : HeldWrite) : State × Option (List Byte) :=
  match regionOf x.pa with
  | .dev _ _ =>
    let r := s.devRead (some id) x.pa n
    (r.1, some (toBytes n r.2.toNat))
  | _ =>
    let r := s.recallFor x.pa (thrOf x) hw
    (r.1, if r.2 then some (Memory.readN r.1.mem x.pa n) else none)

/-- n bytes read as a master of the station reads them (R135). -/
def State.readBytes (s : State) (id n : Nat) (x : Xlat) (hw : HeldWrite) : State × Option (List Byte) :=
  match pathOf x with
  | .cached =>
    if s.stationHas (stnOf id) x.pa n then (s, some ((span x.pa n).map (s.stationByte (stnOf id))))
    else
      let r := s.recallFor x.pa .ordinary hw
      if r.2 then
        let q := r.1.fillLines (stnOf id) x.pa n hw
        (q.1, if q.2 then some ((span x.pa n).map (q.1.stationByte (stnOf id))) else none)
      else (r.1, none)
  | _ => s.readHome id n x hw

/-- n bytes as an acquire at a scope reads them (R141 step 1): dirty copies in the station go home first. -/
def State.acquireRead (s : State) (id n : Nat) (x : Xlat) (scope : Nat) (hw : HeldWrite) : State × Option (List Byte) :=
  if atHome scope && pathOf x == .cached then
    let r := s.writeBack (stnOf id) (fun a => decide (x.pa ≤ a) && decide (a < x.pa + n)) hw
    if r.2 then r.1.readHome id n x hw else (r.1, none)
  else s.readBytes id n x hw

/-- A scalar load (R158): `w` writes the register from the bytes read. -/
def scalarLoad (a i n : Nat) (w : Hart → Nat → Hart) (s : State) : Out :=
  onHart s fun id h =>
    let va := (h.rg a + sext64 16 i).toNat
    access s id h va n .r fun s x =>
      let r := s.readBytes id n x (heldAt id h va x .again)
      match r.2 with
      | none => .next r.1
      | some bs => .next (r.1.modHart id fun h => (w h (ofBytes (overStrip h va bs))).advance)

/-- The store of n bytes: into the strip, the station, a device register or home. It is performed inside its own
instruction, though case 2 of R138 also lets a younger load of other bytes be performed first (DESIGN CHOICE, log 3: one of
the orders that R138 allows). -/
def State.storeBytes (s : State) (id : Nat) (h : Hart) (va n v : Nat) (x : Xlat) (atHome : Bool) : State :=
  match h.stripAt va with
  | some t =>
    s.setHart id { h with strip := some (t.join 0 (cellsAt va n v)) }.advance
  | none =>
    let cs := cellsAt x.pa n v
    let k := stnOf id
    match pathOf x with
    | .cached =>
      if atHome then
        let r := s.homeWrite cs .ordinary { heldAt id h va x (.done none) with wb := some k }
        if r.2 then
          let t := r.1.stn k
          let dirty := t.dirty.filter fun c => !(cs.any fun b => b.1 == c.1)
          (r.1.setStn k { t with dirty := dirty }).modHart id Hart.advance
        else r.1
      else
        let r := s.stationWrite k cs (heldAt id h va x .again)
        if r.2 then r.1.modHart id Hart.advance else r.1
    | _ =>
      match regionOf x.pa with
      | .dev _ _ => (s.devWrite (some id) x.pa n (w64 v)).modHart id Hart.advance
      | _ =>
        let r := s.homeWrite cs (thrOf x) (heldAt id h va x (.done none))
        if r.2 then r.1.modHart id Hart.advance else r.1

/-- A scalar store (R158) of the low n bytes of `v`. -/
def scalarStore (a i n : Nat) (v : Hart → Nat) (s : State) : Out :=
  onHart s fun id h =>
    let va := (h.rg a + sext64 16 i).toNat
    access s id h va n .w fun s x => .next (s.storeBytes id h va n (v h) x false)

end Sys2Proof.Machine
end

