-- ==== Sys2Proof/Machine/Atomic.lean ====
section
/-! DEFINITION. Scalar atomics, LDA and STR (R146, R160). -/

namespace Sys2Proof.Machine

/-- Bytes of a width code: .w 4, .d 8. -/
def amoBytes (w : Nat) : Nat := if w = 0 then 4 else 8

/-- The old value in gD. -/
def Hart.amoDone (h : Hart) (d n old : Nat) : Hart := (h.setG d (sext64 (8 * n) old)).advance

/-- An AMO at home (R146): to a cached page, dirty copies of its bytes are written back first, and clean ones are
updated; station copies of other pages are neither read nor updated (R122). -/
def State.amoHome (s : State) (id : Nat) (h : Hart) (va n op y c d : Nat) (x : Xlat) : State :=
  let k := stnOf id
  let hw := heldAt id h va x (.amo op n y c d)
  let r := if pathOf x = .cached then
      s.writeBack k (fun a => decide (x.pa ≤ a) && decide (a < x.pa + n)) { hw with finish := .again }
    else (s, true)
  if !r.2 then r.1
  else
    let q := r.1.recallFor x.pa (thrOf x) { hw with finish := .again }
    if !q.2 then q.1
    else
      let old := Memory.num q.1.mem x.pa n
      let w := q.1.homeWrite (q.1.amoCells x.pa op n y c true) (thrOf x)
        (if pathOf x = .cached then { hw with wb := some k } else hw)
      if w.2 then w.1.modHart id fun h => h.amoDone d n old else w.1

/-- An AMO at the station-cache slice (R146). -/
def State.amoStation (s : State) (id : Nat) (h : Hart) (va n op y c d : Nat) (x : Xlat) : State :=
  let k := stnOf id
  let r := s.readBytes id n x (heldAt id h va x .again)
  match r.2 with
  | none => r.1
  | some bs =>
    let old := ofBytes bs
    let w := match amoNew op n old y c true with
      | some z => r.1.stationWrite k (cellsAt x.pa n z) (heldAt id h va x .again)
      | none => (r.1, true)
    if w.2 then w.1.modHart id fun h => h.amoDone d n old else w.1

/-- An AMO on a line that the open strip buffers (R248). -/
def State.amoStrip (s : State) (id : Nat) (h : Hart) (va n op y c d : Nat) (x : Xlat) (t : Strip) : State :=
  let r := s.readBytes id n x (heldAt id h va x .again)
  match r.2 with
  | none => r.1
  | some bs =>
    let old := ofBytes (overStrip h va bs)
    let t' := match amoNew op n old y c true with
      | some z => t.join 0 (cellsAt va n z)
      | none => t
    r.1.modHart id fun h => { h with strip := some t' }.amoDone d n old

/-- The AMO operations that a host region accepts: FetchAdd, Swap, CAS (R160). -/
def hostAmo (op : Nat) : Bool := op == 0 || op == 5 || op == 6

/-- An AMO (R160): operation, destination, address register, operand register, scope, width. -/
def amo (op d a b sc w : Nat) (s : State) : Out :=
  onHart s fun id h =>
    let n := amoBytes w
    let va := (h.rg a).toNat
    let y := (h.rg b).toNat
    let c := (h.rg d).toNat
    access s id h va n .rw fun s x =>
      match h.stripAt va with
      | some t => .next (s.amoStrip id h va n op y c d x t)
      | none =>
        match regionOf x.pa with
        | .dev _ _ => trapAt s id h .pgfltW (w64 va)
        | .host =>
          if hostAmo op then .next (s.amoHome id h va n op y c d x) else trapAt s id h .pgfltW (w64 va)
        | _ =>
          if pathOf x = .cached ∧ !atHome sc then .next (s.amoStation id h va n op y c d x)
          else .next (s.amoHome id h va n op y c d x)

def execAmoadd (d a b sc w : Nat) (s : State) : Out := amo 0 d a b sc w s
def execAmoor (d a b sc w : Nat) (s : State) : Out := amo 1 d a b sc w s
def execAmoand (d a b sc w : Nat) (s : State) : Out := amo 2 d a b sc w s
def execAmomin (d a b sc w : Nat) (s : State) : Out := amo 3 d a b sc w s
def execAmomax (d a b sc w : Nat) (s : State) : Out := amo 4 d a b sc w s
def execAmoswap (d a b sc w : Nat) (s : State) : Out := amo 5 d a b sc w s
def execAmocas (d a b sc w : Nat) (s : State) : Out := amo 6 d a b sc w s

/-- LDA (R160): a load that is an acquire at its scope. -/
def execLda (d a sc w : Nat) (s : State) : Out :=
  onHart s fun id h =>
    let n := amoBytes w
    let va := (h.rg a).toNat
    access s id h va n .r fun s x =>
      let r := s.acquireRead id n x sc (heldAt id h va x .again)
      match r.2 with
      | none => .next r.1
      | some bs =>
        let z := ofBytes (overStrip h va bs)
        .next ((r.1.modHart id fun h => (h.setG d (sext64 (8 * n) z)).advance).acquire id sc)

/-- STR (R160): a release at its scope, then the store. -/
def execStr (a b sc w : Nat) (s : State) : Out :=
  onHart s fun id h =>
    let n := amoBytes w
    let va := (h.rg a).toNat
    access s id h va n .w fun s x =>
      onRelease s id h sc fun s h => .next (s.storeBytes id h va n (h.rg b).toNat x (atHome sc))

end Sys2Proof.Machine
end

