-- ==== Sys2Proof/Machine/Tables.lean ====
section
/-! DEFINITION. The tables of VEXP2 and VLOG2 (R222, R223). -/

namespace Sys2Proof.Machine

/-- T[j]: 2^(j/64) * 2^30 rounded to the nearest integer (R222). -/
def exp2Table : List Nat :=
  [1073741824, 1085434106, 1097253708, 1109202018, 1121280436, 1133490379, 1145833280, 1158310587,
   1170923762, 1183674286, 1196563654, 1209593378, 1222764986, 1236080024, 1249540052, 1263146652,
   1276901417, 1290805962, 1304861917, 1319070932, 1333434672, 1347954824, 1362633090, 1377471191,
   1392470869, 1407633882, 1422962010, 1438457051, 1454120821, 1469955159, 1485961921, 1502142985,
   1518500250, 1535035634, 1551751076, 1568648537, 1585730000, 1602997467, 1620452965, 1638098541,
   1655936265, 1673968228, 1692196547, 1710623359, 1729250827, 1748081133, 1767116489, 1786359126,
   1805811301, 1825475297, 1845353420, 1865448001, 1885761398, 1906295993, 1927054196, 1948038440,
   1969251188, 1990694927, 2012372174, 2034285470, 2056437387, 2078830522, 2101467502, 2124350982]

/-- LG[j]: -log2(RC[j] * 2^-30) * 2^30 rounded to the nearest integer (R223). -/
def log2Table : List Int :=
  [0, 24017256, 47667823, 70962728, 93912511, 116527249, 138816582, 160789745,
   182455581, 203822568, 224898838, 245692198, 266210141, 286459867, 306448298, 326182095,
   345667660, 364911161, 383918542, 402695523, 421247625, 439580171, 457698295, 475606957,
   493310944, 510814882, 528123240, 545240343, 562170370, 578917365, 595485245, 611877800,
   628098702, 644151509, 660039670, 675766524, 691335320, 706749198, 722011214, 737124328,
   752091421, 766915285, 781598637, 796144115, 810554284, 824831638, 838978603, 852997541,
   866890746, 880660456, 894308842, 907838030, 921250079, 934547002, 947730758, 960803258,
   973766363, 986621888, 999371608, 1012017244, 1024560485, 1037002979, 1049346326, 1061592099]

/-- RC[j]: 2^36 / (64 + j) rounded to the nearest integer (R223). -/
def recipOf (j : Nat) : Nat := (2 * 2 ^ 36 + (64 + j)) / (2 * (64 + j))

/-- The integer procedure of R222 for x within -1024 to 1024: y and n, the result being y * 2^(n - 30). -/
def exp2Int (xc : Rat) : Nat × Int :=
  let n := xc.floor
  let F := ((xc - n) * 2 ^ 30).floor.toNat
  let j := F / 2 ^ 24
  let r := F % 2 ^ 24
  let s := r * r / 2 ^ 30
  let c := s * r / 2 ^ 30
  let p := 2 ^ 30 + 744261118 * r / 2 ^ 30 + 257941248 * s / 2 ^ 30 + 59597083 * c / 2 ^ 30
  ((exp2Table[j]?).getD 0 * p / 2 ^ 30, n)

/-- The integer procedure of R223 for a positive finite x: ex + z * 2^-30. -/
def log2Rat (x : Rat) : Rat :=
  let ex := ilog2 x
  let M := ((x * pow2 (-ex) - 1) * 2 ^ 30).floor.toNat
  let j := M / 2 ^ 24
  let u : Int := (((2 ^ 30 + M) * recipOf j / 2 ^ 30 : Nat) : Int) - 2 ^ 30
  let s := u * u / 2 ^ 30
  let c := s * u / 2 ^ 30
  let z : Int := (log2Table[j]?).getD 0 + 1549082005 * u / 2 ^ 30 - 774541002 * s / 2 ^ 30 + 516360668 * c / 2 ^ 30
  (ex : Rat) + (z : Rat) / 2 ^ 30

end Sys2Proof.Machine
end

