-- ==== Sys2Proof/Machine/Flags.lean ====
section
/-! DEFINITION. FFLAGS and the gathering of flags (R151, R153, R208). -/

namespace Sys2Proof.Machine

/-- FFLAGS as SYSRD reads it (R151): bits [7:0]. -/
def Hart.fflagsRead (h : Hart) : W64 := w64 (h.fflags % 256)

/-- A write to FFLAGS (R151): bits [7:0], the others are reserved. -/
def Hart.fflagsWrite (h : Hart) (x : W64) : Hart := { h with fflags := x.toNat % 256 }

/-- The flags of a list of element results (R208). -/
def flagsOf (l : List (Nat × Nat)) : Nat := l.foldl (fun a r => a ||| r.2) 0

/-- A flag when a condition holds. -/
def flagIf (c : Bool) (fl : Nat) : Nat := if c then fl else 0

/-- A scalar FPU result in an f-register with its flags (R153, R159). -/
def fpuOp (s : State) (d : Nat) (f : Hart → Nat × Nat) : Out :=
  onHart s fun id h => finish s id ((h.setF d (BitVec.ofNat 32 (f h).1)).orFlags (f h).2)

/-- A scalar FPU result in a g-register with its flags (R153, R159). -/
def fpuToG (s : State) (d : Nat) (f : Hart → W64 × Nat) : Out :=
  onHart s fun id h => finish s id ((h.setG d (f h).1).orFlags (f h).2)

end Sys2Proof.Machine
end

