-- ==== Sys2Proof/Machine/Vector.lean ====
section
/-! DEFINITION. What an instruction of the vector queue is: its checks at decode, the registers it names, and what it
does to a range of elements (R88, R184 to R223). The families give each instruction its `VSpec`. -/

namespace Sys2Proof.Machine

/-- Functional-unit classes (R88). -/
inductive FU where
  | a | b | l | s | p | t
  deriving DecidableEq, Repr

def FU.code : FU → Nat
  | .a => 0
  | .b => 1
  | .l => 2
  | .s => 3
  | .p => 4
  | .t => 5

/-- What an instruction sees while it runs: its hart, its entry, its captured VTYPE and its effective VL (R191). -/
structure VEnv where
  h : Hart
  e : Entry
  vt : VT
  V : Nat
  msk : Nat

/-- What the run of a range of elements gives: results by element, results of the second destination, flags, the
partial state, and the elements that become undefined. -/
structure VOut where
  res : List (Nat × Nat)
  res2 : List (Nat × Nat)
  flags : Nat
  part : Partial

/-- An instruction of the vector queue. -/
structure VSpec where
  hdr : VHdr
  cls : List FU
  /-- v-register fields, which R40 limits. -/
  vf : List Nat
  /-- xacc fields, which must be 0 to 3 (R290, R31). -/
  xf : List Nat
  /-- Registers read and written, in registers: first and count in units of GROUP (R184). -/
  rd : List Nat
  wr : List Nat
  mrd : List Nat
  mwr : List Nat
  /-- A mask is required (R33). -/
  needMask : Bool
  /-- The checks of R46, R47 and the entry's own, given VTYPE and the register count (R50 step 3). -/
  legal : VT → Nat → Bool
  /-- It rounds under VTYPE.RM (R207, R283). -/
  rounds : VT → Bool
  /-- ILLWIDTH at issue (R189). -/
  wide : VEnv → Bool
  /-- The run of the elements from `lo` to below `hi`. -/
  run : VEnv → (lo hi : Nat) → VOut
  /-- What retire writes, with `seed` for undefined contents. -/
  commit : VEnv → (seed : Nat) → Hart
  /-- Cycles of each step of the element group from `lo`, reshuffles included (R195 to R199). -/
  steps : VEnv → (lo : Nat) → List Nat
  /-- ILLINS at issue (R297). -/
  ill : VEnv → Bool := fun _ => false
  /-- The elements it runs over: V, or 1 for an instruction that does not depend on VL. -/
  len : VEnv → Nat := fun n => n.V
  /-- Its effect at dispatch, with the captured gB (R295). -/
  atDispatch : Hart → W64 → Hart := fun h _ => h
  /-- It waits for the whole row of its producers (R90): P class, reductions and scans. -/
  row : Bool := false
  /-- The elements of its sources that it may read: those below V, or 0 to 4 (R296). -/
  reach : VEnv → Nat := fun n => n.V
  /-- First registers of runs of two groups that it reads and writes (R290). -/
  rdPair : List Nat := []
  wrPair : List Nat := []

def VEnv.g (n : VEnv) : Nat := n.vt.g

/-- The binding is in force for an instruction with dispatch number `seq` (R318). -/
def bindingFor (seq : Nat) (b : Nat × Binding) : Bool :=
  decide (b.1 < seq) && (match b.2.closed with
    | some c => decide (seq < c)
    | none => true)

/-- The tag that SBIND gives its register at dispatch (R317). -/
def Binding.tag (b : Binding) : Tag := { w := b.w, p := b.w, sgn := kindSigned b.kind }

/-- The register of a binding carries its tag. -/
def Binding.tagged (b : Binding) (h : Hart) : Hart :=
  { h with v := mapRegs h.v b.vd b.grp fun _ r => { r with tag := some b.tag } }

/-- The tags as an entry sees them: those of the bindings that were dispatched before it (R186, R317). -/
def Hart.bindTags (h : Hart) (e : Entry) : Hart :=
  (h.binds.filter (bindingFor e.seq)).foldl (fun h b => b.2.tagged h) h

/-- The environment of an entry. -/
def VEnv.of (h : Hart) (e : Entry) (mk : Nat) : VEnv :=
  { h := h.bindTags e, e := e, vt := VT.of e.vtype, V := e.eff, msk := mk }

/-- Active elements (R191). -/
def VEnv.active (n : VEnv) (e : Nat) : Bool := decide (e < n.V) && (n.msk == 0 || maskBit n.h n.msk e)

/-- The elements of a range that are active, ascending. -/
def VEnv.actives (n : VEnv) (lo hi : Nat) : List Nat := (span lo (min hi n.V - lo)).filter n.active

/-- The rounding mode for element e (R207, R283). -/
def VEnv.rm (n : VEnv) (e : Nat) : Rm := Rm.of n.vt.rm (if n.vt.rm = 5 then srBits n.e.srseed n.e.srctr e else 0)

/-- Element e of register k, read at width w under a kind (R187, R188). A binding gives stream elements (R317). For a float
or storage kind the low w bits are the encoding, whatever width the kind has: an untagged operand is not held to the kind's
width by R189, which leaves that reading open (log 48). -/
def VEnv.rd (n : VEnv) (k w kind e : Nat) : Nat :=
  let bound := n.e.pos.findSome? fun p =>
    match find? n.h.binds p.1 with
    | some b =>
      if b.vd ≤ k ∧ k < b.vd + b.grp then
        some (b.w, (if p.2 + e < b.n then
          (if p.2 + e < b.low then 0 else (b.ring[p.2 + e - b.low]?).getD 0) else 0))
      else none
    | none => none
  match bound with
  | some (bw, x) => if kindInt kind then extend (kindSigned kind) bw w x else x % 2 ^ w
  | none => if kindInt kind then readInt n.h k n.g w (kindSigned kind) e else readElem n.h.v n.h.geo k n.g w e

/-- Where a second operand comes from: a v-register, or the captured gB (R190). -/
inductive Src where
  | v (k : Nat)
  | g
  deriving DecidableEq, Repr

def Src.regs : Src → List Nat
  | .v k => [k]
  | .g => []

/-- The raw second operand for element e at width w under a kind (R187, R190). -/
def VEnv.src (n : VEnv) (b : Src) (w kind e : Nat) : Nat :=
  match b with
  | .v k => n.rd k w kind e
  | .g => lowBits n.e.gb w

/-- ILLWIDTH of a v-operand under the kind of VTYPE read at w (R189). -/
def VEnv.bad (n : VEnv) (k w : Nat) : Bool := !kindInt n.vt.kind && illWidth n.h k n.vt.kind w

/-- ILLWIDTH of a second operand (R189, R190). -/
def VEnv.badSrc (n : VEnv) (b : Src) (w : Nat) : Bool :=
  match b with
  | .v k => n.bad k w
  | .g => !kindInt n.vt.kind && w != kindWidth n.vt.kind

/-- Signed destination (R186). -/
def VEnv.sgn (n : VEnv) : Bool := kindSigned n.vt.kind
def VEnv.fmt (n : VEnv) : Fmt := Fmt.ofKind n.vt.kind

/-- write() of R203 for the destination. -/
def VEnv.write (n : VEnv) (z : Int) : Nat × Nat := writeRaw n.sgn n.vt.wd n.vt.sat z
def VEnv.clamp (n : VEnv) (z : Int) : Nat × Nat := clampRaw n.sgn n.vt.wd z
/-- ext() of R203. -/
def VEnv.ext (n : VEnv) (w x : Nat) : Nat := extend n.sgn w n.vt.wd x
/-- The raw integer of an operand. -/
def VEnv.raw (n : VEnv) (w x : Nat) : Int := rawInt n.vt.kind w x
def VEnv.fresult (n : VEnv) (e : Nat) (ops : List Val) (x : Exact) : Nat × Nat := n.fmt.result n.vt.sat (n.rm e) ops x

/-- Results of an element-wise operation over a range: values and flags. -/
def runElems (n : VEnv) (lo hi : Nat) (f : Nat → Nat × Nat) : VOut :=
  let r := (n.actives lo hi).map fun e => (e, f e)
  { res := r.map fun x => (x.1, x.2.1), res2 := [], flags := flagsOf (r.map Prod.snd), part := n.e.part }

/-- Retire of a v-destination (R192, R193). -/
def commitV (d : Nat) (n : VEnv) (seed : Nat) : Hart :=
  writeRow n.h seed d n.g n.vt.wd (kindInt n.vt.kind) n.sgn n.V n.e.res []

/-- Retire of a permute whose destination may overlap its sources (R194): then every element below V is undefined. -/
def commitPerm (d : Nat) (srcs : List Nat) (n : VEnv) (seed : Nat) : Hart :=
  if srcs.contains d then
    writeRow n.h seed d n.g n.vt.wd (kindInt n.vt.kind) n.sgn n.V n.e.res (List.range n.V)
  else commitV d n seed

/-- Retire of a mask destination (R192). -/
def commitM (d : Nat) (n : VEnv) (_seed : Nat) : Hart := writeMask n.h d n.e.res

/-! ### Cycles (R195 to R199) -/

/-- Live planes of a source (R186, R188, R190). -/
def VEnv.planes (n : VEnv) (b : Src) (w : Nat) : Nat :=
  match b with
  | .v k => livePlanes n.h k w n.sgn
  | .g => planesOf n.sgn w (lowBits n.e.gb w)

/-- The reshuffle step of a v-source read at w under a kind (R188, R199). -/
def VEnv.shuffle (n : VEnv) (k w kind : Nat) : List Nat :=
  match tagW n.h k with
  | some t => if t = w ∨ !kindInt kind then [] else [max t w + 1]
  | none => []

def VEnv.shuffleSrc (n : VEnv) (b : Src) (w kind : Nat) : List Nat :=
  match b with
  | .v k => n.shuffle k w kind
  | .g => []

/-- The reshuffle of the source a read at WA under VTYPE.KIND. -/
def VEnv.shuffleA (n : VEnv) (a : Nat) : List Nat := n.shuffle a n.vt.wa n.vt.kind

/-- The column of R198 for a kind. -/
def floatCycles (kind fp32 bf16 fp16 fp8 : Nat) : Nat :=
  match kind with
  | 4 => fp32
  | 5 => bf16
  | 6 => fp16
  | _ => fp8

/-- Planes of the multiplier that are not skipped, the largest over the lane groups (R197). -/
def VEnv.mulPlanes (n : VEnv) (b : Src) (lo : Nat) : Nat :=
  let L := n.h.lanes
  let act := n.actives lo (lo + L)
  let p := n.planes b n.vt.wb
  (List.range (L / 256)).foldl (fun m gi =>
    let es := act.filter fun e => e % L / 256 == gi
    let nb := (List.range p).filter fun j => es.any fun e => (n.src b n.vt.wb n.vt.kind e).testBit j
    max m nb.length) 0

/-- The steps of an instruction of one source a and one source b: the int count, or the float column. -/
def cyc2 (a : Nat) (b : Src) (int : (a b : Nat) → Nat) (flt : Nat) (n : VEnv) (_lo : Nat) : List Nat :=
  if kindInt n.vt.kind then
    n.shuffleA a ++ n.shuffleSrc b n.vt.wb n.vt.kind ++ [int (n.planes (.v a) n.vt.wa) (n.planes b n.vt.wb)]
  else [flt]

/-! ### Legality by kind (R46) -/

def legalAny (_ : VT) (_ : Nat) : Bool := true
def legalInt (t : VT) (_ : Nat) : Bool := kindInt t.kind
def legalIF (t : VT) (_ : Nat) : Bool := kindInt t.kind || kindFloat t.kind
/-- fp32, bf16, fp16. -/
def legalF3 (t : VT) (_ : Nat) : Bool := t.kind == 4 || t.kind == 5 || t.kind == 6
def noRound (_ : VT) : Bool := false

/-- An element-wise operation with a v-destination (R202, R204, R206): the mould of the arithmetic entries. -/
def elemSpec (h : VHdr) (c : FU) (d a : Nat) (b : Src) (macc : Bool) (legal : VT → Nat → Bool) (rounds : VT → Bool)
    (f : VEnv → (x y e : Nat) → Nat × Nat) (steps : VEnv → Nat → List Nat) : VSpec :=
  { hdr := h, cls := [c], vf := d :: a :: b.regs, xf := [], rd := (if macc then [d] else []) ++ a :: b.regs, wr := [d],
    mrd := (if h.msk = 0 then [] else [h.msk]), mwr := [], needMask := false, legal := legal, rounds := rounds,
    wide := fun n => n.bad a n.vt.wa || n.badSrc b n.vt.wb || (macc && n.bad d n.vt.wd),
    run := fun n lo hi => runElems n lo hi fun e =>
      f n (n.rd a n.vt.wa n.vt.kind e) (n.src b n.vt.wb n.vt.kind e) e,
    commit := commitV d, steps := steps }

/-- A unary element-wise operation. -/
def unarySpec (h : VHdr) (c : FU) (d a : Nat) (legal : VT → Nat → Bool) (rounds : VT → Bool)
    (f : VEnv → (x e : Nat) → Nat × Nat) (steps : VEnv → Nat → List Nat) : VSpec :=
  { hdr := h, cls := [c], vf := [d, a], xf := [], rd := [a], wr := [d],
    mrd := (if h.msk = 0 then [] else [h.msk]), mwr := [], needMask := false, legal := legal, rounds := rounds,
    wide := fun n => n.bad a n.vt.wa,
    run := fun n lo hi => runElems n lo hi fun e => f n (n.rd a n.vt.wa n.vt.kind e) e,
    commit := commitV d, steps := steps }

/-- The predicate read (R33). -/
def maskReads (h : VHdr) : List Nat := if h.msk = 0 then [] else [h.msk]

end Sys2Proof.Machine
end

