-- ==== Sys2Proof/Machine/VecOps.lean ====
section
/-! DEFINITION. The element operations of the vector engine (R203 to R223) and the `VSpec` of each operation of R46. -/

namespace Sys2Proof.Machine

/-! ### Arithmetic (R204, R206) -/

/-- An element operation that is one thing under an int kind and another under a float kind. -/
def intOr (i : VEnv → (x y : Int) → Nat × Nat) (f : VEnv → (x y : Val) → Nat → Nat × Nat) (n : VEnv) (x y e : Nat) :
    Nat × Nat :=
  if kindInt n.vt.kind then i n (n.raw n.vt.wa x) (n.raw n.vt.wb y)
  else f n (n.fmt.value x) (n.fmt.value y) e

def addOp : VEnv → Nat → Nat → Nat → Nat × Nat :=
  intOr (fun n x y => n.write (x + y)) fun n x y e => n.fresult e [x, y] (exactAdd (n.rm e) x y)
def subOp : VEnv → Nat → Nat → Nat → Nat × Nat :=
  intOr (fun n x y => n.write (x - y)) fun n x y e => n.fresult e [x, y] (exactAdd (n.rm e) x y.neg)
def rsubOp : VEnv → Nat → Nat → Nat → Nat × Nat :=
  intOr (fun n x y => n.write (y - x)) fun n x y e => n.fresult e [x, y] (exactAdd (n.rm e) y x.neg)

def minOp (n : VEnv) (x y _e : Nat) : Nat × Nat :=
  if kindInt n.vt.kind then n.write (min (n.raw n.vt.wa x) (n.raw n.vt.wb y)) else n.fmt.minMax false x y
def maxOp (n : VEnv) (x y _e : Nat) : Nat × Nat :=
  if kindInt n.vt.kind then n.write (max (n.raw n.vt.wa x) (n.raw n.vt.wb y)) else n.fmt.minMax true x y

/-- VAND, VOR, VXOR: raw ext() bits. -/
def bitOp (f : Nat → Nat → Nat) (n : VEnv) (x y _e : Nat) : Nat × Nat := (f (n.ext n.vt.wa x) (n.ext n.vt.wb y), 0)

def sllOp (n : VEnv) (x s _e : Nat) : Nat × Nat :=
  (if n.vt.wd ≤ s then 0 else n.ext n.vt.wa x * 2 ^ s % 2 ^ n.vt.wd, 0)
def srlOp (n : VEnv) (x s _e : Nat) : Nat × Nat :=
  (if n.vt.wd ≤ s then 0 else n.ext n.vt.wa x / 2 ^ s, 0)
def sraOp (n : VEnv) (x s _e : Nat) : Nat × Nat :=
  (wrap n.vt.wd (sx n.vt.wd (n.ext n.vt.wa x) / (2 ^ min s n.vt.wd : Nat)), 0)

def saddOp (n : VEnv) (x y _e : Nat) : Nat × Nat := n.clamp (n.raw n.vt.wa x + n.raw n.vt.wb y)
def ssubOp (n : VEnv) (x y _e : Nat) : Nat × Nat := n.clamp (n.raw n.vt.wa x - n.raw n.vt.wb y)
def avgOp (n : VEnv) (x y e : Nat) : Nat × Nat :=
  n.write (roundInt (((n.raw n.vt.wa x + n.raw n.vt.wb y : Int) : Rat) / 2) (n.rm e))

def absOp (n : VEnv) (x _e : Nat) : Nat × Nat :=
  if kindInt n.vt.kind then n.write (n.raw n.vt.wa x).natAbs else (x % 2 ^ (n.fmt.width - 1), 0)
def negOp (n : VEnv) (x _e : Nat) : Nat × Nat :=
  if kindInt n.vt.kind then n.write (-(n.raw n.vt.wa x)) else (x ^^^ 2 ^ (n.fmt.width - 1), 0)

/-- The raw product at FRAC fraction bits, before rounding. -/
def rawMul (n : VEnv) (x y : Int) : Rat := ((x * y : Int) : Rat) / (2 ^ n.vt.frac : Nat)

def mulOp (n : VEnv) (x y e : Nat) : Nat × Nat :=
  if kindInt n.vt.kind then n.write (roundInt (rawMul n (n.raw n.vt.wa x) (n.raw n.vt.wb y)) (n.rm e))
  else n.fresult e [n.fmt.value x, n.fmt.value y] (exactMul (n.fmt.value x) (n.fmt.value y))

def mulhOp (n : VEnv) (x y _e : Nat) : Nat × Nat :=
  n.write (n.raw n.vt.wa x * n.raw n.vt.wb y / (2 ^ n.vt.wd : Nat))

def smulOp (n : VEnv) (x y e : Nat) : Nat × Nat :=
  n.clamp (roundInt (rawMul n (n.raw n.vt.wa x) (n.raw n.vt.wb y)) (n.rm e))

/-- VMACC with destination register d (R187, R204, R206). -/
def maccOp (d : Nat) (n : VEnv) (x y e : Nat) : Nat × Nat :=
  let dv := n.rd d n.vt.wd n.vt.kind e
  if kindInt n.vt.kind then
    n.write (roundInt ((n.raw n.vt.wd dv : Rat) + rawMul n (n.raw n.vt.wa x) (n.raw n.vt.wb y)) (n.rm e))
  else
    let D := n.fmt.value dv
    n.fresult e [D, n.fmt.value x, n.fmt.value y] (exactMacc (n.rm e) D (n.fmt.value x) (n.fmt.value y))

def divOp (n : VEnv) (x y e : Nat) : Nat × Nat :=
  if kindInt n.vt.kind then
    let X := n.raw n.vt.wa x
    let Y := n.raw n.vt.wb y
    if Y = 0 then
      (wrap n.vt.wd (if 0 < X then rawMax n.sgn n.vt.wd else if X < 0 then rawMin n.sgn n.vt.wd else 0), flDZ)
    else n.write (roundInt ((X : Rat) / (Y : Rat) * (2 ^ n.vt.frac : Nat)) .rtz)
  else n.fresult e [n.fmt.value x, n.fmt.value y] (exactDiv (n.fmt.value x) (n.fmt.value y))

def remOp (n : VEnv) (x y _e : Nat) : Nat × Nat :=
  let X := n.raw n.vt.wa x
  let Y := n.raw n.vt.wb y
  if Y = 0 then (0, flDZ) else n.write (X - Y * X.tdiv Y)

/-! ### VEXP2, VLOG2 (R222, R223) -/

def exp2Op (n : VEnv) (x e : Nat) : Nat × Nat :=
  match n.fmt.value x with
  | .nan s => (n.fmt.canonNan, if s then flNV else 0)
  | .inf false => n.fmt.infResult n.vt.sat false
  | .inf true => (0, 0)
  | .fin _ v =>
    let r := exp2Int (min (max v (-1024)) 1024)
    n.fmt.finResult n.vt.sat (n.rm e) false ((r.1 : Rat) * pow2 (r.2 - 30))

def log2Op (n : VEnv) (x e : Nat) : Nat × Nat :=
  match n.fmt.value x with
  | .nan s => (n.fmt.canonNan, if s then flNV else 0)
  | .inf true => (n.fmt.canonNan, flNV)
  | .inf false => n.fmt.infResult n.vt.sat false
  | .fin _ v =>
    if v = 0 then
      let r := n.fmt.infResult n.vt.sat true
      (r.1, r.2 ||| flDZ)
    else if v < 0 then (n.fmt.canonNan, flNV)
    else n.fmt.finResult n.vt.sat (n.rm e) false (log2Rat v)

/-! ### Compares, moves, conversion (R209, R210, R212) -/

/-- The relations of R209. -/
inductive Rel where
  | eq | ne | lt | le | gt | ge
  deriving DecidableEq, Repr

def relInt (r : Rel) (x y : Int) : Bool :=
  match r with
  | .eq => decide (x = y)
  | .ne => decide (x ≠ y)
  | .lt => decide (x < y)
  | .le => decide (x ≤ y)
  | .gt => decide (y < x)
  | .ge => decide (y ≤ x)

def relFloat (r : Rel) (x y : Val) : Bool × Nat :=
  let anyNan := x.isNan || y.isNan
  let nvS := flagIf (x.isSnan || y.isSnan) flNV
  match r with
  | .eq => (!anyNan && x.eqv y, nvS)
  | .ne => (anyNan || !x.eqv y, nvS)
  | .lt => (!anyNan && x.lt y, flagIf anyNan flNV)
  | .le => (!anyNan && (x.lt y || x.eqv y), flagIf anyNan flNV)
  | .gt => (!anyNan && y.lt x, flagIf anyNan flNV)
  | .ge => (!anyNan && (y.lt x || x.eqv y), flagIf anyNan flNV)

def relOp (r : Rel) (n : VEnv) (x y _e : Nat) : Nat × Nat :=
  if kindInt n.vt.kind then (bitOf (relInt r (n.raw n.vt.wa x) (n.raw n.vt.wb y)), 0)
  else
    let q := relFloat r (n.fmt.value x) (n.fmt.value y)
    (bitOf q.1, q.2)

/-- A move of an operand read at w: by value under an int kind, its encoding otherwise (R210, R213 to R215). -/
def VEnv.move (n : VEnv) (w x : Nat) : Nat × Nat :=
  if kindInt n.vt.kind then n.write (n.raw w x) else (x % 2 ^ n.vt.wd, 0)

/-- The second operand of VSEL and VMV: under a storage kind a scalar is gB[WD-1:0] (R190). -/
def VEnv.moveSrc (n : VEnv) (b : Src) (e : Nat) : Nat × Nat :=
  match b with
  | .v k => n.move n.vt.wb (n.rd k n.vt.wb n.vt.kind e)
  | .g => if kindStorage n.vt.kind then (lowBits n.e.gb n.vt.wd, 0) else n.move n.vt.wb (lowBits n.e.gb n.vt.wb)

/-- ILLWIDTH of the second operand of VSEL and VMV (R189, R190). -/
def VEnv.badMoveSrc (n : VEnv) (b : Src) : Bool :=
  match b with
  | .v k => n.bad k n.vt.wb
  | .g => kindFloat n.vt.kind && n.vt.wb != kindWidth n.vt.kind

/-- VCVT and FCVT.V from source kind ks (R212). -/
def cvtOp (ks : Nat) (n : VEnv) (x e : Nat) : Nat × Nat :=
  convertVal ks (kindValue ks n.vt.frac n.vt.wa x) n.vt.kind n.vt.frac n.vt.wd n.vt.sat (n.rm e)

/-! ### The specs: element-wise -/

def cycLogic (b : Src) (a : Nat) (f4 : Nat × Nat × Nat × Nat) (n : VEnv) (lo : Nat) : List Nat :=
  cyc2 a b (fun p q => max p q + 1) (floatCycles n.vt.kind f4.1 f4.2.1 f4.2.2.1 f4.2.2.2) n lo

def specVadd (h : VHdr) (d a : Nat) (b : Src) : VSpec :=
  elemSpec h .a d a b false legalIF (fun t => kindFloat t.kind) addOp (cycLogic b a (120, 60, 64, 36))
def specVsub (h : VHdr) (d a : Nat) (b : Src) : VSpec :=
  elemSpec h .a d a b false legalIF (fun t => kindFloat t.kind) subOp (cycLogic b a (120, 60, 64, 36))
def specVrsub (h : VHdr) (d a : Nat) : VSpec :=
  elemSpec h .a d a .g false legalIF (fun t => kindFloat t.kind) rsubOp (cycLogic .g a (120, 60, 64, 36))

def cycMin (b : Src) (a : Nat) (n : VEnv) (lo : Nat) : List Nat :=
  cyc2 a b (fun p q => 2 * max p q + 1) (floatCycles n.vt.kind 40 20 20 12) n lo
def specVmin (h : VHdr) (d a : Nat) (b : Src) : VSpec :=
  elemSpec h .a d a b false legalIF noRound minOp (cycMin b a)
def specVmax (h : VHdr) (d a : Nat) (b : Src) : VSpec :=
  elemSpec h .a d a b false legalIF noRound maxOp (cycMin b a)

def specVbit (f : Nat → Nat → Nat) (h : VHdr) (d a : Nat) (b : Src) : VSpec :=
  elemSpec h .a d a b false legalInt noRound (bitOp f) (cycLogic b a (0, 0, 0, 0))

/-- Shifts: the amount is natural, or all 64 bits of gB (R187, R190). -/
def specVshift (f : VEnv → Nat → Nat → Nat → Nat × Nat) (h : VHdr) (d a : Nat) (b : Src) : VSpec :=
  { elemSpec h .a d a b false legalInt noRound f (fun n _ =>
      n.shuffleA a ++
      match b with
      | .v k => n.shuffle k n.vt.wb 1 ++ [6 * (n.vt.wd + 1)]
      | .g => [n.vt.wd + 1]) with
    run := fun n lo hi => runElems n lo hi fun e =>
      f n (n.rd a n.vt.wa n.vt.kind e)
        (match b with
         | .v k => n.rd k n.vt.wb 1 e
         | .g => n.e.gb.toNat) e }

def specVsat (f : VEnv → Nat → Nat → Nat → Nat × Nat) (h : VHdr) (d a : Nat) (b : Src) : VSpec :=
  elemSpec h .a d a b false legalInt noRound f (cyc2 a b (fun p q => max p q + 2) 0)
def specVavg (h : VHdr) (d a : Nat) (b : Src) : VSpec :=
  elemSpec h .a d a b false legalInt (fun _ => true) avgOp (cycLogic b a (0, 0, 0, 0))

def specVabs (h : VHdr) (d a : Nat) : VSpec :=
  unarySpec h .a d a legalIF noRound absOp fun n lo =>
    cyc2 a .g (fun p _ => 2 * p + 1) (floatCycles n.vt.kind 33 17 17 9) n lo
def specVneg (h : VHdr) (d a : Nat) : VSpec :=
  unarySpec h .a d a legalIF noRound negOp fun n lo =>
    cyc2 a .g (fun p _ => p + 1) (floatCycles n.vt.kind 33 17 17 9) n lo

/-- Steps of the multiplies (R196, R197). -/
def cycMul (b : Src) (a : Nat) (f4 : Nat × Nat × Nat × Nat) (n : VEnv) (lo : Nat) : List Nat :=
  if kindInt n.vt.kind then
    n.shuffleA a ++ n.shuffleSrc b n.vt.wb n.vt.kind ++ [4 + n.mulPlanes b lo * (n.planes (.v a) n.vt.wa + 1)]
  else [floatCycles n.vt.kind f4.1 f4.2.1 f4.2.2.1 f4.2.2.2]

def specVmul (h : VHdr) (d a : Nat) (b : Src) : VSpec :=
  elemSpec h .b d a b false legalIF (fun _ => true) mulOp (cycMul b a (700, 150, 260, 70))
def specVmulh (h : VHdr) (d a : Nat) (b : Src) : VSpec :=
  elemSpec h .b d a b false legalInt noRound mulhOp (cycMul b a (0, 0, 0, 0))
def specVmacc (h : VHdr) (d a : Nat) (b : Src) : VSpec :=
  elemSpec h .b d a b true legalIF (fun _ => true) (maccOp d) fun n lo =>
    n.shuffle d n.vt.wd n.vt.kind ++ cycMul b a (820, 210, 324, 106) n lo
def specVdiv (h : VHdr) (d a : Nat) (b : Src) : VSpec :=
  elemSpec h .b d a b false legalIF (fun t => kindFloat t.kind) divOp fun n lo =>
    cyc2 a b (fun _ q => 4 + n.vt.wd * (q + 1)) (floatCycles n.vt.kind 1000 300 420 120) n lo
def specVrem (h : VHdr) (d a : Nat) (b : Src) : VSpec :=
  elemSpec h .b d a b false legalInt noRound remOp fun n lo => cyc2 a b (fun _ q => 4 + n.vt.wd * (q + 1)) 0 n lo
def specVsmul (h : VHdr) (d a : Nat) (b : Src) : VSpec :=
  elemSpec h .b d a b false legalInt (fun _ => true) smulOp (cycMul b a (0, 0, 0, 0))
def specVexp2 (h : VHdr) (d a : Nat) : VSpec :=
  unarySpec h .b d a legalF3 (fun _ => true) exp2Op fun n _ => [floatCycles n.vt.kind 1050 420 440 0]
def specVlog2 (h : VHdr) (d a : Nat) : VSpec :=
  unarySpec h .b d a legalF3 (fun _ => true) log2Op fun n _ => [floatCycles n.vt.kind 1050 420 440 0]

def specVcmp (r : Rel) (h : VHdr) (d a : Nat) (b : Src) : VSpec :=
  { elemSpec h .a d a b false legalIF noRound (relOp r) (cycLogic b a (40, 20, 20, 12)) with
    vf := a :: b.regs, rd := a :: b.regs, wr := [], mwr := [d], commit := commitM d }

/-- VSEL (R210): MK selects; every element below V is active. -/
def specVsel (h : VHdr) (d a : Nat) (b : Src) : VSpec :=
  { elemSpec h .a d a b false legalAny noRound (fun _ _ _ _ => (0, 0)) (fun n lo =>
      if kindStorage n.vt.kind then [n.vt.wd + 1] else cycLogic b a (33, 17, 17, 9) n lo) with
    mrd := [h.msk], needMask := true,
    wide := fun n => n.bad a n.vt.wa || n.badMoveSrc b,
    run := fun n lo hi =>
      runElems { n with msk := 0 } lo hi fun e =>
        if maskBit n.h h.msk e then n.move n.vt.wa (n.rd a n.vt.wa n.vt.kind e) else n.moveSrc b e }

/-- VMV (R210): from vA in V form, from the scalar in VX form. -/
def specVmv (h : VHdr) (d : Nat) (b : Src) : VSpec :=
  { hdr := h, cls := [.a], vf := d :: b.regs, xf := [], rd := b.regs, wr := [d], mrd := maskReads h, mwr := [],
    needMask := false, legal := legalAny, rounds := noRound,
    wide := fun n =>
      match b with
      | .v k => n.bad k n.vt.wa
      | .g => n.badMoveSrc .g,
    run := fun n lo hi => runElems n lo hi fun e =>
      match b with
      | .v k => n.move n.vt.wa (n.rd k n.vt.wa n.vt.kind e)
      | .g => n.moveSrc .g e,
    commit := commitV d,
    steps := fun n _ =>
      if kindStorage n.vt.kind then [n.vt.wd + 1]
      else if kindFloat n.vt.kind then [floatCycles n.vt.kind 33 17 17 9]
      else
        match b with
        | .v k => n.shuffleA k ++ [livePlanes n.h k n.vt.wa n.sgn + 1]
        | .g => [n.planes .g n.vt.wb + 1] }

/-- The operand and ILLWIDTH rules of a conversion from kind ks (R187, R189). -/
def wideCvt (ks a : Nat) (n : VEnv) : Bool := !kindInt ks && illWidth n.h a ks n.vt.wa

def specVcvt (h : VHdr) (d a ks : Nat) : VSpec :=
  { unarySpec h .a d a legalAny (fun _ => true) (fun _ _ _ => (0, 0)) (fun n _ =>
      n.shuffle a n.vt.wa ks ++
      [if kindInt ks && kindInt n.vt.kind then max (livePlanes n.h a n.vt.wa (kindSigned ks)) n.vt.wd + 1
       else 2 * (n.vt.wa + n.vt.wd) + 24]) with
    wide := wideCvt ks a,
    run := fun n lo hi => runElems n lo hi fun e => cvtOp ks n (n.rd a n.vt.wa ks e) e }

/-! ### Masks (R211) -/

def specMask (f : Bool → Bool → Bool) (h : VHdr) (d a : Nat) (b : Option Nat) : VSpec :=
  { hdr := h, cls := [.a], vf := [], xf := [], rd := [], wr := [], mrd := a :: (b.toList ++ maskReads h), mwr := [d],
    needMask := false, legal := legalAny, rounds := noRound, wide := fun _ => false,
    run := fun n lo hi => runElems n lo hi fun e =>
      (bitOf (f (maskBit n.h a e) (match b with
        | some k => maskBit n.h k e
        | none => false)), 0),
    commit := commitM d, steps := fun _ _ => [2] }

/-! ### Permutes (R213 to R217) -/

/-- Element groups of the row (R199). -/
def VEnv.groups (n : VEnv) : Nat := ceilDiv n.V n.h.lanes

/-- The mould of the permutes. -/
def permSpec (h : VHdr) (d : Nat) (srcs : List Nat) (run : VEnv → Nat → Nat → VOut) (wide : VEnv → Bool)
    (steps : VEnv → Nat → List Nat) : VSpec :=
  { hdr := h, cls := [.p], vf := d :: srcs, xf := [], rd := srcs, wr := [d], mrd := maskReads h, mwr := [],
    needMask := false, legal := legalAny, rounds := noRound, wide := wide, run := run, commit := commitPerm d srcs,
    steps := steps, row := true }

/-- The steps of a slide (R199). -/
def cycSlide (a : Nat) (n : VEnv) (_lo : Nat) : List Nat :=
  n.shuffleA a ++ List.replicate (if n.e.gb.toNat % n.h.lanes = 0 then 1 else 2) (n.vt.wd + 2)

def specVslideup (h : VHdr) (d a : Nat) : VSpec :=
  permSpec h d [a]
    (fun n lo hi =>
      let k := n.e.gb.toNat
      let r := runElems n lo hi fun e => if k ≤ e then n.move n.vt.wa (n.rd a n.vt.wa n.vt.kind (e - k)) else (0, 0)
      { r with res := r.res.filter fun x => decide (k ≤ x.1) })
    (fun n => n.bad a n.vt.wa)
    (cycSlide a)

def specVslidedn (h : VHdr) (d a : Nat) : VSpec :=
  { permSpec h d [a]
      (fun n lo hi =>
        let k := n.e.gb.toNat
        runElems n lo hi fun e => if e + k < n.V then n.move n.vt.wa (n.rd a n.vt.wa n.vt.kind (e + k)) else (0, 0))
      (fun n => n.bad a n.vt.wa)
      (cycSlide a) with
    commit := commitV d }

def specVperm (h : VHdr) (d a b : Nat) : VSpec :=
  permSpec h d [a, b]
    (fun n lo hi => runElems n lo hi fun e =>
      let i := n.rd b n.vt.wb 1 e
      if i < n.V then n.move n.vt.wa (n.rd a n.vt.wa n.vt.kind i) else (0, 0))
    (fun n => n.bad a n.vt.wa)
    (fun n _ => n.shuffleA a ++ n.shuffle b n.vt.wb 1 ++ List.replicate n.groups (n.vt.wd + 8))

/-- VCOMPRESS (R215): progress counts source elements; the count written is kept. -/
def specVcompress (h : VHdr) (d a : Nat) : VSpec :=
  { permSpec h d [a]
      (fun n lo hi =>
        let pick := (span lo (min hi n.V - lo)).filter fun e => maskBit n.h h.msk e
        let r := pick.zipIdx.map fun x => (n.e.part.cnt + x.2, n.move n.vt.wa (n.rd a n.vt.wa n.vt.kind x.1))
        { res := r.map fun x => (x.1, x.2.1), res2 := [], flags := flagsOf (r.map Prod.snd),
          part := { n.e.part with cnt := n.e.part.cnt + pick.length } })
      (fun n => n.bad a n.vt.wa)
      (fun n _ => n.shuffleA a ++ List.replicate 2 (n.vt.wd + 8)) with
    mrd := [h.msk], needMask := true, commit := commitV d }

/-- A count stored in the destination (R216): raw under an int kind, else converted as a natural integer. -/
def VEnv.count (n : VEnv) (c e : Nat) : Nat × Nat :=
  if kindInt n.vt.kind then n.write c
  else convertVal 1 (.ofRat c) n.vt.kind n.vt.frac n.vt.wd n.vt.sat (n.rm e)

def roundsCount (t : VT) : Bool := !kindInt t.kind

def specViota (h : VHdr) (d a : Nat) : VSpec :=
  { permSpec h d [] (fun n lo hi => runElems n lo hi fun e =>
        n.count (((List.range e).filter fun j => decide (j < n.V) && maskBit n.h a j).length) e)
      (fun _ => false) (fun n _ => [n.vt.wd + 9]) with
    mrd := a :: maskReads h, rounds := roundsCount, commit := commitV d }

def specVindex (h : VHdr) (d : Nat) : VSpec :=
  { permSpec h d [] (fun n lo hi => runElems n lo hi fun e => n.count e e) (fun _ => false) (fun n _ => [n.vt.wd + 1]) with
    rounds := roundsCount, commit := commitV d }

def specVconfl (h : VHdr) (d a : Nat) : VSpec :=
  { permSpec h d [a]
      (fun n lo hi => runElems n lo hi fun e =>
        let x := n.rd a n.vt.wa n.vt.kind e
        let c := ((n.actives 0 e).filter fun j => n.rd a n.vt.wa n.vt.kind j == x).length
        (wrap n.vt.wd (min (c : Int) (rawMax n.sgn n.vt.wd)), 0))
      (fun _ => false)
      (fun n lo => n.shuffleA a ++ List.replicate (lo / n.h.lanes + 1) (livePlanes n.h a n.vt.wa n.sgn + 9)) with
    legal := legalInt }

/-! ### Reductions and scans (R218 to R221) -/

/-- The mould of the reductions. -/
def redSpec (h : VHdr) (d a : Nat) (legal : VT → Nat → Bool) (run : VEnv → Nat → Nat → VOut)
    (steps : VEnv → Nat → List Nat) : VSpec :=
  { hdr := h, cls := [.a], vf := [d, a], xf := [], rd := [a], wr := [d], mrd := maskReads h, mwr := [], needMask := false,
    legal := legal, rounds := noRound, wide := fun n => n.bad a n.vt.wa, run := run, commit := commitV d,
    steps := steps, row := true }

/-- One combination of VRED or VSCAN on exact raw integers; and, or, xor act on raw ext() bits (R218). -/
def redStep (op wd : Nat) (p x : Int) : Int :=
  match op with
  | 0 => p + x
  | 1 => min p x
  | 2 => max p x
  | 3 => ((wrap wd p &&& wrap wd x : Nat) : Int)
  | 4 => ((wrap wd p ||| wrap wd x : Nat) : Int)
  | _ => ((wrap wd p ^^^ wrap wd x : Nat) : Int)

/-- The identity (R218). -/
def redIdentity (op wd : Nat) (sgn : Bool) : Int :=
  match op with
  | 1 => rawMax sgn wd
  | 2 => rawMin sgn wd
  | 3 => (2 ^ wd : Nat) - 1
  | _ => 0

/-- The element as a reduction takes it: exact raw value, or ext() bits. -/
def VEnv.redVal (n : VEnv) (op a e : Nat) : Int :=
  let x := n.rd a n.vt.wa n.vt.kind e
  if 3 ≤ op then (n.ext n.vt.wa x : Nat) else n.raw n.vt.wa x

/-- The running value after the active elements of a range. -/
def VEnv.redRun (n : VEnv) (op a lo hi : Nat) : Partial :=
  (n.actives lo hi).foldl (fun p e =>
    if p.seen then { p with acc := redStep op n.vt.wd p.acc (n.redVal op a e) }
    else { p with seen := true, acc := n.redVal op a e }) n.e.part

/-- The stored form of a reduction's value (R218): and, or, xor are raw bits. -/
def VEnv.redStore (n : VEnv) (op : Nat) (z : Int) : Nat × Nat :=
  if 3 ≤ op then (wrap n.vt.wd z, 0) else n.write z

def specVred (h : VHdr) (d a op : Nat) : VSpec :=
  redSpec h d a legalInt
    (fun n lo hi =>
      let p := n.redRun op a lo hi
      if hi < n.V then { res := [], res2 := [], flags := 0, part := p }
      else
        let r := n.redStore op (if p.seen then p.acc else redIdentity op n.vt.wd n.sgn)
        { res := [(0, r.1)], res2 := [], flags := r.2, part := p })
    (fun n lo => cyc2 a .g (fun p _ => 8 * (p + 1) + 4) 0 n lo)

def specVscan (h : VHdr) (d a op : Nat) : VSpec :=
  redSpec h d a legalInt
    (fun n lo hi =>
      let r := (n.actives lo hi).foldl (fun (q : Partial × List (Nat × Nat × Nat)) e =>
        let p := if q.1.seen then { q.1 with acc := redStep op n.vt.wd q.1.acc (n.redVal op a e) }
                 else { q.1 with seen := true, acc := n.redVal op a e }
        let w := n.write p.acc
        (p, q.2 ++ [(e, w.1, w.2)])) (n.e.part, [])
      { res := r.2.map fun x => (x.1, x.2.1), res2 := [], flags := r.2.foldl (fun f x => f ||| x.2.2) 0, part := r.1 })
    (fun n lo => cyc2 a .g (fun p _ => 16 * (p + 1) + 4) 0 n lo)

/-- VREDO.F (R220): sequential, one rounding per active element. -/
def specVredo (h : VHdr) (d a : Nat) : VSpec :=
  { redSpec h d a legalF3
      (fun n lo hi =>
        let start := if n.e.part.seen then n.e.part.bits else n.rd d n.vt.wd n.vt.kind 0
        let r := (n.actives lo hi).foldl (fun (q : Nat × Nat) e =>
          let A := n.fmt.value q.1
          let X := n.fmt.value (n.rd a n.vt.wa n.vt.kind e)
          let z := n.fresult e [A, X] (exactAdd (n.rm e) A X)
          (z.1, q.2 ||| z.2)) (start, 0)
        { res := if hi < n.V then [] else [(0, r.1)], res2 := [], flags := r.2,
          part := { n.e.part with bits := r.1, seen := true } })
      (fun n _ => List.replicate (n.h.lanes / 256) 1028) with
    rd := [d, a], rounds := fun _ => true, wide := fun n => n.bad a n.vt.wa || n.bad d n.vt.wd }

/-- VREDX (R221): exact addition into xacc[d]. -/
def specVredx (h : VHdr) (d a : Nat) : VSpec :=
  { redSpec h d a legalIF
      (fun n lo hi =>
        let xb := (TS.of n.e.tshape).xbase
        let r := (n.actives lo hi).foldl (fun (q : Int × Nat) e =>
          match kindValue n.vt.kind n.vt.frac n.vt.wa (n.rd a n.vt.wa n.vt.kind e) with
          | .fin _ x =>
            let k := grid x xb
            (q.1 + k, q.2 ||| flagIf (decide ((k : Rat) * pow2 xb ≠ x)) flNX)
          | _ => (q.1, q.2 ||| flNV)) (n.e.part.acc, 0)
        { res := [], res2 := [], flags := r.2, part := { n.e.part with acc := r.1 } })
      (fun n _ => n.shuffleA a ++ [140]) with
    vf := [a], xf := [d], wr := [],
    commit := fun n _ =>
      { n.h with xacc := n.h.xacc.setIfInBounds d (BitVec.ofInt 136 ((vat n.h.xacc d 0).toNat + n.e.part.acc)) } }

end Sys2Proof.Machine
end

