-- ==== Sys2Proof/Machine/BsxOps.lean ====
section
/-! DEFINITION. The block-scale unit: MX blocks, conversions, the generator and the exact accumulators (R283 to R301). -/

namespace Sys2Proof.Machine

/-- Largest exponent of an element kind (R279, R282). -/
def kindEmax (k : Nat) : Int := if k = 12 then 0 else (Fmt.ofKind k).emax

/-- Elements of block b that are active (R286). -/
def VEnv.block (n : VEnv) (b : Nat) : List Nat :=
  let B := blockSize n.vt.blk
  (span (b * B) (min (b * B + B) n.V - b * B)).filter n.active

/-- Blocks whose last element below V lies in a range (R299). -/
def VEnv.blocksIn (n : VEnv) (lo hi : Nat) : List Nat :=
  let B := blockSize n.vt.blk
  (List.range (ceilDiv n.V B)).filter fun b =>
    let last := min (b * B + B) n.V - 1
    decide (lo ≤ last) && decide (last < hi)

/-- Magnitudes of the contributing elements (R287). -/
def mags (xs : List Val) : List Rat :=
  xs.filterMap fun x =>
    match x with
    | .fin _ q => if q = 0 then none else some (absRat q)
    | _ => none

def maxRat (l : List Rat) : Rat := l.foldl max 0

/-- The shared exponent X (R287). -/
def sharedExp (kd : Nat) (xs : List Val) : Int :=
  if (mags xs).isEmpty then -127 else min (max (ilog2 (maxRat (mags xs)) - kindEmax kd) (-127)) 127

def Val.isInf : Val → Bool
  | .inf _ => true
  | _ => false

/-- The scale code of a block under MXQ and its flags (R291). -/
def mxqScale (kd : Nat) (sat : Bool) (xs : List Val) : Nat × Nat :=
  if xs.any Val.isNan then (0xFF, flagIf (xs.any Val.isSnan) flNV)
  else if xs.any Val.isInf && !sat then (0xFF, flNV)
  else ((sharedExp kd xs + 127).toNat, 0)

/-- The code of an element under MXQ with the block's scale code (R291). The signed maxfin of mxint8, which R279 does not
give, is 127/64 with the sign: -127/64 for minus infinity, not the -2 of Sat (log 48). -/
def mxqElem (n : VEnv) (scale : Nat) (e : Nat) (x : Val) : Nat × Nat :=
  if scale = 0xFF then (0, 0)
  else
    match x with
    | .nan _ => (0, 0)
    | .inf s =>
      if n.vt.kind = 12 then (wrap 8 (if s then -127 else 127), flOF) else (n.fmt.maxBits s, flOF)
    | .fin s q =>
      if q = 0 then (if n.vt.kind = 12 then 0 else n.fmt.encodeFin s 0, 0)
      else
        let z := q * pow2 (127 - (scale : Int))
        if n.vt.kind = 12 then
          let y := roundRaw z 6 (n.rm e)
          let nx := flagIf (decide ((y : Rat) * pow2 (-6) ≠ z)) flNX
          if rawMin true 8 ≤ y ∧ y ≤ rawMax true 8 then (wrap 8 y, nx)
          else (wrap 8 (satRaw true 8 y), nx ||| flOF ||| flNX)
        else n.fmt.finResult n.vt.sat (n.rm e) s z

/-- ILLWIDTH of the source of a conversion of the block-scale unit (R291 to R294). -/
def wideSrc (ks a : Nat) (n : VEnv) : Bool := illWidth n.h a ks n.vt.wa

/-- The mould of the block-scale instructions. -/
def bsxSpec (h : VHdr) (d : Nat) (vf rd wr : List Nat) (legal : VT → Nat → Bool) (rounds : VT → Bool)
    (wide : VEnv → Bool) (run : VEnv → Nat → Nat → VOut) (steps : VEnv → Nat → List Nat) : VSpec :=
  { hdr := h, cls := [.b], vf := vf, xf := [], rd := rd, wr := wr, mrd := maskReads h, mwr := [], needMask := false,
    legal := legal, rounds := rounds, wide := wide, run := run, commit := commitV d, steps := steps }

/-- Whether two runs of g registers overlap. -/
def overlapRegs (g a b : Nat) : Bool := decide (a < b + g) && decide (b < a + g)

/-- MXQ (R291): codes in vd, scales in v(d + g). -/
def specMxq (h : VHdr) (d a ks : Nat) : VSpec :=
  { bsxSpec h d [d, a] [a] [d]
      (fun t n => decide (7 ≤ t.kind) && decide (t.kind ≤ 12) && t.blk != 0 && decide (d + 2 * t.g ≤ n) &&
        !overlapRegs t.g d a && !overlapRegs t.g (d + t.g) a)
      (fun _ => true) (wideSrc ks a)
      (fun n lo hi =>
        let one : Nat → List (Nat × Nat × Nat) × (Nat × Nat) × Nat := fun b =>
          let es := n.block b
          let xs := es.map fun e => (e, kindValue ks 0 n.vt.wa (n.rd a n.vt.wa ks e))
          let sc := mxqScale n.vt.kind n.vt.sat (xs.map Prod.snd)
          let codes := xs.map fun x => (x.1, mxqElem n sc.1 x.1 x.2)
          (codes.map fun c => (c.1, c.2.1, c.2.2), (b, sc.1), sc.2)
        let bs := ((n.blocksIn lo hi).filter fun b => !(n.block b).isEmpty).map one
        { res := bs.flatMap fun b => b.1.map fun c => (c.1, c.2.1), res2 := bs.map fun b => b.2.1,
          flags := bs.foldl (fun f b => f ||| b.2.2 ||| b.1.foldl (fun f c => f ||| c.2.2) 0) 0, part := n.e.part })
      (fun n _ => [2 * (n.vt.wa + n.vt.wd) + 24]) with
    wrPair := [d],
    commit := fun n seed =>
      let h1 := commitV d n seed
      if n.V = 0 then h1 else writeRow h1 (seed + 16) (d + n.g) n.g 8 false false n.V n.e.res2 [] }

/-- MXDQ (R292): codes in va, scales in v(a + g). -/
def specMxdq (h : VHdr) (d a kc : Nat) : VSpec :=
  { bsxSpec h d [d, a] [a] [d]
    (fun t n => decide (4 ≤ t.kind) && decide (t.kind ≤ 6) && t.blk != 0 && decide (a + 2 * t.g ≤ n) &&
      !overlapRegs t.g d a && !overlapRegs t.g d (a + t.g))
    (fun _ => true)
    (fun n => wideSrc kc a n ||
      (match tagW n.h (a + n.g) with
       | some w => w != 8
       | none => false))
    (fun n lo hi => runElems n lo hi fun e =>
      let s := n.rd (a + n.g) 8 kc (e / blockSize n.vt.blk)
      let c := kindValue kc 0 n.vt.wa (n.rd a n.vt.wa kc e)
      if s = 0xFF ∨ c.isNan then (n.fmt.canonNan, flagIf c.isSnan flNV)
      else
        match c with
        | .fin sg q => n.fmt.finResult n.vt.sat (n.rm e) sg (q * pow2 ((s : Int) - 127))
        | .inf sg => n.fmt.infResult n.vt.sat sg
        | .nan _ => (n.fmt.canonNan, 0))
    (fun n _ => [2 * (n.vt.wa + n.vt.wd) + 16]) with
    rdPair := [a] }

/-- FCVT.V (R293), whose last sentence lets it copy every non-NaN encoding where Ks is the kind of the row: an infinity
too under SAT 1, where R288 gives maxfin (log 48). That vd may overlap va is log 48: R290 names no bullet for it. -/
def specFcvtV (h : VHdr) (d a ks : Nat) : VSpec :=
  bsxSpec h d [d, a] [a] [d] (fun t _ => decide (4 ≤ t.kind) && decide (t.kind ≤ 11)) (fun _ => true) (wideSrc ks a)
    (fun n lo hi => runElems n lo hi fun e =>
      let x := n.rd a n.vt.wa ks e
      if ks = n.vt.kind ∧ !(kindValue ks 0 n.vt.wa x).isNan then (x, 0) else cvtOp ks n x e)
    (fun n _ => [n.vt.wa + n.vt.wd + 8])

/-- BSEXP (R294). That vd may overlap va is log 48. -/
def specBsexp (h : VHdr) (d a ks : Nat) : VSpec :=
  bsxSpec h d [d, a] [a] [d] (fun t _ => t.kind == 1 && t.wd == 8 && t.blk != 0) noRound (wideSrc ks a)
    (fun n lo hi =>
      let one : Nat → (Nat × Nat) × Nat := fun b =>
        let xs := (n.block b).map fun e => kindValue ks 0 n.vt.wa (n.rd a n.vt.wa ks e)
        if xs.any fun x => x.isNan || x.isInf then ((b, 0xFF), flagIf (xs.any Val.isSnan) flNV)
        else if (mags xs).isEmpty then ((b, 0), 0)
        else ((b, (min (max (ilog2 (maxRat (mags xs)) + 127) 0) 254).toNat), 0)
      let bs := ((n.blocksIn lo hi).filter fun b => !(n.block b).isEmpty).map one
      { res := bs.map Prod.fst, res2 := [], flags := flagsOf (bs.map fun b => (0, b.2)), part := n.e.part })
    (fun n _ => [n.vt.wa + 12])

/-- An instruction that runs nothing over the row. -/
def oneStep (n : VEnv) (_ _ : Nat) : VOut := { res := [], res2 := [], flags := 0, part := n.e.part }

/-- SRSEED (R295): acts at dispatch. -/
def specSrseed (h : VHdr) : VSpec :=
  { bsxSpec h 0 [] [] [] legalAny noRound (fun _ => false) oneStep (fun _ _ => [1]) with
    mrd := [], commit := fun n _ => n.h, len := fun _ => 1,
    atDispatch := fun t gb => { t with srseed := gb, srctr := 0 } }

/-- SRSKIP (R295): acts at dispatch. -/
def specSrskip (h : VHdr) : VSpec :=
  { bsxSpec h 0 [] [] [] legalAny noRound (fun _ => false) oneStep (fun _ _ => [1]) with
    mrd := [], commit := fun n _ => n.h, len := fun _ => 1,
    atDispatch := fun t gb => { t with srctr := (t.srctr + lowBits gb 32) % 2 ^ 32 } }

/-- XACC.CLR (R296). -/
def specXaccClr (h : VHdr) (d : Nat) : VSpec :=
  { bsxSpec h 0 [] [] [] legalAny noRound (fun _ => false) oneStep (fun _ _ => [4]) with
    xf := [d], mrd := [], len := fun _ => 1,
    commit := fun n _ => { n.h with xacc := n.h.xacc.setIfInBounds d 0 } }

/-- The 136-bit integer in elements 0 to 4 of va, read at 32 bits; one that does not exist at 32 bits is undefined
(R184, R296). The group count that says which exist is that of the captured VTYPE, though the instruction depends on it for
nothing else (log 48). -/
def xaccTerm (n : VEnv) (a : Nat) : Nat :=
  let u : Nat → Nat := fun j => if n.h.geo.has n.g 32 j then n.rd a 32 1 j else readElem n.h.v n.h.geo a n.g 32 j
  u 0 + u 1 * 2 ^ 32 + u 2 * 2 ^ 64 + u 3 * 2 ^ 96 + u 4 % 2 ^ 8 * 2 ^ 128

/-- XACC.ADD (R296). -/
def specXaccAdd (h : VHdr) (d a : Nat) : VSpec :=
  { bsxSpec h 0 [a] [a] [] legalAny noRound (fun _ => false) oneStep (fun n _ => n.shuffle a 32 1 ++ [12]) with
    xf := [d], mrd := [], len := fun _ => 1, reach := fun _ => 5,
    commit := fun n _ =>
      { n.h with xacc := n.h.xacc.setIfInBounds d (BitVec.ofNat 136 ((vat n.h.xacc d 0).toNat + xaccTerm n a)) } }

/-- An accumulator whose guard bits [135:127] are not all equal (R297, R268). -/
def guardBad (a : Nat) : Bool := bits a 127 9 != 0 && bits a 127 9 != 511

/-- XACC.RD (R297): gB[31:0] is e0, gB[32] is RAW. -/
def specXaccRd (h : VHdr) (d a : Nat) : VSpec :=
  { bsxSpec h d [d] [] [d] (fun t _ => decide (t.kind ≤ 12)) (fun _ => true) (fun _ => false)
      (fun n _ _ =>
        let e0 := lowBits n.e.gb 32
        let x := (vat n.h.xacc a 0).toNat
        if n.e.gb.getLsbD 32 then
          { res := ((List.range 5).filter fun j => decide (e0 + j < n.V)).map fun j => (e0 + j, bits x (32 * j) 32),
            res2 := [], flags := 0, part := n.e.part }
        else if e0 < n.V then
          let r := convertVal 4 (.ofRat ((accInt x : Rat) * pow2 (TS.of n.e.tshape).xbase)) n.vt.kind n.vt.frac n.vt.wd
            n.vt.sat (n.rm e0)
          { res := [(e0, r.1)], res2 := [], flags := r.2 ||| flagIf (guardBad x) flTV, part := n.e.part }
        else { res := [], res2 := [], flags := 0, part := n.e.part })
      (fun _ _ => [40]) with
    xf := [a], mrd := [], len := fun _ => 1,
    ill := fun n => n.e.gb.getLsbD 32 && (n.vt.kind != 1 || n.vt.wd != 32) }

end Sys2Proof.Machine
end

