-- ==== Sys2Proof/Machine/Sync.lean ====
section
/-! DEFINITION. Ordering and synchronisation: FENCE, LSYNC, BAR, WAITW, TKPUSH, TKPOP, SPAWN, HALT, the gang words, YIELD
and PRIO (R142, R143, R161 to R168), with the events that end their waits. -/

namespace Sys2Proof.Machine

/-! ### FENCE and LSYNC (R142, R143) -/

/-- The instruction cache of a core is emptied (R116). -/
def State.dropIcache (s : State) (core : Nat) : State := s.setCore core { s.core core with icache := [] }

/-- FENCE (R142): a release, then an acquire; at .core or wider the instruction cache is emptied too (R116).
FENCE.slice holds already in the order in which the vector engine performs its accesses. -/
def execFence (sc : Nat) (s : State) : Out :=
  onHart s fun id h =>
    if sc = 0 then finish s id h
    else
      onRelease s id h sc fun s h =>
        let s1 := (s.setHart id h.advance).acquire id sc
        .next (if 2 ≤ sc then s1.dropIcache (coreOf id) else s1)

def execLsync (s : State) : Out :=
  onHart s fun id h => if h.storesPending then .next s else finish s id h

/-! ### BAR (R162) -/

/-- A BAR completes: an acquire at its scope. -/
def State.barDone (s : State) (id key sc : Nat) : Out :=
  .next ((s.modHart id fun h => ({ h.wake with bar := erase h.bar key, barPc := none }).advance).acquire id sc)

/-- The hart is at the BAR that it has waited in: it waits, or executes it again after a trap has ended the wait. One whose
generation has ended meanwhile then completes, and does not arrive twice (DESIGN CHOICE, log 46). -/
def Hart.sameBar (h : Hart) : Bool := h.wait == some .bar || h.barPc == some (h.pc, h.sup)

/-- The generation of a group is above the one remembered. -/
def State.barPassed (s : State) (key gen : Nat) : Bool := decide (gen < (s.barrier key).gen)

def execBar (sc : Nat) (s : State) : Out :=
  onHart s fun id h =>
    onRelease s id h sc fun s h =>
      match barKey id h sc with
      | none => .next ((s.setHart id h.wake.advance).acquire id sc)
      | some key =>
        match (find? h.bar key).filter fun g => h.sameBar || !s.barPassed key g with
        | some g => if s.barPassed key g then s.barDone id key sc else .next (s.setHart id (h.sleep .bar s.tick))
        | none =>
          let g := s.barGen id key
          let s1 := (s.setHart id { h with bar := put h.bar key g }).barArrive id key
          if s1.barPassed key g then s1.barDone id key sc
          else .next (s1.modHart id fun h => h.sleep .bar s.tick)

/-- The wait of a BAR is over. -/
def State.barOver (s : State) (h : Hart) : Bool := h.bar.any fun b => s.barPassed b.1 b.2

/-! ### WAITW (R163) -/

/-- The watches of a hart end. -/
def State.unwatch (s : State) (id : Nat) : State :=
  let t := s.stn (stnOf id)
  let s1 := if t.watch.any fun w => w.1 == id then
      s.setStn (stnOf id) { t with watch := t.watch.filter fun w => w.1 != id } else s
  { s1 with watch := s1.watch.filter fun w => w.1 != id }

/-- The hart watches a line at the point of a scope, home or its station's slices, until a write is performed there. -/
def State.watchLine (s : State) (id sc line : Nat) : State :=
  let k := stnOf id
  if atHome sc then { s with watch := (id, line) :: s.watch }
  else s.setStn k { s.stn k with watch := (id, line) :: (s.stn k).watch }

/-- The read of a WAITW (R163): the word differs, and the read is an acquire, or the hart watches its line. -/
def State.waitwRead (s : State) (id : Nat) (h : Hart) (w : Watch) (x : Xlat) : State :=
  if s.cutOff id x.pa && !(pathOf x == .cached && s.stationHas (stnOf id) x.pa 8) then s
  else
    let r := (s.unwatch id).acquireRead id 8 x w.sc (heldAt id h w.va x .again)
    match r.2 with
    | none => r.1
    | some bs =>
      let v := w64 (ofBytes (overStrip h w.va bs))
      if v ≠ w.b then (r.1.modHart id fun h => (h.wake.setG w.d v).advance).acquire id w.sc
      else (r.1.modHart id fun h => h.sleep (.waitw w) s.tick).watchLine id w.sc (x.pa / 64)

def execWaitw (d a b sc : Nat) (s : State) : Out :=
  onHart s fun id h =>
    let va := (h.rg a).toNat
    access s id h va 8 .r fun s x =>
      if regionOf x.pa = .host then trapAt s id h .pgfltR (w64 va)
      else .next (s.waitwRead id h { d := d, b := h.rg b, sc := sc, va := va, x := some x } x)

/-- No write has been performed to the line that the hart watches (R163). -/
def State.watching (s : State) (id : Nat) : Bool :=
  ((s.stn (stnOf id)).watch.any fun w => w.1 == id) || s.watch.any fun w => w.1 == id

/-- A write has been performed to the line that a WAITW watches: it reads again; one whose translation has gone executes
again, and probes again (R129). -/
def State.waitwGo (s : State) (id : Nat) (h : Hart) (w : Watch) : State :=
  match w.x with
  | some x => s.waitwRead id h w x
  | none => s.setHart id h.wake

/-- WAITW_WAKE (R163). -/
def execWaitwWake (id : Nat) (s : State) : Out :=
  match s.hart? id with
  | none => .next s
  | some h =>
    match h.wait with
    | some (.waitw w) => .next (if s.watching id || h.held.isSome || h.frozen.isSome then s else s.waitwGo id h w)
    | _ => .next s

/-! ### TKPUSH and TKPOP (R164) -/

def execTkpush (a : Nat) (s : State) : Out :=
  onHart s fun id h =>
    let p := bits (h.rg a).toNat 0 2
    let f := fifo engScalar p
    if p = 0 then finish s id h
    else if 15 ≤ h.tokens f + h.reservedIn f then trapAt s id h .tkovf (w64 p)
    else finish s id (h.setTokens f (h.tokens f + 1))

def execTkpop (a : Nat) (s : State) : Out :=
  onHart s fun id h =>
    let p := bits (h.rg a).toNat 0 2
    let f := fifo p engScalar
    if p = 0 then finish s id h
    else if h.tokens f = 0 then .next (s.setHart id (h.sleep (.tkpop p) s.tick))
    else finish s id (h.wake.setTokens f (h.tokens f - 1))

/-- The wait of a TKPOP is over. -/
def Hart.tkpopOver (h : Hart) : Bool :=
  match h.wait with
  | some (.tkpop p) => decide (0 < h.tokens (fifo p engScalar))
  | _ => false

/-- TKPOP_WAKE (R164): a token has arrived. -/
def execTkpopWake (id : Nat) (s : State) : Out :=
  .next (s.modHart id fun h => if h.tkpopOver then h.wake else h)

/-! ### SPAWN (R165) -/

/-- n dwords read as scalar loads read them. -/
def State.readDwords (s : State) (id : Nat) (h : Hart) (va : Nat) : (n : Nat) → State × Option (List Nat)
  | 0 => (s, some [])
  | n + 1 =>
    let r := State.readDwords s id h va n
    match r.2, s.xlat (h.who id) (va + 8 * n) with
    | some l, some x =>
      let q := r.1.readBytes id 8 x (heldAt id h (va + 8 * n) x .again)
      (q.1, q.2.map fun bs => l ++ [ofBytes (overStrip h (va + 8 * n) bs)])
    | _, _ => (r.1, none)

/-- The failure code of R165. -/
def spawnFail (k : Nat) : W64 := w64 (2 ^ 63 + k)

/-- The effect of FENCE.pkg that a new hart performs before its first fetch (R165). -/
def State.firstFence (s : State) (id ctx : Nat) : State :=
  let r := s.releaseHome id 6 (heldOf (.hart id) ctx (Config.failedAddress s.tick) false .again)
  (r.1.acquire id 6).dropIcache (coreOf id)

def execSpawn (d a b : Nat) (s : State) : Out :=
  onHart s fun id h =>
    let blk := (h.rg b).toNat
    let t := (h.rg a).toNat
    let core := bits t 2 11
    if h.accessWaits blk 32 false || s.walkAway (h.who id) blk 32 then .next s
    else if blk % 8 ≠ 0 then trapAt s id h .align (w64 blk)
    else
      match s.probe1 (h.who id) { e := 0, va := blk, n := 32, k := .r, al := 8 } with
      | some (c, va) => trapAt s id h c (w64 va)
      | none =>
        onRelease s id h 6 fun s h =>
          let r := s.readDwords id h blk 4
          match r.2 with
          | none => .next r.1
          | some l =>
            let w : Nat → Nat := fun k => (l[k]?).getD 0
            let fail : Nat → Out := fun k => .next (r.1.modHart id fun h => (h.setG d (spawnFail k)).advance)
            if t.testBit 22 && !h.sup then fail 5
            else if 36 ≤ bits t 4 6 then fail 2
            else if w 3 ≠ 0 || w 2 % 65536 ≠ 0 then fail 4
            else if !r.1.stationActive (core / 4) then fail 3
            else
              match r.1.freeHartSlot core with
              | none => fail 1
              | some new =>
                let ctx := if t.testBit 22 then bits t 16 6 else h.ctx
                let s1 := r.1.createHart new ctx (h.rg d) (w64 (w 0)) (w64 (w 1)) (w 2) h.prio
                let s2 := s1.firstFence new ctx
                .next (s2.modHart id fun h => (h.setG d (w64 new)).advance)

/-! ### HALT (R70, R166) -/

def execHalt (s : State) : Out :=
  onHart s fun id h =>
    if !h.idleQueues then .next s
    else onRelease s id h 7 fun s _ => .next (s.endHart id false)

/-! ### Gangs (R71, R167) -/

/-- An instruction names no v- or m-register. -/
def usesNoRegs (i : Instr) : Bool :=
  match i with
  | .srseed _ _ => true
  | .srskip _ _ => true
  | .xaccClr _ _ => true
  | .stripBegin _ _ => true
  | .stripCommit _ => true
  | .stripAbort _ => true
  | .xstateSave _ _ => true
  | .xstateRestore _ _ => true
  | .tzero x _ => x.msk == 0
  | .tshift x _ _ => x.msk == 0
  | .tmerge x _ _ => x.msk == 0
  | .tmergeAtt x _ _ => x.msk == 0
  | .tflags _ _ => true
  | .talloc _ _ => true
  | .tfree _ _ => true
  | .scpy _ _ _ _ _ => true
  | .ssend _ _ _ _ _ => true
  | .sunbind _ _ => true
  | _ => false

/-- An older instruction that reads or writes a v- or m-register is not retired (R76, R84). -/
def Hart.regsBusy (h : Hart) : Bool :=
  (h.vq.any fun v => v.redeal.isSome || !usesNoRegs v.e.op) || (h.mq.any fun e => !usesNoRegs e.op) ||
  (h.sq.any fun e => !usesNoRegs e.op)

/-- A binding is in force for the scalar engine (R318): its SBIND is dispatched, and its SUNBIND is not. -/
def Hart.bindingOpen (h : Hart) : Bool := h.binds.any fun b => b.2.closed.isNone

/-- The lowest multicast number that no member of a gang has issued (R313). -/
def State.firstMcast (s : State) (key : Nat) : Nat :=
  match s.gang? key with
  | none => 0
  | some g => g.members.foldl (fun k m => max k (match m.who with
    | .hart i => ((s.hart? i).map fun h => h.mcast).getD 0
    | .saved _ => m.mcast)) 0

/-- The hart is a member from now on (R167): its index and multicast number. -/
def State.joinGang (s : State) (id : Nat) (h : Hart) (num gg nexp : Nat) : State :=
  let k := gangKey h.ctx (dieOf id) num
  let m := s.firstMcast k
  let r := s.becomeMember id h num gg nexp
  r.1.setHart id { h with gang := some (k, r.2), mcast := m }

/-- A member that holds its groups (R71): registers undefined, VL 0, its index in gD. -/
def State.joinDone (s : State) (id d gg : Nat) : State :=
  (s.modHart id fun h =>
    (({ h.undefRegs s.fresh with vl := 0, vgrant := vgrantOf gg 0, lcache := [] }.wake).setG d
      (w64 ((h.gang.map Prod.snd).getD 0))).advance).bump 40

/-- The attempt of a joiner to hold its groups (R71, R80): it goes on, or waits. -/
def State.joinTry (s : State) (id d num gg nexp : Nat) : State :=
  let r := s.yardGrant id gg
  let full := match r.1.hart? id with
    | some h => h.heldGroups.length == gg && h.groups.length == gg
    | none => false
  if full then r.1.joinDone id d gg
  else r.1.modHart id fun h =>
    { h with wait := some (.yard d num gg nexp), waitSince := if h.wait.isSome then h.waitSince else s.tick }

def execGangJoin (d a b : Nat) (s : State) : Out :=
  onHart s fun id h =>
    let num := bits (h.rg a).toNat 0 8
    let gg := bits (h.rg b).toNat 0 7
    let nexp := bits (h.rg b).toNat 16 10
    if h.regsBusy then .next s
    else if s.joinBad id h num gg nexp || h.bindingOpen then trapAt s id h .gangerr (w64 num)
    else .next ((s.joinGang id h num gg nexp).joinTry id d num gg nexp)

/-- GANG_JOIN_RETRY (R80): a waiting joiner asks the Yard again. -/
def execGangJoinRetry (id : Nat) (s : State) : Out :=
  match (s.hart? id).bind fun h => h.wait with
  | some (.yard d num gg nexp) => .next (s.joinTry id d num gg nexp)
  | _ => .next s

/-- A multicast of the gang that is addressed to the hart has not landed (R167, R313). -/
def Hart.mcastPending (h : Hart) : Bool :=
  h.sq.any fun e => match e.op with
    | .sldG _ _ _ _ _ => true
    | _ => false

def execGangLeave (s : State) : Out :=
  onHart s fun id h =>
    if h.gang.isNone then trapAt s id h .gangerr 0
    else if h.mcastPending then .next s
    else .next ((s.setHart id h.advance).leaveGang id)

/-! ### YIELD and PRIO (R168) -/

/-- The cores of the station of a hart. -/
def stationCores (id : Nat) : List Nat := span (4 * stnOf id) 4

/-- The next of the ready harts of a level, in ascending order cyclically, after the last that was served (R94, R96). -/
def nextAfter (last : Option Nat) (ids : List Nat) : Option Nat :=
  (last.bind fun t => ids.find? fun i => decide (t < i)).orElse fun _ => ids.head?

/-- The turn of a hart ends with credit 0 in every sequencer (R94). -/
def State.noCredit (s : State) (id : Nat) : State :=
  (stationCores id).foldl (fun s k => s.setCore k { s.core k with credit := put (s.core k).credit id 0 }) s

def execYield (s : State) : Out := onHart s fun id h => finish (s.noCredit id) id h

def execPrio (d a : Nat) (s : State) : Out :=
  onHart s fun id h =>
    let new := bits (h.rg a).toNat 0 3
    let lvl := if h.sup || decide (new ≤ h.prio) then new else h.prio
    finish s id ({ h with prio := lvl }.setG d (w64 h.prio))

end Sys2Proof.Machine
end

