-- ==== Sys2Proof/Machine/Queue.lean ====
section
/-! DEFINITION. The queues: what dispatch captures (R16, R17, R32, R317), tokens at issue and retire (R21), stops and
faults (R100), and the retirement of an instruction (R18, R103). -/

namespace Sys2Proof.Machine

/-! ### Dispatch (R16, R17) -/

/-- No running value yet. -/
def Partial.none : Partial := { acc := 0, seen := false, bits := 0, cnt := 0, xd := .none }

/-- What dispatch captures of an instruction (R16): the captured g-registers are named by number. -/
def Hart.newEntry (h : Hart) (slot : Nat) (op : Instr) (tk a b d : Nat) : Entry :=
  { seq := h.seq, slot := slot, pc := h.pc, word := encode op, op := op, tk := tk, ga := h.rg a, gb := h.rg b,
    gd := h.rg d, vl := h.vl, vtype := h.vtype, tshape := h.tshape, tkroute := h.tkroute, srctr := h.srctr,
    srseed := h.srseed, sup := h.sup, pos := [], first := true, conflict := false, popped := false, reserved := false,
    started := false, eff := 0, progress := 0, part := Partial.none, flags := 0, frozen := none, held := false,
    stopped := false, res := [], res2 := [], inflight := [], owed := none, probed := false, bad := none, xl := [], sub := 0, ran := [] }

/-- A queue has no free entry (R17). -/
def Hart.full (h : Hart) (q : Queue) : Bool := decide (q.size ≤ (h.entries q).length)

/-- The slot that the next entry of a queue takes. -/
def Hart.nextSlot (h : Hart) (q : Queue) : Nat := (freeSlot (h.entries q) q.size).getD 0

/-- The hart after an entry has joined a queue: the next word, and the next dispatch number (R29). -/
def Hart.dispatched (h : Hart) : Hart := { h.skip with seq := h.seq + 1 }

def Hart.pushV (h : Hart) (v : VItem) : Hart := { h with vq := h.vq ++ [v] }
def Hart.pushM (h : Hart) (e : Entry) : Hart := { h with mq := h.mq ++ [e] }
def Hart.pushS (h : Hart) (e : Entry) : Hart := { h with sq := h.sq ++ [e] }

/-! ### Convoys at dispatch (R32, R88, R89, R245) -/

/-- The code of a strip word among the classes of a convoy. -/
def stripClass : Nat := 6

/-- Whether a word begins a convoy, whether it conflicts, and the classes of its convoy with it. A conflicting member
is none of the convoy before it; a strip word with C = 1 always conflicts (R245). -/
def Hart.convoyOf (h : Hart) (c : Nat) (cls : List Nat) : Bool × Bool × List Nat :=
  match h.convoy with
  | none => (true, c != 0 && cls.contains stripClass, cls)
  | some l =>
    if c = 0 then (true, false, cls)
    else (false, l.contains stripClass || cls.contains stripClass || cls.any l.contains, l ++ cls)

/-! ### Bound registers at dispatch (R317) -/

/-- Ranges of g and g' registers overlap. -/
def regsMeet (a g b g' : Nat) : Bool := decide (a < b + g') && decide (b < a + g)

/-- The open bindings whose registers an instruction reads. -/
def Hart.boundReads (h : Hart) (rd : List (Nat × Nat)) : List (Nat × Binding) :=
  h.binds.filter fun b => b.2.closed.isNone && rd.any fun k => regsMeet k.1 k.2 b.2.vd b.2.grp

/-- A consumer captures its positions, and the positions advance by its VL. -/
def Hart.consume (h : Hart) (e : Entry) (rd : List (Nat × Nat)) : Hart × Entry :=
  let t := VT.of e.vtype
  let bs := h.boundReads rd
  let take : Nat × Binding → Nat × Binding := fun b =>
    if bs.any fun x => x.1 == b.1 then
      (b.1, { b.2 with pos := b.2.pos + e.vl, epl := epl h.vcfg t,
                       cons := b.2.cons ++ [(e.seq, b.2.pos, e.vl, 0)] })
    else b
  ({ h with binds := h.binds.map take }, { e with pos := bs.map fun b => (b.1, b.2.pos) })

/-! ### Tokens at issue and retire (R21) -/

/-- It pops; it pushes (R34). -/
def Entry.pops (e : Entry) : Bool := e.tk.testBit 1
def Entry.pushes (e : Entry) : Bool := e.tk.testBit 0

/-- The pop of one entry, when its token is there. -/
def Hart.popOne (h : Hart) (q : Queue) (slot : Nat) : Hart :=
  match h.entry? q slot with
  | none => h
  | some e =>
    let f := popFifo q e
    if e.pops && !e.popped && decide (0 < h.tokens f) then
      (h.setTokens f (h.tokens f - 1)).modEntry q slot fun e => { e with popped := true }
    else h

/-- The reservation of one entry, when there is room. -/
def Hart.reserveOne (h : Hart) (q : Queue) (slot : Nat) : Hart :=
  match h.entry? q slot with
  | none => h
  | some e =>
    let f := pushFifo q e
    if e.pushes && !e.reserved && (e.popped || !e.pops) && decide (h.tokens f + h.reservedIn f < 15) then
      h.modEntry q slot fun e => { e with reserved := true }
    else h

/-- The pops and reservations of the members of a convoy, and whether all are satisfied. -/
def Hart.takeTokens (h : Hart) (q : Queue) (slots : List Nat) : Hart × Bool :=
  let h1 := slots.foldl (fun h k => h.popOne q k) h
  let h2 := slots.foldl (fun h k => h.reserveOne q k) h1
  (h2, slots.all fun k =>
    match h2.entry? q k with
    | some e => (e.popped || !e.pops) && (e.reserved || !e.pushes)
    | none => true)

/-- The push at retire: the reservation becomes a token. -/
def Hart.pushToken (h : Hart) (q : Queue) (e : Entry) : Hart :=
  if e.pushes then h.setTokens (pushFifo q e) (h.tokens (pushFifo q e) + 1) else h

/-! ### Stops and faults (R100, R101) -/

/-- An entry may begin or go on: its queue is not stopped by a fault, and it is not stopped, frozen or held. -/
def Entry.runnable (e : Entry) : Bool := !e.stopped && e.frozen.isNone && !e.held

/-- The entry's fault. -/
def Entry.faultOf (q : Queue) (e : Entry) (c : Cause) (val : W64) (estart : Nat) : EFault :=
  { q := q, slot := e.slot, pc := e.pc, cause := c, val := val, estart := estart, valid := true }

/-- An entry faults with progress index `estart` (R100, R101): it is stopped there. -/
def Hart.faultEntry (h : Hart) (q : Queue) (e : Entry) (c : Cause) (val : W64) (estart : Nat) : Hart :=
  (h.modEntry q e.slot fun x => { x with stopped := true, progress := estart, sub := 0, ran := [] }).engineFault
    (e.faultOf q c val estart)

/-! ### Retirement (R103) -/

/-- A retired consumer leaves its bindings (R317). -/
def Hart.leaveBinds (h : Hart) (e : Entry) : Hart :=
  { h with binds := h.binds.map fun b => (b.1, { b.2 with cons := b.2.cons.filter fun c => c.1 != e.seq }) }

/-- The groups park once the vector work dispatched before a wait or a freeze has retired (R72, R182). -/
def Hart.parkIdle (h : Hart) : Hart :=
  if h.frozen.isSome then (if h.vq.isEmpty then h.park else h)
  else match h.wait with
  | none => h
  | some (.yard _ _ _ _) => h
  | some (.restore _ _) => h
  | some _ => if h.vq.isEmpty then h.park else h

/-- An entry leaves its queue: its flags, its token, its interlock entries. -/
def Hart.retire (h : Hart) (q : Queue) (e : Entry) : Hart :=
  let h1 := ((h.orFlags e.flags).pushToken q e).leaveBinds e
  let h2 := { h1 with ilk := h1.ilk.filter fun k => k.seq != e.seq }
  match q with
  | .vector => { h2 with vq := h2.vq.filter fun v => v.e.seq != e.seq }.parkIdle
  | .matrix => { h2 with mq := h2.mq.filter fun x => x.seq != e.seq }
  | .stream => { h2 with sq := h2.sq.filter fun x => x.seq != e.seq }

/-- PARKING (R72). -/
def execParking (id : Nat) (s : State) : Out := .next (s.modHart id Hart.parkIdle)

/-- QUEUE_ENTRY_FREE (R17): with a free entry in the queue, the stalled hart is the next to execute. -/
def execQueueEntryFree (id q : Nat) (s : State) : Out :=
  let qu : Queue := if q = 0 then .vector else if q = 1 then .matrix else .stream
  match s.hart? id with
  | some h => if h.full qu then .next s else .next { s with cur := id }
  | none => .next s

end Sys2Proof.Machine
end

