-- ==== Sys2Proof/Machine/Vconf.lean ====
section
/-! DEFINITION. VSETVL with its re-deal entry, VCFG, VMREAD and VMPOPC (R76, R81, R84, R169). -/

namespace Sys2Proof.Machine

/-! ### VSETVL (R81) -/

/-- The refusal of a requested type: VTYPE illegal, VL 0, gD 0 (R81). -/
def Hart.typeRefused (h : Hart) (d : Nat) : Hart := ({ h with vtype := vtypeIll, vl := 0 }.setG d 0).advance

/-- GROUP count in force for a re-deal: 1 under VILL (R84). -/
def redealGroup (vtype : W64) : Nat := if (VT.of vtype).vill then 1 else (VT.of vtype).g

/-- The re-deal entry of a VSETVL (R84). -/
def Hart.redealItem (h : Hart) (op : Instr) (keep newVl g : Nat) (spilled : List Nat) : VItem :=
  { e := { h.newEntry (h.nextSlot .vector) op 0 0 0 0 with started := false },
    redeal := some { keep := keep, n := min h.vl newVl, group := redealGroup h.vtype, lOld := 256 * h.gcount,
                     lNew := 256 * g, spilled := spilled } }

/-- The effect of VSETVL with a legal type and a length of at least 1, once its grant is known. -/
def Hart.setvl (h : Hart) (op : Instr) (d rl keep : Nat) (vt : W64) (e g : Nat) (spilled : List Nat)
    (groups : List Grp) (deficit : Nat) : Hart :=
  let newVl := min rl (256 * g * e)
  let h1 := if g != h.gcount || !spilled.isEmpty then
    { h.pushV (h.redealItem op keep newVl g spilled) with convoy := none, seq := h.seq + 1 }
  else h
  ({ h1 with vtype := vt, vgrant := vgrantOf g deficit, vl := newVl, groups := groups, deficit := deficit }.setG d
    (w64 newVl)).advance

/-- Grant indices that await refill (R87). -/
def Hart.spilledIdx (h : Hart) : List Nat := (h.groups.filter fun g => g.st == .spilled).map fun g => g.idx

/-! ### The re-deal (R84) -/

/-- A re-deal may issue: it is the oldest of its queue, and older users of registers in the other queues have
retired. -/
def Hart.redealReady (h : Hart) (e : Entry) : Bool :=
  e.runnable && !h.qstop && (h.mq.all fun x => usesNoRegs x.op || decide (e.seq < x.seq)) &&
  (h.sq.all fun x => usesNoRegs x.op || decide (e.seq < x.seq))

/-- A re-deal issues: the spilled groups are read, then kept operands and masks move. -/
def State.redeal (s : State) (id : Nat) : State :=
  match s.hart? id with
  | none => s
  | some h =>
    match h.vq with
    | { e := e, redeal := some r } :: _ =>
      if !h.redealReady e || s.spillAway id h r.spilled then s
      else
        match s.spillRead id h r.spilled with
        | some (c, _, va) => s.setHart id (h.faultEntry .vector e c (w64 va) 0)
        | none => (s.setHart id (((s.readSpill id h r.spilled).redealRegs r s.fresh).retire .vector e)).bump 40
    | _ => s

def execRedeal (id : Nat) (s : State) : Out := .next (s.redeal id)

/-- A grant that needs a re-deal (R81). -/
def Hart.deals (h : Hart) (g : Nat) (spilled : List Nat) : Bool := g != h.gcount || !spilled.isEmpty

/-- An eager machine issues the re-deal at once when nothing holds it back (log 3). -/
def State.eagerRedeal (s : State) (id : Nat) : State := if s.eager then s.redeal id else s

def execVsetvl (d a b : Nat) (s : State) : Out :=
  onHart s fun id h =>
    let vt := h.rg b
    let rl := bits (h.rg a).toNat 0 32
    let keep := bits (h.rg a).toNat 32 32
    let e := epl h.vcfg (VT.of vt)
    if vtypeRefused vt || e == 0 then .next (s.setHart id (h.typeRefused d))
    else if rl = 0 then finish s id ({ h with vtype := vt, vl := 0, deficit := 0 }.setG d 0)
    else
      let op := Instr.vsetvl d a b
      let lost := h.spilledIdx
      let r := match h.gang with
        | some _ => (s, h.gcount)
        | none => s.yardGrant id (min 64 (ceilDiv rl (256 * e)))
      if h.deals r.2 lost && h.full .vector then .next s
      else
        match r.1.hart? id with
        | some h' =>
          .next ((r.1.setHart id (h'.setvl op d rl keep vt e r.2 lost h'.groups h'.deficit)).eagerRedeal id)
        | none => .next r.1

/-! ### VCFG (R76) -/

/-- VCFG refuses a value. -/
def vcfgRefused (x : W64) : Bool :=
  let v := x.toNat
  bits v 13 51 != 0 || bits v 2 6 != 0 || bits v 0 2 == 3 || decide (bits v 8 5 < 4) || decide (16 < bits v 8 5)

/-- The clean lines that stay when the register file takes `banks` banks (R76): those of banks that do not pass to it. -/
def Hart.keptLanes (h : Hart) (banks : Nat) : List LaneLine := h.lcache.filter fun l => decide (l.pos < (16 - banks) * 64)

def execVcfg (d a : Nat) (s : State) : Out :=
  onHart s fun id h =>
    let new := h.rg a
    if h.stripOpen then illins s (.vcfg d a)
    else if vcfgRefused new then .next (s.setHart id (h.typeRefused d))
    else if new = h.vcfg then finish s id (h.setG d (w64 (vlmax h.vcfg h.vtype)))
    else if h.bindingOpen then illins s (.vcfg d a)
    else if h.regsBusy then .next s
    else
      .next ((s.setHart id
        (({ h.undefRegs s.fresh with vcfg := new, vl := 0, lcache := h.keptLanes (banksOf new) }.setG d (w64 (vlmax new h.vtype))).advance)).bump 40)

/-! ### Mask reads (R148, R169) -/

/-- The mask registers that an entry of the vector queue writes. -/
def mdest (i : Instr) : List Nat :=
  match i with
  | .vseqV _ d _ _ => [d]
  | .vseqVX _ d _ _ => [d]
  | .vsneV _ d _ _ => [d]
  | .vsneVX _ d _ _ => [d]
  | .vsltV _ d _ _ => [d]
  | .vsltVX _ d _ _ => [d]
  | .vsleV _ d _ _ => [d]
  | .vsleVX _ d _ _ => [d]
  | .vsgtV _ d _ _ => [d]
  | .vsgtVX _ d _ _ => [d]
  | .vsgeV _ d _ _ => [d]
  | .vsgeVX _ d _ _ => [d]
  | .vmand _ d _ _ => [d]
  | .vmor _ d _ _ => [d]
  | .vmxor _ d _ _ => [d]
  | .vmandn _ d _ _ => [d]
  | .vmnot _ d _ => [d]
  | .vldff _ _ _ f => [f]
  | _ => []

/-- An older instruction that writes mask register m is not retired, re-deal entries included. -/
def Hart.maskBusy (h : Hart) (m : Nat) : Bool := h.vq.any fun v => v.redeal.isSome || (mdest v.e.op).contains m

def execVmread (d m b : Nat) (s : State) : Out :=
  onHart s fun id h =>
    if h.maskBusy m then .next s
    else
      let e := (h.rg b).toNat
      finish s id (h.setG d (w64 (natOfBits ((List.range 64).map fun k =>
        decide (e + k < h.vl) && maskBit h m (e + k)))))

def execVmpopc (d m : Nat) (s : State) : Out :=
  onHart s fun id h =>
    if h.maskBusy m then .next s
    else finish s id (h.setG d (w64 ((List.range h.vl).filter fun e => maskBit h m e).length))

end Sys2Proof.Machine
end

