-- ==== Sys2Proof/Machine/Scoreboard.lean ====
section
/-! DEFINITION. The scoreboard between the queues (R19, R26, R28, R310), the checks at decode of the vector words (R50), and
their dispatch (R16, R32). -/

namespace Sys2Proof.Machine

/-! ### Registers that an instruction reads and writes (R19, R274, R310) -/

/-- Registers read and written, each a first register and a count, and mask registers. -/
structure Regs where
  rd : List (Nat × Nat)
  wr : List (Nat × Nat)
  mrd : List Nat
  mwr : List Nat
  deriving DecidableEq, Repr

def Regs.none : Regs := { rd := [], wr := [], mrd := [], mwr := [] }

/-- Two lists of registers have one in common. -/
def rangesMeet (l l' : List (Nat × Nat)) : Bool := l.any fun a => l'.any fun b => regsMeet a.1 a.2 b.1 b.2

/-- Two instructions are ordered by the scoreboard: a common register, written by one of them. -/
def Regs.conflict (x y : Regs) : Bool :=
  rangesMeet x.wr (y.rd ++ y.wr) || rangesMeet x.rd y.wr || (x.mwr.any fun k => (y.mrd ++ y.mwr).contains k) ||
  (x.mrd.any fun k => y.mwr.contains k)

/-- The mask of an X word. -/
def xMask (x : XHdr) : List Nat := if x.msk = 0 then [] else [x.msk]

/-- Registers of a matrix instruction (R274). -/
def mtxRegs (e : Entry) : Regs :=
  let scale : Nat → Nat := fun _ => if (TS.of e.tshape).blk = 0 then 1 else 2
  match e.op with
  | .opa x _ a b => { rd := [(a, scale a), (b, 8)], wr := [], mrd := xMask x, mwr := [] }
  | .opas x _ a b => { rd := [(a, scale a), (b, 8)], wr := [], mrd := xMask x, mwr := [] }
  | .trd x _ a _ => { rd := [], wr := [(a, 1)], mrd := xMask x, mwr := [] }
  | .twr x _ a _ => { rd := [(a, 1)], wr := [], mrd := xMask x, mwr := [] }
  | .tzero x _ => { Regs.none with mrd := xMask x }
  | .tshift x _ _ => { Regs.none with mrd := xMask x }
  | .tmerge x _ _ => { Regs.none with mrd := xMask x }
  | .tmergeAtt x _ _ => { Regs.none with mrd := xMask x }
  | _ => Regs.none

/-- Registers of an instruction of the stream queue (R310); SUNBIND leaves its bound register untagged (R319). -/
def Hart.strmRegs (h : Hart) (e : Entry) : Regs :=
  let g := (VT.of e.vtype).g
  match e.op with
  | .sld _ _ d _ _ => { Regs.none with wr := [(d, g)] }
  | .spln _ _ d _ _ => { Regs.none with wr := [(d, g)] }
  | .sldG _ _ d _ _ => { Regs.none with wr := [(d, g)] }
  | .sind _ _ d _ _ => { Regs.none with wr := [(d, g)] }
  | .spat _ _ d _ => { Regs.none with wr := [(d, g)] }
  | .sst _ _ d _ _ => { Regs.none with rd := [(d, g)] }
  | .sunbind _ _ => { Regs.none with wr := e.pos.filterMap fun p => (find? h.binds p.1).map fun b => (b.vd, b.grp) }
  | _ => Regs.none

/-- Registers of an instruction of the vector queue with its captured type. -/
def VSpec.regs (x : VSpec) (g : Nat) : Regs :=
  { rd := (x.rd.map fun k => (k, g)) ++ x.rdPair.map fun k => (k, 2 * g),
    wr := (x.wr.map fun k => (k, g)) ++ x.wrPair.map fun k => (k, 2 * g), mrd := x.mrd, mwr := x.mwr }

/-- Older entries of the matrix queue that the scoreboard puts before an entry (R19). -/
def Hart.mtxBefore (h : Hart) (seq : Nat) (r : Regs) : Bool :=
  h.mq.any fun e => decide (e.seq < seq) && (mtxRegs e).conflict r

/-- Older streams that write a register the entry writes, or read one it writes (R310). -/
def Hart.strmBefore (h : Hart) (seq : Nat) (r : Regs) : Bool :=
  h.sq.any fun e => decide (e.seq < seq) && (h.strmRegs e).conflict { r with rd := [], mrd := [] }

/-- Older streams that write a register the entry reads: it chains on their slots (R26, R310). -/
def Hart.feeders (h : Hart) (seq : Nat) (r : Regs) : List Entry :=
  h.sq.filter fun e => decide (e.seq < seq) && rangesMeet (h.strmRegs e).wr r.rd

/-- A register is bound for an instruction (R318). -/
def Hart.boundFor (h : Hart) (seq : Nat) (l : List (Nat × Nat)) : Bool :=
  h.binds.any fun b => bindingFor seq b && rangesMeet l [(b.2.vd, b.2.grp)]

/-! ### Slots (R302, R304) -/

def Hart.slot (h : Hart) (q : Nat) : Slot := vat h.slots q Slot.reset
def Hart.setSlot (h : Hart) (q : Nat) (t : Slot) : Hart := { h with slots := h.slots.setIfInBounds q t }

/-- The slot that a stream instruction names. -/
def slotOf (i : Instr) : Nat :=
  match i with
  | .sld _ q _ _ _ => q
  | .sst _ q _ _ _ => q
  | .scpy _ q _ _ _ => q
  | .spln _ q _ _ _ => q
  | .sldG _ q _ _ _ => q
  | .sind _ q _ _ _ => q
  | .spat _ q _ _ => q
  | .sbind _ q _ _ _ => q
  | .sunbind _ q => q
  | .ssend _ q _ _ _ => q
  | .swait q _ => q
  | .savail q _ => q
  | .sstat q _ _ => q
  | _ => 0

/-- The element count of a count stream (R312, R317): gB[31:0] or VL, at most VL but for a binding. -/
def streamCount (e : Entry) : Nat :=
  let c := lowBits e.gb 32
  match e.op with
  | .sbind _ _ _ _ _ => if c = 0 then e.vl else c
  | .scpy _ _ _ _ _ => c
  | .ssend _ _ _ _ _ => c
  | _ => if c = 0 then e.vl else min c e.vl

/-! ### Decode checks (R40, R50) -/

/-- The trap of a word of the vector queue at steps 2 and 3 of R50. -/
def vecCheck (h : Hart) (x : VSpec) : Option Cause :=
  let t := VT.of h.vtype
  let n := nregOf h.vcfg
  if t.vill then some .vill
  else if (x.vf.all fun k => decide (k < n) && k % t.g == 0) && (x.xf.all fun k => decide (k < 4)) &&
      ((x.mrd ++ x.mwr).all fun k => decide (k < 8)) && x.legal t n &&
      (!x.needMask || x.hdr.msk != 0) then none
  else some .illins

/-! ### Dispatch (R16, R32, R207, R317) -/

/-- The field of a V or VM word at [19:15] and at [14:10], captured whatever they name. -/
def fieldA (op : Instr) : Nat := fld (encode op) 15 5
def fieldB (op : Instr) : Nat := fld (encode op) 10 5

/-- The entry of a vector-class word and the hart that has dispatched it, but for its place in the queue: `cls` its
classes, `rd` the registers it reads, `sr` whether it captures SRCTR. -/
def Hart.vecEntry (h : Hart) (op : Instr) (hdr : VHdr) (cls : List Nat) (rd : List (Nat × Nat)) (sr : Bool) : Hart × Entry :=
  let c := h.convoyOf hdr.c cls
  let e0 := h.newEntry (h.nextSlot .vector) op hdr.tk (fieldA op) (fieldB op) 0
  let r := h.consume { e0 with first := c.1, conflict := c.2.1 } rd
  ({ r.1.dispatched with convoy := some c.2.2, srctr := if sr then (h.srctr + 1) % 2 ^ 32 else h.srctr }, r.2)

/-- It captures SRCTR: it rounds, under SR (R207, R283). -/
def VSpec.capturesSr (x : VSpec) (vtype : W64) : Bool := (VT.of vtype).rm == 5 && x.rounds (VT.of vtype)

/-! ### What has landed (R26, R28, R310) -/

/-- The elements up to `hi` that the entry reads of a stream have landed (R26, R28, R317): those of a whole stream of N
elements where the permit `stve` is withdrawn or the reader takes the whole row; a reader flagged .avail does not wait. -/
def Hart.landed (h : Hart) (e : Entry) (r : Regs) (stve whole av : Bool) (hi : Nat) : Bool :=
  (h.feeders e.seq r).all (fun f =>
    let t := h.slot (slotOf f.op)
    let need := if av then min t.n e.eff else if stve && !whole then min hi (min t.n e.eff) else t.n
    f.started && decide (need ≤ t.ea)) &&
  e.pos.all (fun p =>
    match find? h.binds p.1 with
    | some b =>
      b.issued && (e.eff == 0 || decide (min (p.2 + (if stve && !whole then min hi e.eff else e.eff)) b.n ≤ (h.slot b.q).ea))
    | none => true)

/-! ### Ranges of transfers that have not issued (R25, R138) -/

/-- The byte ranges that a transfer of the stream queue may touch, known at its capture, with whether it writes; none
where they are known only once it issues. The ranges of sliced arrays lie within these. -/
def Entry.spans (e : Entry) : Option (List (Nat × Nat × Bool)) :=
  let n := streamCount e
  let w := (VT.of e.vtype).wd
  let one : W64 → Bool → Nat × Nat × Bool := fun a wr => (a.toNat, a.toNat + ceilDiv (n * w) 8 + 128, wr)
  match e.op with
  | .sld _ _ _ _ _ => some [one e.ga false]
  | .spln _ _ _ _ _ => some [one e.ga false]
  | .sldG _ _ _ _ _ => some [one e.ga false]
  | .sbind _ _ _ _ _ => some [one e.ga false]
  | .sst _ _ _ _ _ => some [one e.ga true]
  | .scpy _ _ _ _ _ => some [one e.ga false, one e.gd true]
  | .ssend _ _ _ _ _ => some [(e.ga.toNat, e.ga.toNat + 32, false), (e.gd.toNat, e.gd.toNat + n, false)]
  | .sunbind _ _ => some []
  | _ => none

/-- A younger access of the bytes lo to hi waits for an older transfer that has not issued (R138): for any that waits for no
token, and else for one that it overlaps, where one of the two writes; an unknown range is only read. -/
def Hart.streamUnissued (h : Hart) (seq lo hi : Nat) (wr : Bool) : Bool :=
  let older := h.sq.filter fun e => decide (e.seq < seq)
  let waits := older.any fun e => e.pops && !e.popped
  older.any fun e => isTransfer e.op && !e.started &&
    (!waits || (match e.spans with
      | none => wr
      | some l => l.any fun r => meets lo hi r.1 r.2.1 && (wr || r.2.2)))

/-! ### The instructions of the lanes -/

/-- What an entry of the vector queue does in the lanes: its `VSpec`. None for VMU, strip and transform words. -/
def vecSpec (i : Instr) : Option VSpec :=
  match i with
  | .vaddV h d a b => some (specVadd h d a (.v b))
  | .vaddVX h d a _ => some (specVadd h d a .g)
  | .vsubV h d a b => some (specVsub h d a (.v b))
  | .vsubVX h d a _ => some (specVsub h d a .g)
  | .vminV h d a b => some (specVmin h d a (.v b))
  | .vminVX h d a _ => some (specVmin h d a .g)
  | .vmaxV h d a b => some (specVmax h d a (.v b))
  | .vmaxVX h d a _ => some (specVmax h d a .g)
  | .vandV h d a b => some (specVbit Nat.land h d a (.v b))
  | .vandVX h d a _ => some (specVbit Nat.land h d a .g)
  | .vorV h d a b => some (specVbit Nat.lor h d a (.v b))
  | .vorVX h d a _ => some (specVbit Nat.lor h d a .g)
  | .vxorV h d a b => some (specVbit Nat.xor h d a (.v b))
  | .vxorVX h d a _ => some (specVbit Nat.xor h d a .g)
  | .vsllV h d a b => some (specVshift sllOp h d a (.v b))
  | .vsllVX h d a _ => some (specVshift sllOp h d a .g)
  | .vsrlV h d a b => some (specVshift srlOp h d a (.v b))
  | .vsrlVX h d a _ => some (specVshift srlOp h d a .g)
  | .vsraV h d a b => some (specVshift sraOp h d a (.v b))
  | .vsraVX h d a _ => some (specVshift sraOp h d a .g)
  | .vsaddV h d a b => some (specVsat saddOp h d a (.v b))
  | .vsaddVX h d a _ => some (specVsat saddOp h d a .g)
  | .vssubV h d a b => some (specVsat ssubOp h d a (.v b))
  | .vssubVX h d a _ => some (specVsat ssubOp h d a .g)
  | .vavgV h d a b => some (specVavg h d a (.v b))
  | .vavgVX h d a _ => some (specVavg h d a .g)
  | .vseqV h d a b => some (specVcmp .eq h d a (.v b))
  | .vseqVX h d a _ => some (specVcmp .eq h d a .g)
  | .vsneV h d a b => some (specVcmp .ne h d a (.v b))
  | .vsneVX h d a _ => some (specVcmp .ne h d a .g)
  | .vsltV h d a b => some (specVcmp .lt h d a (.v b))
  | .vsltVX h d a _ => some (specVcmp .lt h d a .g)
  | .vsleV h d a b => some (specVcmp .le h d a (.v b))
  | .vsleVX h d a _ => some (specVcmp .le h d a .g)
  | .vsgtV h d a b => some (specVcmp .gt h d a (.v b))
  | .vsgtVX h d a _ => some (specVcmp .gt h d a .g)
  | .vsgeV h d a b => some (specVcmp .ge h d a (.v b))
  | .vsgeVX h d a _ => some (specVcmp .ge h d a .g)
  | .vselV h d a b => some (specVsel h d a (.v b))
  | .vselVX h d a _ => some (specVsel h d a .g)
  | .vmulV h d a b => some (specVmul h d a (.v b))
  | .vmulVX h d a _ => some (specVmul h d a .g)
  | .vmulhV h d a b => some (specVmulh h d a (.v b))
  | .vmulhVX h d a _ => some (specVmulh h d a .g)
  | .vmaccV h d a b => some (specVmacc h d a (.v b))
  | .vmaccVX h d a _ => some (specVmacc h d a .g)
  | .vdivV h d a b => some (specVdiv h d a (.v b))
  | .vdivVX h d a _ => some (specVdiv h d a .g)
  | .vremV h d a b => some (specVrem h d a (.v b))
  | .vremVX h d a _ => some (specVrem h d a .g)
  | .vsmulV h d a b => some (specVsmul h d a (.v b))
  | .vsmulVX h d a _ => some (specVsmul h d a .g)
  | .vrsub h d a _ => some (specVrsub h d a)
  | .vabs h d a => some (specVabs h d a)
  | .vneg h d a => some (specVneg h d a)
  | .vmvV h d a => some (specVmv h d (.v a))
  | .vmvVX h d _ => some (specVmv h d .g)
  | .vcvt h d a b => some (specVcvt h d a b)
  | .vexp2 h d a => some (specVexp2 h d a)
  | .vlog2 h d a => some (specVlog2 h d a)
  | .vmand h d a b => some (specMask (fun x y => x && y) h d a (some b))
  | .vmor h d a b => some (specMask (fun x y => x || y) h d a (some b))
  | .vmxor h d a b => some (specMask (fun x y => x != y) h d a (some b))
  | .vmandn h d a b => some (specMask (fun x y => x && !y) h d a (some b))
  | .vmnot h d a => some (specMask (fun x _ => !x) h d a none)
  | .vslideup h d a _ => some (specVslideup h d a)
  | .vslidedn h d a _ => some (specVslidedn h d a)
  | .vperm h d a b => some (specVperm h d a b)
  | .vcompress h d a => some (specVcompress h d a)
  | .viota h d a => some (specViota h d a)
  | .vindex h d => some (specVindex h d)
  | .vconfl h d a => some (specVconfl h d a)
  | .vred h d a b => some (specVred h d a b)
  | .vscan h d a b => some (specVscan h d a b)
  | .vredoF h d a => some (specVredo h d a)
  | .vredx h d a => some (specVredx h d a)
  | .mxq h d a b => some (specMxq h d a b)
  | .mxdq h d a b => some (specMxdq h d a b)
  | .fcvtV h d a b => some (specFcvtV h d a b)
  | .bsexp h d a b => some (specBsexp h d a b)
  | .srseed h _ => some (specSrseed h)
  | .srskip h _ => some (specSrskip h)
  | .xaccClr h d => some (specXaccClr h d)
  | .xaccAdd h d a => some (specXaccAdd h d a)
  | .xaccRd h d a _ => some (specXaccRd h d a)
  | _ => none

end Sys2Proof.Machine
end

