-- ==== Sys2Proof/Machine/Probe.lean ====
section
/-! DEFINITION. The elements of a VMU access (R227 to R229), its registers (R19), and its probe at convoy start (R92, R126,
R234, R236, R238). -/

namespace Sys2Proof.Machine

/-! ### Elements (R227 to R229) -/

/-- The environment of a VMU entry: V is the captured VL (R230). -/
def VmuOp.env (o : VmuOp) (h : Hart) (e : Entry) : VEnv := { VEnv.of h e o.hdr.msk with V := e.vl }

def VDir.isAmo (d : VDir) : Bool :=
  match d with
  | .amo _ => true
  | _ => false

/-- The bit address B(e) of an element (R227). -/
def VmuOp.bitAddr (o : VmuOp) (n : VEnv) (e : Nat) : Int :=
  let base : Int := 8 * (n.e.ga.toNat : Int)
  match o.addr with
  | .unit => base + (e * n.vt.wd : Nat)
  | .strided => base + e * n.e.gb.toInt
  | .indexed => base + (n.rd o.b n.vt.wb 1 e * n.vt.wd : Nat)

/-- The first byte address of an element modulo 2^64, the bit in it, and the bytes it touches. -/
def VmuOp.place (o : VmuOp) (n : VEnv) (e : Nat) : Nat × Nat × Nat :=
  let b := o.bitAddr n e
  let bit := (b % 8).toNat
  ((b / 8 % (2 ^ 64 : Nat)).toNat, bit, (bit + n.vt.wd + 7) / 8)

/-- What an access needs: R, W or both. -/
def VDir.kind (d : VDir) : AKind :=
  match d with
  | .load => .r
  | .store => .w
  | .amo _ => .rw

/-- The access of an element that Probe takes (R233, R236). -/
def VmuOp.acc (o : VmuOp) (n : VEnv) (e : Nat) : Acc1 :=
  let p := o.place n e
  { e := e, va := p.1, n := p.2.2, k := o.dir.kind, al := if o.dir.isAmo then n.vt.wd / 8 else 1 }

/-- Registers of a VMU word (R19). -/
def VmuOp.regs (o : VmuOp) (g : Nat) : Regs :=
  { rd := (match o.dir with
      | .load => []
      | .store => [(o.d, g)]
      | .amo op => [(o.d, if op = 6 then 2 * g else g)]) ++ (if o.addr = .indexed then [(o.b, g)] else []),
    wr := if o.dir = .store then [] else [(o.d, g)],
    mrd := maskReads o.hdr, mwr := o.ff.toList }

/-! ### The probe (R234, R236, R238) -/

/-- Who translates for an entry: its hart, in the mode of its dispatch (R122), on the path of its access (R126), with the
translations that its probe has made. -/
def Entry.who (e : Entry) (id : Nat) (h : Hart) : Who1 :=
  { id := id, ctx := h.ctx, sup := e.sup, xl := e.xl,
    port := match vmuOp e.op with
      | some o => if o.addr = .indexed then .gather else .row
      | none => .row }

/-- The probe of one element (R234, R236). -/
def VmuOp.probe1 (o : VmuOp) (s : State) (c : Who1) (a : Acc1) : Option (Cause × Nat) :=
  match s.probe1 c a with
  | some (cause, u) =>
    if o.dir.isAmo && cause == .attrconfl && (s.offDram c a).isSome then some (.pgfltW, u) else some (cause, u)
  | none =>
    if o.dir.isAmo then (s.offDram c a).map fun u => (.pgfltW, u)
    else if o.ff.isSome then (s.onDevice c a).map fun u => (.pgfltR, u)
    else none

/-- The first failure among elements, in order: element, cause and address. -/
def VmuOp.probe (o : VmuOp) (s : State) (c : Who1) (n : VEnv) (es : List Nat) : Option (Nat × Cause × Nat) :=
  es.findSome? fun e =>
    match o.probe1 s c (o.acc n e) with
    | some f => some (e, f)
    | none => none

/-! ### The probe at convoy start (R92, R126, R238) -/

/-- Registers that an entry of the vector queue writes. -/
def vecWrites (e : Entry) : Regs :=
  let g := (VT.of e.vtype).g
  match vecSpec e.op, vmuOp e.op with
  | some x, _ => x.regs g
  | none, some o => o.regs g
  | none, none =>
    match e.op with
    | .xdec _ d _ => { Regs.none with wr := [(d, g)] }
    | _ => Regs.none

/-- The predicate and index registers from which the access of a VMU word is found. -/
def VmuOp.sources (o : VmuOp) (g : Nat) : Regs :=
  { Regs.none with rd := if o.addr = .indexed then [(o.b, g)] else [], mrd := maskReads o.hdr }

/-- The probe waits: an earlier member of the convoy, or an older instruction in any queue, still writes a register from
which the access is found (R92). -/
def VmuOp.probeWaits (o : VmuOp) (h : Hart) (e : Entry) : Bool :=
  let r := o.sources (VT.of e.vtype).g
  (h.vq.any fun v => decide (v.e.seq < e.seq) &&
    (v.redeal.isSome || Regs.conflict { Regs.none with wr := (vecWrites v.e).wr, mwr := (vecWrites v.e).mwr } r)) ||
  h.mtxBefore e.seq r ||
  !h.landed { e with eff := e.vl, pos := if o.addr = .indexed then e.pos else [] } r true true false e.vl

/-- The translations of an access, each made once, by 64 KiB unit (R126). -/
def State.pagesOf (s : State) (c : Who1) (l : List Acc1) (have_ : List (Nat × Xlat)) : List (Nat × Xlat) :=
  l.foldl (fun m a => (unitsOf a.va a.n).foldl (fun m u =>
    if (find? m (u / 65536)).isSome then m
    else
      match s.translate c u with
      | some x => put m (u / 65536) { x with pa := x.pa - u % 65536 }
      | none => m) m) have_

/-- The structures take the translations of an access (R125). -/
def State.fillPages (s : State) (c : Who1) (l : List (Nat × Xlat)) : State :=
  l.foldl (fun s p => s.tlbFill c (p.1 * 65536) p.2) s

/-- The element below which a probe looks: V, or the limit that an earlier probe has set to a VLDFF that resumes (R234). -/
def VmuOp.top (o : VmuOp) (e : Entry) : Nat := if o.ff.isSome && e.started then min e.vl e.part.bits else e.vl

/-- The probe of a VMU entry from its progress index (R233, R234, R236, R238): its failure, or its translations, its mode
(`part.seen`: device, and so while a group with device-class elements is under way, R106) and, for a VLDFF, the first element that it does not load. -/
def VmuOp.probeEntry (o : VmuOp) (s : State) (id : Nat) (h : Hart) (e : Entry) : State :=
  let n := o.env h e
  let c := e.unprobed.who id h
  let acts := (n.actives (if e.part.seen then max e.part.cnt e.progress else e.progress) n.V).filter fun k => decide (k < o.top e)
  let pass : List Nat → Nat → State := fun es limit =>
    let accs := es.map (o.acc n)
    let pages := s.pagesOf c accs []
    let dev := accs.any fun a => (s.onDevice c a).isSome
    let mid := e.part.seen && e.part.cnt != e.progress
    (s.modHart id fun h => h.modEntry .vector e.slot fun e =>
      { e with probed := true, bad := none, xl := pages, part := { e.part with seen := dev || mid, bits := limit } }).fillPages c
        pages
  match o.probe s c n acts with
  | none => pass acts (o.top e)
  | some (k, cause, va) =>
    if o.ff.isSome && (n.actives 0 n.V).head? != some k then pass (acts.filter fun j => decide (j < k)) k
    else s.modHart id fun h => h.modEntry .vector e.slot fun e => { e with probed := true, bad := some (cause, k, va) }

/-- A page of the access needs a walk that waits (R407). -/
def VmuOp.pagesAway (o : VmuOp) (s : State) (id : Nat) (h : Hart) (e : Entry) : Bool :=
  let n := o.env h e
  (n.actives 0 n.V).any fun k => let a := o.acc n k; s.walkAway (e.unprobed.who id h) a.va a.n

/-- The members of a convoy are probed in member order, up to one whose probe waits or fails (R92): the state, and whether
anything was probed. -/
def State.probeMembers (s : State) (id : Nat) : (slots : List Nat) → State × Bool
  | [] => (s, false)
  | k :: t =>
    match s.hart? id with
    | none => (s, false)
    | some h =>
      match h.entry? .vector k with
      | none => State.probeMembers s id t
      | some e =>
        match vmuOp e.op with
        | none => State.probeMembers s id t
        | some o =>
          if e.probed then (if e.bad.isSome then (s, false) else State.probeMembers s id t)
          else if o.probeWaits h e || o.pagesAway s id h e then (s, false)
          else (((o.probeEntry s id h e).probeMembers id t).1, true)

end Sys2Proof.Machine
end

