-- ==== Sys2Proof/Machine/Engine.lean ====
section
/-! DEFINITION. The vector engine: issue (R21, R87 to R92, R189, R318), element groups (R90, R102, R195) and retirement. -/

namespace Sys2Proof.Machine

/-! ### Running one instruction -/

/-- The environment of an entry of a `VSpec`. -/
def VSpec.env (x : VSpec) (h : Hart) (e : Entry) : VEnv := VEnv.of h e x.hdr.msk

/-- The entry after the element group from its progress index (R90, R102). -/
def VSpec.group (x : VSpec) (h : Hart) (e : Entry) : Entry :=
  let n := x.env h e
  let hi := e.progress + h.lanes
  let o := x.run n e.progress hi
  { e with res := e.res ++ o.res, res2 := e.res2 ++ o.res2, flags := e.flags ||| o.flags, part := o.part, progress := hi,
           sub := 0, ran := [] }

/-- Every element group is done. -/
def VSpec.finished (x : VSpec) (h : Hart) (e : Entry) : Bool := decide (x.len (x.env h e) ≤ e.progress)

/-- Retirement: the destinations, the flags and the token (R103, R192). -/
def VSpec.retire (x : VSpec) (h : Hart) (e : Entry) (seed : Nat) : Hart := (x.commit (x.env h e) seed).retire .vector e

/-- Cycles of the steps of the element group in progress (R195). -/
def VSpec.cycles (x : VSpec) (h : Hart) (e : Entry) : List Nat := x.steps (x.env h e) e.progress

/-- Element-beats of a step (R195, R375). -/
def Hart.stepBeats (h : Hart) (cycles : Nat) : Nat := h.lanes / 256 * cycles

/-- The entry after its remaining element groups, at most `fuel` of them, and the cycles of their steps. -/
def VSpec.groups (x : VSpec) (h : Hart) (e : Entry) : (fuel : Nat) → Entry × Nat
  | 0 => (e, 0)
  | k + 1 =>
    if x.finished h e then (e, 0)
    else
      let r := x.groups h (x.group h e) k
      (r.1, (x.cycles h e).foldl (fun a c => a + c) r.2)

/-- Granted groups of a hart on a core. -/
def Hart.groupsOn (h : Hart) (core : Nat) : Nat :=
  (h.groups.filter fun g => g.st == .granted && g.core == core % 4).length

/-- A step is charged to the credit of the hart in the sequencer of a core that runs it (R94). -/
def State.chargeOn (s : State) (id : Nat) (h : Hart) (cycles core : Nat) : State :=
  let n := h.groupsOn core
  if n = 0 then s
  else
    let c := s.core core
    s.setCore core
      { c with credit := put c.credit id (getD c.credit id 0 - (n * cycles : Nat)), clock := c.clock + cycles,
               issued := put c.issued id c.clock }

/-- The step of the head of the vector queue is charged in each sequencer that has not yet run its part (R94). -/
def State.charge (s : State) (id : Nat) (h : Hart) (cycles : Nat) : State :=
  let ran := match h.vq with
    | v :: _ => v.e.ran
    | [] => []
  (stationCores id).foldl (fun s k => if ran.contains k then s else s.chargeOn id h cycles k) s

/-- The turn of its level comes to a hart, in each sequencer that drives groups of it (R94). -/
def State.takeTurn (s : State) (id : Nat) (h : Hart) : State :=
  (stationCores id).foldl (fun s k =>
    if h.groupsOn k = 0 then s else s.setCore k { s.core k with turns := put (s.core k).turns h.prio id }) s

/-- A hart whose vector queue has emptied ends its turn with credit 0 (R94). -/
def State.endTurn (s : State) (id : Nat) : State :=
  match s.hart? id with
  | some h => if h.vq.isEmpty then s.noCredit id else s
  | none => s

/-! ### Issue -/

/-- The effective VL (R191). Of several unretired streams that write VA the oldest counts (log 45). -/
def Hart.effVl (h : Hart) (e : Entry) (av va : Nat) : Nat :=
  if av = 0 then e.vl
  else
    match e.pos.findSome? fun p => (find? h.binds p.1).bind fun b =>
        if regsMeet va (VT.of e.vtype).g b.vd b.grp then some (b.q, p.2) else none with
    | some (q, pos) => min e.vl ((h.slot q).ea - pos)
    | none =>
      match h.feeders e.seq { Regs.none with rd := [(va, (VT.of e.vtype).g)] } with
      | f :: _ => min e.vl (h.slot (slotOf f.op)).ea
      | [] => e.vl

/-- A fault found at issue (R101): ILLCONVOY, the write of a bound register, ILLWIDTH, ILLINS of the entry. -/
def VSpec.issueFault (x : VSpec) (h : Hart) (e : Entry) : Option Cause :=
  if e.conflict then some .illconvoy
  else if h.boundFor e.seq (x.regs (VT.of e.vtype).g).wr then some .illins
  else if x.wide (x.env h e) then some .illwidth
  else if x.ill (x.env h e) then some .illins
  else none

/-- The scoreboard holds the entry at issue (R19, R310). -/
def VSpec.blocked (x : VSpec) (h : Hart) (e : Entry) : Bool :=
  let r := x.regs (VT.of e.vtype).g
  h.mtxBefore e.seq r || h.strmBefore e.seq r || (h.feeders e.seq r).any fun f => !f.started

/-- The slots of the convoy that begins with the head of the vector queue. -/
def convoySlots (l : List VItem) : List Nat :=
  match l with
  | [] => []
  | v :: t => v.e.slot :: (t.takeWhile fun w => !w.e.first && !w.e.conflict && w.redeal.isNone).map fun w => w.e.slot

/-- The refill of spilled groups before the issue of a vector-class instruction (R87), which reads their contents from the
spill area: none while it waits. -/
def State.refillFor (s : State) (id : Nat) (h : Hart) (e : Entry) : Option State :=
  match s.refill id with
  | none => if h.refillSince.isSome then none else some (s.setHart id { h with refillSince := some s.tick })
  | some s' =>
    if s.spillAway id h h.spilledIdx then none
    else
    match s.spillRead id h h.spilledIdx with
    | some (c, _, va) => some (s.setHart id (h.faultEntry .vector e c (w64 va) 0))
    | none =>
      let g := s'.readSpill id h h.spilledIdx
      some (s'.modHart id fun h => { h with v := g.v, m := g.m })

/-- The start of the entry. -/
def Entry.start (e : Entry) (eff : Nat) : Entry := { e with started := true, eff := eff }

/-- A write to SBCAP that takes effect before an entry issues (R251). -/
def Hart.sbBefore (h : Hart) (seq : Nat) : Bool := h.sbpend.any fun p => decide (p.1 ≤ seq)

/-- The part of an issue that every entry of the vector queue shares (R21, R87, R89): a refill, then ILLCONVOY, the
scoreboard and older writes to SBCAP, the tokens and the probes of the convoy; then `go`. None while the entry waits. -/
def State.issueV (s : State) (id : Nat) (h : Hart) (e : Entry) (blocked : Bool) (go : State → Hart → Entry → Option State) :
    Option State :=
  if !h.spilledIdx.isEmpty then s.refillFor id h e
  else if e.conflict then some (s.setHart id (h.faultEntry .vector e .illconvoy (w64 e.word) 0))
  else if blocked || h.sbBefore e.seq then none
  else
    let r := h.takeTokens .vector (convoySlots h.vq)
    if !r.2 then (if r.1 = h then none else some (s.setHart id r.1))
    else
      let p := (s.setHart id r.1).probeMembers id (convoySlots h.vq)
      match p.1.hart? id with
      | none => none
      | some h' =>
        match h'.entry? .vector e.slot with
        | none => none
        | some e' =>
          match go p.1 h' e' with
          | some t => some t
          | none => if p.2 then some p.1 else none

/-- AV of a word whose VA names a v-register that it reads (R191). -/
def VSpec.avOf (x : VSpec) (e : Entry) : Nat := if x.rd.contains (fld e.word 15 5) then x.hdr.av else 0

/-- The issue of an instruction of the lanes. -/
def VSpec.issue (x : VSpec) (s : State) (id : Nat) (h : Hart) (e : Entry) : Option State :=
  s.issueV id h e (x.blocked h e) fun s h e =>
    match x.issueFault h e with
    | some c => some (s.setHart id (h.faultEntry .vector e c (w64 e.word) 0))
    | none =>
      some (s.setHart id (h.modEntry .vector e.slot fun e => e.start (h.effVl e (x.avOf e) (fld e.word 15 5))))

/-! ### Element groups -/

/-- A consumer has completed its elements below `hi` (R317). -/
def Hart.consumed (h : Hart) (seq hi : Nat) : Hart :=
  { h with binds := h.binds.map fun b => (b.1, { b.2 with
      cons := b.2.cons.map fun c => if c.1 = seq then (c.1, c.2.1, c.2.2.1, min hi c.2.2.1) else c }) }

/-- A group counts for the open step, and moves the head that a slice began with (R109, R375). -/
def Hart.groupDone (h : Hart) (e : Entry) (hi beats : Nat) : Hart :=
  { (h.consumed e.seq hi).beats beats with sliceHead := if h.sliceHead = some e.seq then none else h.sliceHead }

/-- The STVE permit of a hart's station (R27). -/
def State.stve (s : State) (id : Nat) : Bool := (s.stn (stnOf id)).chperm.testBit 4

/-- The elements of the streams on which the entry chains that the group at its progress index reads have landed. -/
def VSpec.landed (x : VSpec) (s : State) (id : Nat) (h : Hart) (e : Entry) : Bool :=
  h.landed { e with eff := x.reach (x.env h e) } (x.regs (VT.of e.vtype).g) (s.stve id) x.row (x.avOf e != 0)
    (e.progress + h.lanes)

/-- One step of a started instruction (R195), the last of which performs its element group, or its retirement; none while
it waits for a stream. -/
def VSpec.move (x : VSpec) (s : State) (id : Nat) (h : Hart) (e : Entry) : Option State :=
  if x.finished h e then some ((s.setHart id (x.retire h e s.fresh)).bump 40)
  else if !x.landed s id h e then none
  else
    let l := x.cycles h e
    let c := (l[e.sub]?).getD 0
    let s1 := s.charge id h c
    if e.sub + 1 < l.length then
      some (s1.setHart id ((h.modEntry .vector e.slot fun e => { e with sub := e.sub + 1, ran := [] }).beats (h.stepBeats c)))
    else
      let e' := x.group h e
      let used := if x.row then 0 else e'.progress
      some (s1.setHart id ((h.modEntry .vector e.slot fun _ => e').groupDone e used (h.stepBeats c)))

/-! ### A vector instruction as a whole -/

/-- No other hart of the station has work for the lanes. -/
def State.aloneV (s : State) (id : Nat) : Bool :=
  (s.stationHarts (stnOf id)).all fun p => p.1 == id || p.2.vq.isEmpty

/-- Nothing holds back an instruction that is dispatched to an empty queue (log 3): it runs whole at once. -/
def VSpec.ready (x : VSpec) (s : State) (id : Nat) (h : Hart) (e : Entry) : Bool :=
  let r := x.regs (VT.of e.vtype).g
  s.eager && s.aloneV id && h.vq.isEmpty && !h.qstop && h.spilledIdx.isEmpty && h.wait.isNone && !x.blocked h e &&
  (h.feeders e.seq r).isEmpty && e.pos.isEmpty && (!e.pops || decide (0 < h.tokens (popFifo .vector e))) &&
  (!e.pushes || decide (h.tokens (pushFifo .vector e) + h.reservedIn (pushFifo .vector e) < 15)) &&
  (x.issueFault h e).isNone

/-- The pop of an instruction that runs whole. -/
def Hart.popWhole (h : Hart) (e : Entry) : Hart :=
  if e.pops then h.setTokens (popFifo .vector e) (h.tokens (popFifo .vector e) - 1) else h

/-- Element groups of a row of VL elements, at most. -/
def Hart.rowGroups (h : Hart) (e : Entry) : Nat := ceilDiv e.vl h.lanes + 1

/-- The instruction runs whole, alone on its cores: all its element groups, then its retirement, which empties the queue
and ends the turn with credit 0 (R94). -/
def VSpec.whole (x : VSpec) (s : State) (id : Nat) (h : Hart) (e : Entry) : State :=
  let h1 := h.popWhole e
  let r := x.groups h1 (e.start e.vl) (h.rowGroups e)
  ((((s.takeTurn id h).charge id h r.2).noCredit id).setHart id ((x.retire h1 r.1 s.fresh).beats (h.stepBeats r.2))).bump 40

/-- A vector instruction (R16, R50): its traps, its dispatch, and its run when nothing holds it back. -/
def vecExec (x : VSpec) (op : Instr) (s : State) : Out :=
  onHart s fun id h =>
    match vecCheck h x with
    | some c => trapAt s id h c (w64 (encode op))
    | none =>
      if h.full .vector then .next s
      else
        let r := h.vecEntry op x.hdr (x.cls.map FU.code) (x.regs (VT.of h.vtype).g).rd (x.capturesSr h.vtype)
        let h1 := x.atDispatch r.1 r.2.gb
        if x.ready s id h1 r.2 then .next (x.whole s id h1 r.2)
        else .next (s.setHart id (h1.pushV { e := r.2, redeal := none }))

end Sys2Proof.Machine
end

