-- ==== Sys2Proof/Machine/Bsx.lean ====
section
/-! DEFINITION. The block-scale instructions (R47, R291 to R297), each over the shared engine with its `VSpec`. -/

namespace Sys2Proof.Machine

def execMxq (h : VHdr) (d a b : Nat) (s : State) : Out := vecExec (specMxq h d a b) (.mxq h d a b) s
def execMxdq (h : VHdr) (d a b : Nat) (s : State) : Out := vecExec (specMxdq h d a b) (.mxdq h d a b) s
def execFcvtV (h : VHdr) (d a b : Nat) (s : State) : Out := vecExec (specFcvtV h d a b) (.fcvtV h d a b) s
def execBsexp (h : VHdr) (d a b : Nat) (s : State) : Out := vecExec (specBsexp h d a b) (.bsexp h d a b) s
def execSrseed (h : VHdr) (b : Nat) (s : State) : Out := vecExec (specSrseed h) (.srseed h b) s
def execSrskip (h : VHdr) (b : Nat) (s : State) : Out := vecExec (specSrskip h) (.srskip h b) s
def execXaccClr (h : VHdr) (d : Nat) (s : State) : Out := vecExec (specXaccClr h d) (.xaccClr h d) s
def execXaccAdd (h : VHdr) (d a : Nat) (s : State) : Out := vecExec (specXaccAdd h d a) (.xaccAdd h d a) s
def execXaccRd (h : VHdr) (d a b : Nat) (s : State) : Out := vecExec (specXaccRd h d a) (.xaccRd h d a b) s

end Sys2Proof.Machine
end

