-- ==== Sys2Proof/Machine/Control.lean ====
section
/-! DEFINITION. Control transfer (R157). -/

namespace Sys2Proof.Machine

/-- A conditional branch by a signed 16-bit word offset. -/
def branchIf (s : State) (o : Nat) (c : Hart → Bool) : Out :=
  onHart s fun id h => .next (s.setHart id (if c h then h.jump (h.pc + sext64 16 o * 4) else h.advance))

def execBeq (a b o : Nat) (s : State) : Out := branchIf s o fun h => h.rg a == h.rg b
def execBne (a b o : Nat) (s : State) : Out := branchIf s o fun h => h.rg a != h.rg b
def execBlt (a b o : Nat) (s : State) : Out := branchIf s o fun h => (h.rg a).slt (h.rg b)
def execBge (a b o : Nat) (s : State) : Out := branchIf s o fun h => !(h.rg a).slt (h.rg b)
def execBltu (a b o : Nat) (s : State) : Out := branchIf s o fun h => (h.rg a).ult (h.rg b)
def execBgeu (a b o : Nat) (s : State) : Out := branchIf s o fun h => !(h.rg a).ult (h.rg b)

def execJ (o : Nat) (s : State) : Out :=
  onHart s fun id h => .next (s.setHart id (h.jump (h.pc + sext64 26 o * 4)))
def execJal (o : Nat) (s : State) : Out :=
  onHart s fun id h => .next (s.setHart id ((h.setG 31 (h.pc + 4)).jump (h.pc + sext64 26 o * 4)))
def execJalr (d a i : Nat) (s : State) : Out :=
  onHart s fun id h => .next (s.setHart id ((h.setG d (h.pc + 4)).jump (h.rg a + sext64 16 i)))

end Sys2Proof.Machine
end

