-- ==== Sys2Proof/Machine/Fetch.lean ====
section
/-! DEFINITION. Instruction fetch (R116, R180): translation, the class check, the instruction cache, and decoding. -/

namespace Sys2Proof.Machine

/-- The 64 bytes of an instruction line, by the path of its page (R113, R116): none while the fill is held. -/
def State.lineBytes (s : State) (id : Nat) (p : Path) (line : Nat) (w : HeldWrite) : State × Option (List Byte) :=
  match p with
  | .cached =>
    let r := s.fillLine (stnOf id) line w
    (r.1, if r.2 then some ((span (line * 64) 64).map (r.1.stationByte (stnOf id))) else none)
  | _ => (s, some (Memory.readN s.mem (line * 64) 64))

/-- The instruction cache of a core takes a line: it holds 1,024, and a full one gives up its oldest (R111, log 9). -/
def Core.takeLine (c : Core) (line : Nat) (bs : List Byte) : Core :=
  { c with icache := (line, bs) :: c.icache.take 1023 }

/-- The word at the hart's PC: from the instruction cache of its core, which fills from the station cache (R116). A
frame that the Weir has migrated is recalled first (R357), and the hart is held while the recall waits; a fetch from a
die that no path reaches waits at the hart (R407). -/
def State.fetchWord (s : State) (id : Nat) (h : Hart) (x : Xlat) : State × Option Nat :=
  let c := s.core (coreOf id)
  let line := x.pa / 64
  let word : List Byte → Nat := fun bs => ofBytes ((bs.drop (x.pa % 64)).take 4)
  match find? c.icache line with
  | some bs => (s, some (word bs))
  | none =>
    let hw := heldOf (.hart id) h.ctx h.pc.toNat false .again
    let r := s.recallFor x.pa .ordinary hw
    if !s.reaches (dieOf id) (homeDie x.pa) && !(pathOf x == .cached && (s.stn (stnOf id)).holds line) then (s, none)
    else if !r.2 then (r.1, none)
    else
      let l := r.1.lineBytes id (pathOf x) line hw
      match l.2 with
      | none => (l.1, none)
      | some bs => (l.1.setCore (coreOf id) ((l.1.core (coreOf id)).takeLine line bs), some (word bs))

/-- The fault of the fetch at the PC (R180 item 3): PGFLT.X or ATTRCONFL. -/
def State.fetchCheck (s : State) (id : Nat) (h : Hart) : Option (Cause × Nat) :=
  s.probe1 (h.fetcher id) { e := 0, va := h.pc.toNat, n := 4, k := .x, al := 4 }

/-- Fetch and decode, when the fetch passes its checks: the state with its caches and TLBs filled, and the
instruction; none while the hart is held. -/
def State.fetch (s : State) (id : Nat) (h : Hart) : State × Option Instr :=
  match s.xlat (h.fetcher id) h.pc.toNat with
  | none => (s, none)
  | some x =>
    let r := (s.tlbFill (h.fetcher id) h.pc.toNat x).fetchWord id h x
    (r.1, r.2.map fun w =>
      match decode w with
      | .ok i => i
      | .error _ => .illegalEncoding w)

/-- PGFLT.X or ATTRCONFL on fetch (R180): the trap of the next instruction. Nothing when the fetch does not fail. -/
def execFetchFault (id : Nat) (s : State) : Out :=
  match s.hart? id with
  | none => .next s
  | some h =>
    match s.fetchCheck id h with
    | some (c, va) => trapAt s id h c (w64 va)
    | none => .next s

end Sys2Proof.Machine
end

