-- ==== Sys2Proof/Machine/Fpu.lean ====
section
/-! DEFINITION. The scalar floating point unit (R159): fp32 values in f-registers. -/

namespace Sys2Proof.Machine

/-- The rounding mode of an RM field 0 to 4: .rne, .rtz, .rdn, .rup, .rmm (R43). -/
def fpuRm (r : Nat) : Rm := Rm.of r 0

/-- The value of an f-register. -/
def Hart.fval (h : Hart) (n : Nat) : Val := Fmt.fp32.value (h.rf n).toNat

/-- The result of an arithmetic operation on f-registers; overflow gives infinities by the rounding mode. -/
def fpuArith (r : Nat) (ops : List Val) (x : Exact) : Nat × Nat := Fmt.fp32.result false (fpuRm r) ops x

def execFadd (d a b r : Nat) (s : State) : Out :=
  fpuOp s d fun h => fpuArith r [h.fval a, h.fval b] (exactAdd (fpuRm r) (h.fval a) (h.fval b))
def execFsub (d a b r : Nat) (s : State) : Out :=
  fpuOp s d fun h => fpuArith r [h.fval a, h.fval b] (exactAdd (fpuRm r) (h.fval a) (h.fval b).neg)
def execFmul (d a b r : Nat) (s : State) : Out :=
  fpuOp s d fun h => fpuArith r [h.fval a, h.fval b] (exactMul (h.fval a) (h.fval b))
def execFdiv (d a b r : Nat) (s : State) : Out :=
  fpuOp s d fun h => fpuArith r [h.fval a, h.fval b] (exactDiv (h.fval a) (h.fval b))
def execFsqrt (d a r : Nat) (s : State) : Out :=
  fpuOp s d fun h => fpuArith r [h.fval a] (exactSqrt (h.fval a))
def execFmin (d a b : Nat) (s : State) : Out :=
  fpuOp s d fun h => Fmt.fp32.minMax false (h.rf a).toNat (h.rf b).toNat
def execFmax (d a b : Nat) (s : State) : Out :=
  fpuOp s d fun h => Fmt.fp32.minMax true (h.rf a).toNat (h.rf b).toNat

/-- A compare: its result and whether any NaN operand, or only a signalling one, is invalid. -/
def fpuCompare (s : State) (d a b : Nat) (anyNan : Bool) (f : Val → Val → Bool) : Out :=
  fpuToG s d fun h =>
    let x := h.fval a
    let y := h.fval b
    (if x.isNan || y.isNan then 0 else w64 (bitOf (f x y)),
     flagIf (if anyNan then x.isNan || y.isNan else x.isSnan || y.isSnan) flNV)

def execFeq (d a b : Nat) (s : State) : Out := fpuCompare s d a b false Val.eqv
def execFlt (d a b : Nat) (s : State) : Out := fpuCompare s d a b true Val.lt
def execFle (d a b : Nat) (s : State) : Out := fpuCompare s d a b true fun x y => x.lt y || x.eqv y

/-- FCVT.G.F: a signed 64-bit integer, clamped with NV. -/
def floatToInt (rm : Rm) (v : Val) : W64 × Nat :=
  match v with
  | .nan _ => (0, flNV)
  | .inf neg => (if neg then 0x8000000000000000 else 0x7FFFFFFFFFFFFFFF, flNV)
  | .fin _ x =>
    let k := roundInt x rm
    if k < -(2 ^ 63) then (0x8000000000000000, flNV)
    else if (2 ^ 63 : Int) ≤ k then (0x7FFFFFFFFFFFFFFF, flNV)
    else (BitVec.ofInt 64 k, flagIf (decide ((k : Rat) ≠ x)) flNX)

def execFcvtGF (d a r : Nat) (s : State) : Out := fpuToG s d fun h => floatToInt (fpuRm r) (h.fval a)

/-- FCVT.F.G: the value of a signed integer; only NX can arise. -/
def intToFloat (rm : Rm) (x : Int) : Nat × Nat :=
  let y := Fmt.fp32.round (x : Rat) rm
  (Fmt.fp32.encodeFin (decide (x < 0)) y, flagIf (decide (y ≠ (x : Rat))) flNX)

def execFcvtFG (d a r : Nat) (s : State) : Out := fpuOp s d fun h => intToFloat (fpuRm r) (h.rg a).toInt

def execFmvGf (d a : Nat) (s : State) : Out :=
  onHart s fun id h => finish s id (h.setG d (w64 (h.rf a).toNat))
def execFmvFg (d a : Nat) (s : State) : Out :=
  onHart s fun id h => finish s id (h.setF d ((h.rg a).setWidth 32))

end Sys2Proof.Machine
end

