-- ==== Sys2Proof/Machine/Vmu.lean ====
section
/-! DEFINITION. The vector memory unit: loads, stores and vector AMOs (R227 to R244), and what a strip does to them
(R247, R248). -/

namespace Sys2Proof.Machine

/-- Classes (R88): a VAMO occupies both. -/
def VmuOp.classes (o : VmuOp) : List Nat :=
  match o.dir with
  | .load => [FU.l.code]
  | .store => [FU.s.code]
  | .amo _ => [FU.l.code, FU.s.code]

/-- The trap of a VMU word at steps 2 and 3 of R50 (R40, R232). -/
def VmuOp.check (o : VmuOp) (h : Hart) : Option Cause :=
  let t := VT.of h.vtype
  let n := nregOf h.vcfg
  let reg : Nat → Bool := fun k => decide (k < n) && k % t.g == 0
  let amoOk := match o.dir with
    | .amo op => decide (t.kind < 2) && (t.wd == 16 || t.wd == 32) && (op != 6 || decide (o.d + t.g < n))
    | _ => true
  if t.vill then some .vill
  else if reg o.d && (o.addr != .indexed || reg o.b) && amoOk then none
  else some .illins

/-! ### Lane caches (R114, R243) -/

/-- Loads of this mapping keep clean lines in the lane cache (R114). -/
def laneCached (h : Hart) (x : Xlat) : Bool := pathOf x == .cached && !pteW x.pte && decide (banksOf h.vcfg < 16)

/-- The grant index of the group that issues element k (R138). -/
def Hart.laneIdx (h : Hart) (k : Nat) : Nat := k % h.lanes / 256

/-- Lines that the lane cache of one group holds at most (R111). -/
def Hart.laneLines (h : Hart) : Nat := (16 - banksOf h.vcfg) * 64

/-- Lines of the strip buffer in the group of grant index j. -/
def Strip.linesIn (t : Strip) (j : Nat) : Nat := (t.at_.filter fun p => p.2 == j).length

/-- Clean lines that the group of grant index j has room for beside strip-buffer lines (R243). -/
def Hart.laneCap (h : Hart) (j : Nat) : Nat := h.laneLines - (h.strip.elim 0 fun t => t.linesIn j)

/-- The bytes of a clean line in the group of grant index j. -/
def Hart.laneAt (h : Hart) (j line : Nat) : Option (List Byte) :=
  (h.lcache.find? fun l => l.idx == j && l.line == line).map fun l => l.bytes

/-- The clean lines of the group of grant index j, at most n of them: the latest filled stay (log 9). -/
def Hart.laneTrim (h : Hart) (j n : Nat) : Hart :=
  let keep := ((h.lcache.filter fun l => l.idx == j).take n).map fun l => l.line
  { h with lcache := h.lcache.filter fun l => l.idx != j || keep.contains l.line }

/-- The lane cache of the group of grant index j takes a clean line. -/
def Hart.laneTake (h : Hart) (j line : Nat) (bs : List Byte) : Hart :=
  if h.laneCap j = 0 then h
  else
    let h1 := h.laneTrim j (h.laneCap j - 1)
    let free : Nat → Bool := fun p => h1.lcache.all fun l => l.idx != j || l.pos != p
    { h1 with lcache := { idx := j, line := line, pos := (firstFrom free 0 h.laneLines).getD 0, bytes := bs } :: h1.lcache }

/-! ### Performing one element -/

/-- A held access of an entry. -/
def heldEntry (id : Nat) (h : Hart) (q : Queue) (e : Entry) (va : Nat) (device : Bool) (f : Finish) : HeldWrite :=
  heldOf (.engine id q e.slot) h.ctx va device f

/-- One piece of a VMU read by the group of grant index j (R113, R114, R235): none while it waits. -/
def State.vmuPiece (s : State) (id j : Nat) (e : Entry) (scope : Option Nat) (p : Nat × Nat × Xlat) :
    State × Option (List Byte) :=
  match s.hart? id with
  | none => (s, none)
  | some h =>
    let x := p.2.2
    let hw := heldEntry id h .vector e p.1 (pteIdem x.pte) .again
    let has := pathOf x == .cached && s.stationHas (stnOf id) x.pa p.2.1
    let new := (linesOf x.pa p.2.1).filter fun l => (h.laneAt j l).isNone
    let hit : (Nat → Byte) → List Byte := fun miss => (span x.pa p.2.1).map fun a =>
      match h.laneAt j (a / 64) with
      | some bs => (bs[a % 64]?).getD 0
      | none => miss a
    match scope with
    | some sc => if s.cutOff id x.pa && !has then (s, none) else s.acquireRead id p.2.1 x sc hw
    | none =>
      if laneCached h x && new.isEmpty then (s, some (hit fun _ => 0))
      else if s.cutOff id x.pa && !has then (s, none)
      else if !laneCached h x then s.readBytes id p.2.1 x hw
      else
        let lo := x.pa / 64 * 64
        let r := s.readBytes id (64 * (linesOf x.pa p.2.1).length) { x with pa := lo } hw
        if r.2.isNone then r
        else
          let at_ := r.1.stationByte (stnOf id)
          (r.1.modHart id fun h => new.foldl (fun h l => h.laneTake j l ((span (l * 64) 64).map at_)) h, some (hit at_))

/-- The bytes of an element, in order, read by the group of grant index j; those in the strip buffer come from it (R248). -/
def State.vmuRead (s : State) (id j : Nat) (h : Hart) (e : Entry) (scope : Option Nat) (va n : Nat) :
    State × Option (List Byte) :=
  let r := (s.pieces (e.who id h) va n).foldl (fun (r : State × Option (List Byte)) p =>
    match r.2 with
    | none => r
    | some bs =>
      let q := r.1.vmuPiece id j e scope p
      (q.1, q.2.map fun b => bs ++ b)) (s, some [])
  (r.1, r.2.map fun bs =>
    match h.strip with
    | some t => bs.zipIdx.map fun b => (find? t.buf ((va + b.2) % 2 ^ 64)).getD b.1
    | none => bs)

/-- A byte to write: where, its value, the bits of it that are written (R137), its translation. -/
structure ByteW where
  va : Nat
  pa : Nat
  val : Byte
  mask : Byte
  x : Xlat
  deriving DecidableEq, Repr

/-- Bytes at a virtual address, with the bits written of each. -/
def State.byteWrites (s : State) (c : Who1) (va : Nat) (bs : List (Byte × Byte)) : List ByteW :=
  (s.pieces c va bs.length).flatMap fun p =>
    let off := (p.1 + 2 ^ 64 - va % 2 ^ 64) % 2 ^ 64
    ((bs.drop off).take p.2.1).zipIdx.map fun b =>
      { va := (p.1 + b.2) % 2 ^ 64, pa := p.2.2.pa + b.2, val := b.1.1, mask := b.1.2, x := p.2.2 }

/-- The write is performed in the station cache (R113, R133), unless its scope performs it at home. -/
def ByteW.local_ (w : ByteW) (home : Bool) : Bool := pathOf w.x == .cached && !home

def ByteW.cell (w : ByteW) : Host.Cell := (w.pa, w.val)

/-- The address of the first byte of a write in each frame after its first (R359). -/
def frameVas (l : List ByteW) : List (Nat × Nat) :=
  ((framesOf (l.map ByteW.cell)).drop 1).filterMap fun fr => (l.find? fun w => w.pa / 65536 == fr).map fun w => (fr, w.va)

/-- Bytes of an access to their places (R113, R133): the cached ones to the station, unless `home`, the others home.
Device registers take theirs by themselves. False while it waits or a write is held. -/
def State.place (s : State) (id : Nat) (l : List ByteW) (home : Bool) (hw : HeldWrite) : State × Bool :=
  let dev : ByteW → Bool := fun w => match regionOf w.pa with
    | .dev _ _ => true
    | _ => false
  let near := (l.filter fun w => w.local_ home).map ByteW.cell
  let far := l.filter fun w => !w.local_ home && !dev w
  let regs := l.filter dev
  let r := s.stationWrite (stnOf id) near hw
  if !r.2 then r
  else
    let s2 := match regs with
      | [] => r.1
      | w :: _ => r.1.devWrite (some id) w.pa regs.length (w64 (ofBytes (regs.map fun w => w.val)))
    if far.isEmpty then (s2, true)
    else
      s2.homeWrite (far.map ByteW.cell) (if l.any fun w => pteIdem w.x.pte then .device else .ordinary)
        { hw with va := (far.head?.map fun w => w.va).getD hw.va,
                  masks := (far.filter fun w => w.mask != 255).map fun w => (w.pa, w.mask), vas := frameVas far,
                  wb := if l.any fun w => pathOf w.x == .cached then some (stnOf id) else hw.wb }

/-- A page of the access cannot be reached (R407). -/
def State.awayFrom (s : State) (id : Nat) (c : Who1) (va n : Nat) : Bool :=
  (s.pieces c va n).any fun p => s.cutOff id p.2.2.pa && pathOf p.2.2 != .cached

/-- One element of a load: its value, none while it waits (R233, R235). -/
def VmuOp.load1 (o : VmuOp) (s : State) (id : Nat) (h : Hart) (e : Entry) (k : Nat) : State × Option Nat :=
  let n := o.env h e
  let p := o.place n k
  let r := s.vmuRead id (h.laneIdx k) h e o.scope p.1 p.2.2
  match r.2 with
  | none => (r.1, none)
  | some bs =>
    (match o.scope with
     | some sc => r.1.acquire id sc
     | none => r.1, some (bits (ofBytes bs) p.2.1 n.vt.wd))

/-- The data of element k of a store, at WD (R228). -/
def VmuOp.datum (o : VmuOp) (n : VEnv) (k : Nat) : Nat := n.rd o.d n.vt.wd n.vt.kind k

/-- The bytes that an element of a store leaves (R233, R239), merged into those it touches. -/
def VmuOp.stored (o : VmuOp) (n : VEnv) (k old : Nat) : List Byte :=
  let p := o.place n k
  toBytes p.2.2 (setBits old p.2.1 n.vt.wd (o.datum n k))

/-- The bits that an element of a store writes of each byte it touches. -/
def VmuOp.storedMask (o : VmuOp) (n : VEnv) (k : Nat) : List Byte :=
  let p := o.place n k
  toBytes p.2.2 ((2 ^ n.vt.wd - 1) * 2 ^ p.2.1)

/-- The element fills every byte that it touches. -/
def VmuOp.fills (o : VmuOp) (n : VEnv) (k : Nat) : Bool := (o.place n k).2.1 == 0 && n.vt.wd % 8 == 0

/-- The scope performs at home. -/
def VmuOp.home (o : VmuOp) : Bool :=
  match o.scope with
  | some sc => atHome sc
  | none => false

/-- A store of part of a byte reads the byte first where the station cache or a device-class page takes whole bytes (R112,
R239); elsewhere the home takes the bits alone (R137). -/
def ByteW.whole (w : ByteW) (home : Bool) : Bool := w.local_ home || pteIdem w.x.pte

/-- One element of a store: false while it waits. -/
def VmuOp.store1 (o : VmuOp) (s : State) (id : Nat) (h : Hart) (e : Entry) (k : Nat) : State × Bool :=
  let n := o.env h e
  let p := o.place n k
  let c := e.who id h
  let part := (s.byteWrites c p.1 ((o.stored n k 0).zip (o.storedMask n k)))
  if s.awayFrom id c p.1 p.2.2 then (s, false)
  else
    let r := if part.all fun w => w.mask == 255 || !w.whole o.home then (s, some [])
             else s.vmuRead id (h.laneIdx k) h e (some 0) p.1 p.2.2
    match r.2 with
    | none => (r.1, false)
    | some bs =>
      let full := o.stored n k (ofBytes bs)
      let l := (part.zip full).map fun w => if w.1.whole o.home then { w.1 with val := w.2, mask := 255 } else w.1
      r.1.place id l o.home (heldEntry id h .vector e p.1 (l.any fun w => pteIdem w.x.pte) (.elem k))

/-- One element of a vector AMO, at home (R146, R236): the old value; none while it waits. The station's copies take part
where its cache serves the page. -/
def VmuOp.amo1 (o : VmuOp) (op : Nat) (s : State) (id : Nat) (h : Hart) (e : Entry) (k : Nat) : State × Option Nat :=
  let n := o.env h e
  let p := o.place n k
  let sz := n.vt.wd / 8
  let cmp := o.datum n k
  let y := if op = 6 then n.rd (o.d + n.g) n.vt.wd n.vt.kind k else cmp
  match s.xlat (e.who id h) p.1 with
  | none => (s, none)
  | some x =>
    if s.cutOff id x.pa then (s, none)
    else
      let hw := heldEntry id h .vector e p.1 (pteIdem x.pte) (.vamo op sz y cmp o.d k n.sgn)
      let cached := pathOf x == .cached
      let r := if cached then
          s.writeBack (stnOf id) (fun a => decide (x.pa ≤ a) && decide (a < x.pa + sz)) { hw with finish := .again }
        else (s, true)
      if !r.2 then (r.1, none)
      else
        let q := r.1.recallFor x.pa (thrOf x) { hw with finish := .again }
        if !q.2 then (q.1, none)
        else
          let old := Memory.num q.1.mem x.pa sz
          let w := q.1.homeWrite (q.1.amoCells x.pa op sz y cmp n.sgn) (thrOf x)
            { hw with wb := if cached then some (stnOf id) else none }
          (w.1, if w.2 then some old else none)

/-! ### Stores into the strip buffer (R247, R248) -/

/-- Capacity of the buffer in lines (R247). -/
def Hart.stripLines (h : Hart) : Nat := min h.sbcap (h.laneLines * h.gcount)

/-- TRAPVAL of STRIPFULL (R250). -/
def stripFullVal (reason va : Nat) : W64 := w64 (reason * 2 ^ 62 + va % 2 ^ 55)

/-- The group whose lane cache takes a new line of the buffer: that of the element, or the lowest with room (log 24). -/
def Hart.stripGroup (h : Hart) (t : Strip) (j : Nat) : Nat :=
  if t.linesIn j < h.laneLines then j
  else (firstFrom (fun i => decide (t.linesIn i < h.laneLines)) 0 h.gcount).getD j

/-- Bytes of a store by the group of grant index j join the buffer; its lines displace clean lines (R243, R247). -/
def Hart.buffer (h : Hart) (t : Strip) (j : Nat) (cs : List Host.Cell) : Hart :=
  cs.foldl (fun h c =>
    let t := h.strip.getD t
    let i := h.stripGroup t j
    let h1 := { h with strip := some (t.join i [c]) }
    h1.laneTrim i (h1.laneCap i)) h

/-- One element of a store inside an open strip: bytes not yet buffered come from memory; false while it waits. -/
def VmuOp.buffer1 (o : VmuOp) (s : State) (id : Nat) (h : Hart) (e : Entry) (t : Strip) (k : Nat) : State × Bool :=
  let n := o.env h e
  let p := o.place n k
  let q := if o.fills n k then (s, some []) else s.vmuRead id (h.laneIdx k) h e (some 0) p.1 p.2.2
  match q.2 with
  | none => (q.1, false)
  | some bs =>
    let cs := (o.stored n k (ofBytes bs)).zipIdx.map fun b => ((p.1 + b.2) % 2 ^ 64, b.1)
    (q.1.modHart id fun h => h.buffer t (h.laneIdx k) cs, true)

/-- The lines that a store adds to the buffer, in element order. -/
def VmuOp.newLines (o : VmuOp) (n : VEnv) (t : Strip) : List Nat :=
  let old := bufLines t.buf
  ((n.actives 0 n.V).flatMap fun k => let p := o.place n k; linesOf p.1 p.2.2).foldl
    (fun (l : List Nat) x => if l.contains x || old.contains x then l else l ++ [x]) []

/-- STRIPFULL of a store inside an open strip: its TRAPVAL (R247, R250). The first line not yet buffered is the first in
element order (log 24). -/
def VmuOp.stripFull (o : VmuOp) (s : State) (id : Nat) (h : Hart) (e : Entry) (t : Strip) : Option W64 :=
  let n := o.env h e
  match (n.actives 0 n.V).find? fun k => (s.onDevice (e.who id h) (o.acc n k)).isSome with
  | some k => some (stripFullVal 2 (o.place n k).1)
  | none =>
    match o.newLines n t with
    | [] => none
    | l :: more =>
      if h.stripLines < (bufLines t.buf).length + more.length + 1 then some (stripFullVal 0 (l * 64)) else none

/-! ### Element groups -/

/-- One element: its result if it is performed. -/
def VmuOp.elem1 (o : VmuOp) (s : State) (id : Nat) (h : Hart) (e : Entry) (k : Nat) : State × Option (Option Nat) :=
  match o.dir with
  | .load =>
    let r := o.load1 s id h e k
    (r.1, r.2.map some)
  | .store =>
    let r := match h.strip with
      | some t => o.buffer1 s id h e t k
      | none => o.store1 s id h e k
    (r.1, if r.2 then some none else none)
  | .amo op =>
    let r := o.amo1 op s id h e k
    (r.1, r.2.map some)

/-- Elements in order until one waits: the state, the results, and the first element not performed. -/
def VmuOp.run (o : VmuOp) (s : State) (id : Nat) (h : Hart) (e : Entry) : (es : List Nat) → State × List (Nat × Nat) × Option Nat
  | [] => (s, [], none)
  | k :: t =>
    match o.elem1 s id h e k with
    | (s1, none) => (s1, [], some k)
    | (s1, some x) =>
      let r := VmuOp.run o s1 id ((s1.hart? id).getD h) e t
      (r.1, (match x with
        | some v => [(k, v)]
        | none => []) ++ r.2.1, r.2.2)

/-- The limit of a VLDFF, or V (R234). -/
def VmuOp.limit (o : VmuOp) (e : Entry) : Nat := if o.ff.isSome then e.part.bits else e.vl

/-- Elements of a group still to perform. -/
def VmuOp.left (o : VmuOp) (h : Hart) (e : Entry) : List Nat :=
  ((o.env h e).actives e.progress (e.progress + h.lanes)).filter fun k => decide (e.part.cnt ≤ k) && decide (k < o.limit e)

/-- Cycles of a step (R244). -/
def VmuOp.cycles (o : VmuOp) (h : Hart) (e : Entry) : Nat :=
  let n := o.env h e
  let w := n.vt.wd
  match o.addr with
  | .unit => w + 6
  | .strided => 2 * w + 8
  | .indexed =>
    let keys := (n.actives e.progress (e.progress + h.lanes)).map fun k =>
      (k % h.lanes / 256, bits (o.place n k).1 16 6)
    2 * w + 8 + 2 * keys.foldl (fun m k => max m (keys.filter fun j => j == k).length) 0

/-- The retirement of a VMU instruction (R228, R234, R236). -/
def VmuOp.retire (o : VmuOp) (h : Hart) (e : Entry) (seed : Nat) : Hart :=
  let n := o.env h e
  let h1 := if o.dir = .store then h else commitV o.d n seed
  let h2 := match o.ff with
    | some f => if n.V = 0 then h1
      else writeMask h1 f ((List.range n.V).map fun k => (k, bitOf (decide (k < e.part.bits))))
    | none => h1
  h2.retire .vector e

/-- The VMU probes the group again in device mode (R239): its first failure, or the entry with its new translations. -/
def VmuOp.reprobe (o : VmuOp) (s : State) (id : Nat) (h : Hart) (e : Entry) : Entry ⊕ (Cause × Nat) :=
  if !e.part.seen || e.progress = 0 || e.part.cnt != e.progress then .inl e
  else
    let n := o.env h e
    let c := e.unprobed.who id h
    let es := o.left h e
    match o.probe s c n es with
    | some (_, cause, va) => .inr (cause, va)
    | none => .inl { e with xl := s.pagesOf c (es.map (o.acc n)) [] }

/-- The entry after a group of which element `k` waits, or none does. -/
def Entry.groupRun (e : Entry) (res : List (Nat × Nat)) (hi : Nat) : Option Nat → Entry
  | some k => { e with res := e.res ++ res, part := { e.part with cnt := k } }
  | none => { e with res := e.res ++ res, progress := hi, part := { e.part with cnt := hi }, owed := none, ran := [] }

/-- One element group of a started VMU instruction, or its retirement; none while it waits. -/
def VmuOp.move (o : VmuOp) (s : State) (id : Nat) (h : Hart) (e0 : Entry) : Option State :=
  let n := o.env h e0
  let hi := e0.progress + h.lanes
  if n.V ≤ e0.progress then some ((s.setHart id (o.retire h e0 s.fresh)).bump 40)
  else if !h.landed e0 (o.regs n.g) (s.stve id) false false hi || (e0.part.seen && o.pagesAway s id h e0) then none
  else
    match o.reprobe s id h e0 with
    | .inr (c, va) => some (s.setHart id (h.faultEntry .vector e0 c (w64 va) e0.progress))
    | .inl e =>
      let todo := o.left h e
      let again := e.xl != e0.xl
      let q := o.run (if again then s.fillPages (e.who id h) e.xl else s) id h e todo
      let next := q.1.modHart id fun h => h.modEntry .vector e.slot fun x => { x with xl := e.xl }.groupRun q.2.1 hi q.2.2
      match q.2.2 with
      | some k =>
        let held := match (next.hart? id).bind fun h => h.entry? .vector e.slot with
          | some x => x.held
          | none => true
        if held || todo.head? != some k then some next else none
      | none =>
        let c := o.cycles h e
        let s1 := (next.charge id h c).modHart id fun h => h.groupDone e hi (h.stepBeats c)
        match e.owed with
        | none => some s1
        | some va => some (s1.modHart id fun h => h.faultEntry .vector { e with progress := hi } .oos (w64 va) hi)

/-! ### Issue (R25, R237, R238) -/

/-- The byte range of the active elements. -/
def VmuOp.range (o : VmuOp) (n : VEnv) : Option (Nat × Nat) :=
  let l := (n.actives 0 n.V).map fun k => let p := o.place n k; (p.1, p.1 + p.2.2)
  match l with
  | [] => none
  | a :: t => some (t.foldl (fun r x => (min r.1 x.1, max r.2 x.2)) a)

/-- The interlock entry of an access, widened to 64-byte boundaries (R24). -/
def ilkOf (seq lo hi : Nat) (rd wr : Bool) : Ilk := { seq := seq, lo := lo / 64 * 64, hi := (hi + 63) / 64 * 64, rd := rd, wr := wr }

/-- Accesses of the hart before dispatch number `seq` are not performed (R140). -/
def Hart.memBefore (h : Hart) (seq : Nat) : Bool :=
  Hart.memPending { h with vq := h.vq.filter fun v => decide (v.e.seq < seq), sq := h.sq.filter fun e => decide (e.seq < seq),
                           sbpend := h.sbpend.filter fun p => decide (p.1 ≤ seq) }

/-- The release that a VSTR performs first (R235): false while it is not complete. -/
def VmuOp.releaseFirst (o : VmuOp) (s : State) (id : Nat) (h : Hart) (e : Entry) : State × Bool :=
  match o.dir, o.scope with
  | .store, some sc =>
    if h.memBefore e.seq then (s, false)
    else
      let r := s.releaseHome id sc (heldEntry id h .vector e (Config.failedAddress s.tick) false .again)
      (r.1, r.2 && !(sc == 7 && r.1.posted id))
  | _, _ => (s, true)

/-- The issue holds (R19, R25, R138, R237). The transfers on whose counters the access chains do not hold it. -/
def VmuOp.blocked (o : VmuOp) (h : Hart) (e : Entry) : Bool :=
  let n := o.env h e
  let r := o.regs n.g
  let fed := h.feeders e.seq r
  let mine := h.ilk.any fun k => k.seq == e.seq
  h.mtxBefore e.seq r || h.strmBefore e.seq r || (fed.any fun f => !f.started) ||
  (o.addr == .indexed && !mine && decide (16 ≤ h.ilk.length)) ||
  (match o.range n with
   | some x =>
     h.streamUnissued e.seq x.1 x.2 (o.dir != .load) ||
     h.ilkHit e.seq x.1 x.2 (o.dir != .load) ((fed.map fun f => f.seq) ++ e.pos.map Prod.fst)
   | none => false)

/-- The entry starts; a gather or scatter takes its interlock entry (R237). One that resumes keeps both. -/
def VmuOp.begin (o : VmuOp) (s : State) (id : Nat) (h : Hart) (e : Entry) : State :=
  let n := o.env h e
  let ilk := if o.addr != .indexed || (h.ilk.any fun k => k.seq == e.seq) then h.ilk
    else match o.range n with
      | some x => h.ilk ++ [ilkOf e.seq x.1 x.2 (o.dir != .store) (o.dir != .load)]
      | none => h.ilk
  s.setHart id ({ h with ilk := ilk }.modEntry .vector e.slot fun e =>
    { e with started := true, eff := e.vl, part := { e.part with cnt := max e.part.cnt e.progress } })

/-- The checks at issue (R189, R248, R318): ILLINS of a word that an open strip or a binding forbids, ILLWIDTH. -/
def VmuOp.issueFault (o : VmuOp) (h : Hart) (e : Entry) : Option Cause :=
  let n := o.env h e
  if h.strip.isSome && (o.dir.isAmo || o.scope.isSome) then some .illins
  else if h.boundFor e.seq (o.regs n.g).wr then some .illins
  else if o.dir == .store && n.bad o.d n.vt.wd then some .illwidth
  else none

/-- The issue of a VMU instruction, which its probe precedes (R233, R234, R238): it waits for the probe, takes the fault
that the probe has found, or starts. -/
def VmuOp.issue (o : VmuOp) (s : State) (id : Nat) (h : Hart) (e : Entry) : Option State :=
  s.issueV id h e (o.blocked h e) fun s h e =>
    match o.issueFault h e with
    | some c => some (s.setHart id (h.faultEntry .vector e c (w64 e.word) 0))
    | none =>
      if !e.probed then none
      else
        match e.bad with
        | some (c, _, va) => some (s.setHart id (h.faultEntry .vector e c (w64 va) e.progress))
        | none =>
          let rel := o.releaseFirst s id h e
          if !rel.2 then (if rel.1 = s then none else some rel.1)
          else
            match (if o.dir = .store then h.strip.bind (o.stripFull rel.1 id h e) else none) with
            | some v => some (rel.1.setHart id (h.faultEntry .vector e .stripfull v 0))
            | none => some (o.begin rel.1 id h e)

/-! ### A VMU instruction as a whole -/

/-- The next move of the entry with dispatch number `seq`, while it is the head of the vector queue. -/
def VmuOp.headMove (o : VmuOp) (s : State) (id seq : Nat) : Option State :=
  match s.hart? id with
  | none => none
  | some h =>
    match h.vq with
    | [] => none
    | v :: _ =>
      if v.e.seq != seq || (h.qstop && !v.e.started) || !v.e.runnable then none
      else if v.e.started && v.e.probed then o.move s id h v.e
      else o.issue s id h v.e

/-- The entry moves until it waits, faults or retires, at most `fuel` times (log 3). -/
def VmuOp.drive (o : VmuOp) (id seq : Nat) : (fuel : Nat) → State → State
  | 0, s => s
  | k + 1, s =>
    match o.headMove s id seq with
    | some s' => VmuOp.drive o id seq k s'
    | none => s

/-- A VMU instruction (R16, R50, R227): its traps, its dispatch, and its run when nothing holds it back. -/
def vmuExec (o : VmuOp) (op : Instr) (s : State) : Out :=
  onHart s fun id h =>
    match o.check h with
    | some c => trapAt s id h c (w64 (encode op))
    | none =>
      if h.full .vector then .next s
      else
        let r := h.vecEntry op o.hdr o.classes (o.regs (VT.of h.vtype).g).rd false
        let s1 := s.setHart id (r.1.pushV { e := r.2, redeal := none })
        if s.eager && h.vq.isEmpty && s.aloneV id then .next ((o.drive id r.2.seq (r.1.rowGroups r.2 + 3) (s1.takeTurn id h)).endTurn id)
        else .next s1

def execVld (h : VHdr) (d a : Nat) (s : State) : Out := vmuExec (vmuPlain h d .unit 0 .load) (.vld h d a) s
def execVlds (h : VHdr) (d a b : Nat) (s : State) : Out := vmuExec (vmuPlain h d .strided b .load) (.vlds h d a b) s
def execVldx (h : VHdr) (d a b : Nat) (s : State) : Out := vmuExec (vmuPlain h d .indexed b .load) (.vldx h d a b) s
def execVldff (h : VHdr) (d a f : Nat) (s : State) : Out := vmuExec ({ vmuPlain h d .unit 0 .load with ff := some f }) (.vldff h d a f) s
def execVlda (h : VHdr) (d a c : Nat) (s : State) : Out := vmuExec ({ vmuPlain h d .unit 0 .load with scope := some c }) (.vlda h d a c) s
def execVst (h : VHdr) (d a : Nat) (s : State) : Out := vmuExec (vmuPlain h d .unit 0 .store) (.vst h d a) s
def execVsts (h : VHdr) (d a b : Nat) (s : State) : Out := vmuExec (vmuPlain h d .strided b .store) (.vsts h d a b) s
def execVstx (h : VHdr) (d a b : Nat) (s : State) : Out := vmuExec (vmuPlain h d .indexed b .store) (.vstx h d a b) s
def execVstr (h : VHdr) (d a c : Nat) (s : State) : Out := vmuExec ({ vmuPlain h d .unit 0 .store with scope := some c }) (.vstr h d a c) s
def execVamoadd (h : VHdr) (d a b : Nat) (s : State) : Out := vmuExec (vmuPlain h d .indexed b (.amo 0)) (.vamoadd h d a b) s
def execVamoor (h : VHdr) (d a b : Nat) (s : State) : Out := vmuExec (vmuPlain h d .indexed b (.amo 1)) (.vamoor h d a b) s
def execVamoand (h : VHdr) (d a b : Nat) (s : State) : Out := vmuExec (vmuPlain h d .indexed b (.amo 2)) (.vamoand h d a b) s
def execVamomin (h : VHdr) (d a b : Nat) (s : State) : Out := vmuExec (vmuPlain h d .indexed b (.amo 3)) (.vamomin h d a b) s
def execVamomax (h : VHdr) (d a b : Nat) (s : State) : Out := vmuExec (vmuPlain h d .indexed b (.amo 4)) (.vamomax h d a b) s
def execVamoswap (h : VHdr) (d a b : Nat) (s : State) : Out := vmuExec (vmuPlain h d .indexed b (.amo 5)) (.vamoswap h d a b) s
def execVamocas (h : VHdr) (d a b : Nat) (s : State) : Out := vmuExec (vmuPlain h d .indexed b (.amo 6)) (.vamocas h d a b) s

end Sys2Proof.Machine
end

