-- ==== Sys2Proof/Machine/Strip.lean ====
section
/-! DEFINITION. Strips: STRIP.BEGIN, STRIP.COMMIT, STRIP.ABORT, and the writes of SBCAP with FLUSH and DROP
(R245, R246, R251). -/

namespace Sys2Proof.Machine

/-! ### The commit of a buffer (R246) -/

/-- The accesses of a commit: every buffered line, ascending, from its first to its last buffered byte. -/
def Strip.lines (t : Strip) : List Acc1 :=
  (bufLines t.buf).reverse.filterMap fun l =>
    let cs := t.buf.filter fun (c : Host.Cell) => c.1 / 64 == l
    match cs.head?, cs.getLast? with
    | some a, some b => some { e := 0, va := a.1, n := b.1 - a.1 + 1, k := .w, al := 1 }
    | _, _ => none

/-- The probe of a commit: the first failure. -/
def State.stripProbe (s : State) (c : Who1) (t : Strip) : Option (Cause × Nat) :=
  (s.probe c t.lines).map fun f => (f.1, f.2.2)

/-- A page of the commit needs a walk that waits (R407). -/
def State.stripAway (s : State) (c : Who1) (t : Strip) : Bool := t.lines.any fun a => s.walkAway c a.va a.n

/-- The buffered bytes of some lines, line by line, from line number `k` on, each performed once: the state, and the number of
lines performed, which is all of them unless a home cannot be reached or the Weir holds a write of the line. `hw` is the held
write of a line by its number and address. -/
def State.placeLines (s : State) (id : Nat) (c : Who1) (t : Strip) (hw : Nat → Nat → HeldWrite) :
    (l : List Acc1) → (k : Nat) → State × Nat
  | [], k => (s, k)
  | a :: l, k =>
    if s.walkAway c a.va a.n || s.awayFrom id c a.va a.n then (s, k)
    else
      let bs := (t.buf.filter fun (b : Host.Cell) => b.1 / 64 == a.va / 64).flatMap fun (b : Host.Cell) =>
        s.byteWrites c b.1 [(b.2, 255)]
      let r := (s.tlbFillAll c a.va a.n).place id bs false (hw k a.va)
      if r.2 then r.1.placeLines id c t hw l (k + 1) else (r.1, k)

/-! ### The strip words (R245, R246) -/

/-- A strip word retires, the strip then `t`. -/
def Hart.stripDone (h : Hart) (e : Entry) (t : Option Strip) : Hart := { h with strip := t }.retire .vector e

/-- The ILLINS of a strip word that finds no strip, or an open one (R246). -/
def State.stripIll (s : State) (id : Nat) (h : Hart) (e : Entry) : State :=
  s.setHart id (h.faultEntry .vector e .illins (w64 e.word) 0)

/-- STRIP.COMMIT from its issue on: its probe, then its lines, of which `part.cnt` are performed; none while it waits. -/
def State.stripCommit (s : State) (id : Nat) (h : Hart) (e : Entry) : Option State :=
  match h.strip with
  | none => some (s.stripIll id h e)
  | some t =>
    let c := e.who id h
    if !e.probed && s.stripAway c t then none
    else
      match (if e.probed then none else s.stripProbe c t) with
      | some (cause, va) => some (s.setHart id (h.faultEntry .vector e cause (w64 va) 0))
      | none =>
        let r := s.placeLines id c t (fun k va => heldEntry id h .vector e va false (.elem k)) (t.lines.drop e.part.cnt) e.part.cnt
        let t' := if r.2 = t.lines.length then r.1.modHart id fun h => h.stripDone e none
          else r.1.modHart id fun h => h.modEntry .vector e.slot fun e => { e with probed := true, part := { e.part with cnt := r.2 } }
        if t' = s then none else some t'

/-- The move of a strip word at the head of the vector queue. -/
def State.stripMove (s : State) (id : Nat) (h : Hart) (e : Entry) : Option State :=
  if e.started then s.stripCommit id h e
  else
    s.issueV id h e false fun s h e =>
      match e.op with
      | .stripBegin _ _ =>
        match h.strip with
        | some _ => some (s.stripIll id h e)
        | none => some (s.setHart id (h.stripDone e (some { base := lowBits e.ga 32, seq := e.seq, buf := [], at_ := [] })))
      | .stripAbort _ =>
        match h.strip with
        | some _ => some (s.setHart id (h.stripDone e none))
        | none => some (s.stripIll id h e)
      | _ =>
        let h' := h.modEntry .vector e.slot fun e => { e with started := true }
        (s.setHart id h').stripCommit id h' { e with started := true }

/-- The strip word with dispatch number `seq` moves, when it is the head of the vector queue (log 3). -/
def State.stripDrive (s : State) (id seq : Nat) : State :=
  match s.hart? id with
  | none => s
  | some h =>
    match h.vq with
    | [] => s
    | v :: _ => if v.e.seq != seq || (h.qstop && !v.e.started) || !v.e.runnable then s else (s.stripMove id h v.e).getD s

/-- A strip word (R16, R50): its dispatch, and its move when nothing holds it back. VTYPE.VILL does not matter to it. -/
def stripExec (hd : VHdr) (op : Instr) (s : State) : Out :=
  onHart s fun id h =>
    if h.full .vector then .next s
    else
      let r := h.vecEntry op hd [stripClass] [] false
      let s1 := s.setHart id (r.1.pushV { e := r.2, redeal := none })
      .next (if s.eager && s.aloneV id then s1.stripDrive id r.2.seq else s1)

def execStripBegin (h : VHdr) (a : Nat) (s : State) : Out := stripExec h (.stripBegin h a) s
def execStripCommit (h : VHdr) (s : State) : Out := stripExec h (.stripCommit h) s
def execStripAbort (h : VHdr) (s : State) : Out := stripExec h (.stripAbort h) s

/-! ### SBCAP (R251) -/

def sbFlush : Nat := 2 ^ 63
def sbDrop : Nat := 2 ^ 62

/-- SBCAP as SYSRD reads it. -/
def Hart.sbcapRead (h : Hart) : W64 := w64 (h.fstat * 2 ^ 60 + h.sbcap * 64)

/-- The older vector-queue instructions of a write to SBCAP have retired, or the queues are stopped. -/
def Hart.sbReady (h : Hart) (seq : Nat) : Bool := h.qstop || h.vq.all fun v => decide (seq ≤ v.e.seq)

/-- A FLUSH from its probe on, in the mode that the hart has (log 24): `flushAt` is one more than the lines performed; none
while it waits. -/
def State.flushGo (s : State) (id : Nat) (h : Hart) (t : Strip) : Option State :=
  let c := h.who id
  let n := h.flushAt - 1
  if h.flushAt = 0 ∧ s.stripAway c t then none
  else if h.flushAt = 0 ∧ (s.stripProbe c t).isSome then some (s.setHart id (h.flushed 1))
  else
    let r := s.placeLines id c t (fun k va => heldOf (.hart id) h.ctx va false (.elem (k + 1))) (t.lines.drop n) n
    let t' := if r.2 = t.lines.length then r.1.modHart id fun h => h.flushed 0
      else r.1.modHart id fun h => { h with flushAt := r.2 + 1 }
    if t' = s then none else some t'

/-- A write to SBCAP takes effect: CAP, then DROP or FLUSH. With no strip open a FLUSH acts on nothing, and FSTAT keeps its value
(DEDUCED, log 24). None while it waits. -/
def State.sbApply (s : State) (id : Nat) (h : Hart) (v : Nat) : Option State :=
  let h1 := { h with sbcap := bits v 6 26 }
  let done := { h1 with sbpend := h1.sbpend.drop 1 }
  match h.strip with
  | none => some (s.setHart id done)
  | some t =>
    if v.testBit 62 then some (s.setHart id { done with strip := some { t with buf := [], at_ := [] } })
    else if !v.testBit 63 then some (s.setHart id done)
    else if h.held.isSome then none
    else (s.setHart id h1).flushGo id h1 t

/-- The oldest pending write to SBCAP, when it may take effect. -/
def State.sbMove (s : State) (id : Nat) : Option State :=
  match s.hart? id with
  | none => none
  | some h =>
    match h.sbpend with
    | (seq, v) :: _ =>
      if h.sbReady seq then s.sbApply id h v.toNat else none
    | [] => none

/-- A write to SBCAP by the hart, which takes effect at once when it may. -/
def State.sbWrite (s : State) (id : Nat) (v : W64) : State :=
  let s1 := s.modHart id fun h => { h with sbpend := h.sbpend ++ [(h.seq, v)] }
  (s1.sbMove id).getD s1

/-- SBCAP as it stands, with a command bit. -/
def State.sbCommand (s : State) (id bit : Nat) : State :=
  match s.hart? id with
  | some h => s.sbWrite id (w64 (bit + h.sbcap * 64))
  | none => s

/-- FLUSH (R251): a write of SBCAP with FLUSH set. -/
def execFlush (id : Nat) (s : State) : Out := .next (s.sbCommand id sbFlush)
/-- DROP (R251): a write of SBCAP with DROP set. -/
def execDrop (id : Nat) (s : State) : Out := .next (s.sbCommand id sbDrop)

end Sys2Proof.Machine
end

