-- ==== Sys2Proof/Machine/Xdec.lean ====
section
/-! DEFINITION. The transform unit: block format (R328 to R332), XDEC with its blocks and write steps (R333 to R346),
XRIX (R340, R341), and XSTATE.SAVE and XSTATE.RESTORE (R343, R344). -/

namespace Sys2Proof.Machine

/-! ### Headers (R328, R336, R338) -/

/-- The fields of a block header. -/
structure BlockHdr where
  magic : Nat
  version : Nat
  w : Nat
  planes : Nat
  zero5 : Nat
  n : Nat
  rice : Nat
  clen : Nat
  explen : Nat
  crc : Nat
  zero1c : Nat
  deriving DecidableEq, Repr

def BlockHdr.of (h : List Byte) : BlockHdr :=
  let f : Nat → Nat → Nat := fun o n => ofBytes ((h.drop o).take n)
  { magic := f 0 2, version := f 2 1, w := f 3 1, planes := f 4 1, zero5 := f 5 1, n := f 6 2, rice := f 8 8,
    clen := f 0x10 4, explen := f 0x14 4, crc := f 0x18 4, zero1c := f 0x1C 4 }

/-- Elements of the chunks of a block (R335). -/
def BlockHdr.room (b : BlockHdr) : Nat := 256 * ceilDiv b.n 256

/-- WIDTH is allowed under a kind and width (R336). -/
def blockWidth (kind wd w : Nat) : Bool :=
  if kind ≤ 3 ∨ kind = 12 then decide (w ≤ wd) else w == kindWidth kind

/-- Steps 1 to 3 of R338 for a header at `off` of V source bytes. -/
def BlockHdr.check (b : BlockHdr) (t : VT) (V off : Nat) : Option Cause :=
  if V < off + 32 + b.clen then some .xfmt
  else if b.magic != 0x4C58 || b.version != 1 || b.zero5 != 0 || b.zero1c != 0 || b.w == 0 || decide (16 < b.w) ||
      b.planes == 0 || decide (b.w < b.planes) || b.n == 0 || decide (4096 < b.n) || b.rice / 16 ^ b.planes != 0 ||
      b.clen % 32 != 0 || decide (0xFFE0 < b.clen) || !blockWidth t.kind t.wd b.w then some .xfmt
  else if b.explen ≠ ceilDiv (b.n * b.w) 8 then some .xlen
  else none

/-! ### Planes (R329 to R331) -/

/-- Bit t of the plane data, `size` bytes long: beyond them, XLEN (R338 step 5). -/
def streamBit (data size t : Nat) : Except Cause Bool := if t < 8 * size then .ok (data.testBit t) else .error .xlen

/-- A field of k bits, most significant first. -/
def streamField (data size : Nat) : (k t acc : Nat) → Except Cause Nat
  | 0, _, acc => .ok acc
  | k + 1, t, acc =>
    match streamBit data size t with
    | .ok b => streamField data size k (t + 1) (2 * acc + bitOf b)
    | .error c => .error c

/-- The leading ones of a Rice code, at most 4,096 of them, `left` of which may still come. -/
def riceOnes (data size : Nat) : (left t q : Nat) → Except Cause Nat
  | 0, _, _ => .error .xfmt
  | left + 1, t, q =>
    match streamBit data size t with
    | .ok true => riceOnes data size left (t + 1) (q + 1)
    | .ok false => .ok q
    | .error c => .error c

/-- A Rice code with parameter k: its number and the bits it takes (R331). -/
def riceCode (data size k t : Nat) : Except Cause (Nat × Nat) :=
  match riceOnes data size 4097 t 0 with
  | .error c => .error c
  | .ok q =>
    match streamField data size k (t + q + 1) 0 with
    | .ok m => .ok (q * 2 ^ k + m, q + 1 + k)
    | .error c => .error c

/-- The bits of a RAW body from element `pos`, `left` of them. -/
def rawBits (data size : Nat) : (left t pos acc : Nat) → Except Cause Nat
  | 0, _, _, acc => .ok acc
  | left + 1, t, pos, acc =>
    match streamBit data size t with
    | .ok b => rawBits data size left (t + 1) (pos + 1) (acc + bitOf b * 2 ^ pos)
    | .error c => .error c

/-- The ones of a RUN body of a plane of n bits: `left` codes from `pos`; and the stream bit after them (R330). -/
def runBits (data size n k : Nat) : (left t pos acc : Nat) → Except Cause (Nat × Nat)
  | 0, t, _, acc => .ok (acc, t)
  | left + 1, t, pos, acc =>
    match riceCode data size k t with
    | .error c => .error c
    | .ok r =>
      if n ≤ pos + r.1 then .error .xlen
      else runBits data size n k left (t + r.2) (pos + r.1 + 1) (acc + 2 ^ (pos + r.1))

/-- A plane under decode: where it stands, and the codes left. -/
structure PlaneAt where
  mode : Nat
  t : Nat
  pos : Nat
  left : Nat
  deriving DecidableEq, Repr

/-- The mode of a plane, with K for RUN and XRUN; XRUN is refused in the first coded plane before its K is read (R338 steps 4
and 5, in stream order). -/
def planeMode (data size n : Nat) (first : Bool) (t : Nat) : Except Cause PlaneAt :=
  match streamField data size 2 t 0 with
  | .error c => .error c
  | .ok m =>
    if m = 3 ∧ first then .error .xfmt
    else if m < 2 then .ok { mode := m, t := t + 2, pos := 0, left := 0 }
    else
      match streamField data size 13 (t + 2) 0 with
      | .error c => .error c
      | .ok k => if n < k then .error .xlen else .ok { mode := m, t := t + 15, pos := 0, left := k }

/-- The rest of plane i of a block: its bits from `pos`, and the stream bit after it. `hist` is the plane before. -/
def planeRest (data size : Nat) (b : BlockHdr) (i hist : Nat) (p : PlaneAt) : Except Cause (Nat × Nat) :=
  match p.mode with
  | 0 => .ok (0, p.t)
  | 1 => (rawBits data size (b.n - p.pos) p.t p.pos 0).map fun x => (x, p.t + (b.n - p.pos))
  | m =>
    if m = 3 ∧ i = 0 then .error .xfmt
    else
      (runBits data size b.n (bits b.rice (4 * i) 4) p.left p.t p.pos 0).map fun r =>
        (if m = 3 then r.1 ^^^ (bits hist p.pos (b.n - p.pos) * 2 ^ p.pos) else r.1, r.2)

/-- Where plane i of a block is in OBUF. -/
def planePos (b : BlockHdr) (i : Nat) : Nat := 4096 * (b.w - 1 - i)

/-- The planes of a block from plane i, at the stream bit of `d`, `left` of them; `p` is the plane under decode when its
mode has been read. -/
def decodePlanes (data size : Nat) (b : BlockHdr) : (left : Nat) → (p : Option PlaneAt) → DecState → Except Cause DecState
  | 0, _, d => .ok { d with st := 2, plane := b.planes, pmode := 0xFF, pos := 0, kleft := 0 }
  | left + 1, p, d =>
    let i := b.planes - (left + 1)
    let start := match p with
      | some p => Except.ok p
      | none => planeMode data size b.n (i == 0) d.bitpos
    match start with
    | .error c => .error c
    | .ok q =>
      match planeRest data size b i d.hist q with
      | .error c => .error c
      | .ok r =>
        let plane := bits d.obuf (planePos b i) (min q.pos b.n) + r.1
        decodePlanes data size b left none
          { d with bitpos := r.2, hist := plane, obuf := setBits d.obuf (planePos b i) 4096 plane }

/-! ### Blocks (R332, R338) -/

/-- CRC-32C of a list of bytes (R332). -/
def crcBit (c : Nat) : Nat := if c.testBit 0 then (c / 2) ^^^ 0x82F63B78 else c / 2
def crcByte (c : Nat) (b : Byte) : Nat :=
  crcBit (crcBit (crcBit (crcBit (crcBit (crcBit (crcBit (crcBit (c ^^^ b.toNat))))))))
def crc32c (l : List Byte) : Nat := l.foldl crcByte 0xFFFFFFFF ^^^ 0xFFFFFFFF

/-- Element i of a decoded block (R332). -/
def DecState.elem (d : DecState) (b : BlockHdr) (i : Nat) : Nat :=
  natOfBits ((List.range b.w).map fun j => d.obuf.testBit (4096 * j + i))

/-- The expanded data (R332). -/
def DecState.expanded (d : DecState) (b : BlockHdr) : List Byte :=
  let bit : Nat → Bool := fun t => decide (t / b.w < b.n) && d.obuf.testBit (4096 * (t % b.w) + t / b.w)
  (List.range b.explen).map fun k => BitVec.ofNat 8 (natOfBits ((span (8 * k) 8).map bit))

/-- The decoder state before the first bit of a block. -/
def DecState.start (off : Nat) (header : List Byte) : DecState :=
  { st := 1, off := off, bitpos := 0, header := header, plane := 0, pmode := 0xFF, pos := 0, kleft := 0, hist := 0,
    obuf := 0 }

/-- Steps 4 to 8 of R338, from a decoder state on; `data` are the plane data. A restored record whose PLANE is above P
counts as having PLANE = P, and a POS above n as the end of its plane: neither is on the list of FRAMEBAD (DESIGN CHOICE,
log 36). -/
def decodeBlock (data : Nat) (b : BlockHdr) (d : DecState) : Except Cause DecState :=
  let i := if d.st = 2 then b.planes else min d.plane b.planes
  let p : Option PlaneAt :=
    if d.pmode = 0xFF then none else some { mode := d.pmode % 4, t := d.bitpos, pos := d.pos, left := d.kleft }
  match decodePlanes data b.clen b (b.planes - i) p d with
  | .error c => .error c
  | .ok r =>
    if ceilDiv r.bitpos 8 + 32 ≤ b.clen then .error .xlen
    else if data / 2 ^ r.bitpos ≠ 0 then .error .xfmt
    else if crc32c (r.expanded b) ≠ b.crc then .error .xchk
    else .ok r

/-- An element widened to WD (R336). -/
def widen (t : VT) (w x : Nat) : Nat :=
  if t.kind = 0 ∨ t.kind = 2 ∨ t.kind = 12 then wrap t.wd (sx w x) else x

/-! ### XDEC (R333 to R337) -/

/-- The VHdr and registers of an XDEC. -/
structure XdecOp where
  hdr : VHdr
  d : Nat
  a : Nat
  deriving DecidableEq, Repr

def XdecOp.regs (o : XdecOp) (g : Nat) : Regs := { rd := [(o.a, g)], wr := [(o.d, g)], mrd := [], mwr := [] }

/-- The trap of an XDEC at steps 2 and 3 of R50 (R40, R333). -/
def XdecOp.check (o : XdecOp) (h : Hart) : Option Cause :=
  let t := VT.of h.vtype
  let reg : Nat → Bool := fun k => decide (k < nregOf h.vcfg) && k % t.g == 0
  if t.vill then some .vill
  else if reg o.d && reg o.a && t.wa == 8 && !regsMeet o.d t.g o.a t.g then none
  else some .illins

/-- Where an XDEC begins (R337). -/
def XState.start : XState := { s := 0, off := 0, mode := 0, dec := none, ahead := [] }

/-- Where the XDEC of an entry stands. -/
def Entry.xd (e : Entry) : XState := e.part.xd.getD XState.start
def Entry.setXd (e : Entry) (x : XState) : Entry := { e with part := { e.part with xd := some x } }

/-- The environment of an XDEC. -/
def XdecOp.env (_o : XdecOp) (h : Hart) (e : Entry) : VEnv := VEnv.of h e 0

/-- Source bytes (R334). -/
def XdecOp.source (o : XdecOp) (n : VEnv) (off len : Nat) : List Byte :=
  (span off len).map fun k => BitVec.ofNat 8 (n.rd o.a 8 1 k)

/-- The issue of an XDEC (R334, R341): ILLINS of a bound register, or it resumes where its state says. -/
def XdecOp.issue (o : XdecOp) (s : State) (id : Nat) (h : Hart) (e : Entry) : Option State :=
  let r := o.regs (VT.of e.vtype).g
  let wait := h.mtxBefore e.seq r || h.strmBefore e.seq r || (h.feeders e.seq r).any fun f => !f.started
  s.issueV id h e wait fun s h e =>
    if h.boundFor e.seq (r.rd ++ r.wr) then some (s.setHart id (h.faultEntry .vector e .illins (w64 e.word) 0))
    else
      some (s.setHart id (h.modEntry .vector e.slot fun e =>
        (e.start (h.effVl e o.hdr.av o.a)).setXd { e.xd with s := e.progress }))

/-- A block fails (R339): the blocks before it are written, and the XDEC stops at it. -/
def XdecOp.fail (o : XdecOp) (s : State) (id : Nat) (h : Hart) (e : Entry) (x : XState) (c : Cause) : State :=
  let e' := e.setXd { x with mode := 0, dec := none, ahead := [] }
  let h' := if e.res.isEmpty then h else commitV o.d (o.env h e) s.fresh
  (s.setHart id ((h'.modEntry .vector e.slot fun _ => e').faultEntry .vector e' c (w64 x.off) x.s)).bump 40

/-- A block is done (R335, R337): its elements below V join those to write, and the XDEC goes to the next block. `d` is its
decoder state, none of a skipped block. -/
def State.xdecBlock (s : State) (id : Nat) (h : Hart) (e : Entry) (x : XState) (b : BlockHdr) (d : Option DecState)
    (f : Nat → Nat) : State :=
  let new := (List.range b.room).filterMap fun i =>
    if e.progress ≤ x.s + i ∧ x.s + i < e.eff then some (x.s + i, if i < b.n then f i else 0) else none
  let x' : XState :=
    { s := x.s + b.room, off := x.off + 32 + b.clen, mode := 0, dec := none,
      ahead := x.ahead ++ [{ s := x.s, off := x.off, room := b.room, dec := d }] }
  s.setHart id (h.modEntry .vector e.slot fun e => { e with res := e.res ++ new }.setXd x')

/-- An XDEC stops between write steps (R342): it resumes with the oldest block that has an element at or above its progress
index, from that block's decoder state, or skips it again; later blocks are decoded again. -/
def Entry.xdStop (e : Entry) : Entry :=
  match e.part.xd with
  | none => e
  | some x =>
    let x' := match x.ahead.find? fun b => decide (e.progress < b.s + b.room) with
      | some b => { x with s := b.s, off := b.off, mode := bitOf b.dec.isNone, dec := b.dec, ahead := [] }
      | none => { x with ahead := [] }
    { e.setXd x' with res := e.res.filter fun r => decide (r.1 < e.progress) }

/-- An expander takes the next block of a started XDEC (R337 to R341): none while its source bytes have not landed. -/
def XdecOp.block (o : XdecOp) (s : State) (id : Nat) (h : Hart) (e : Entry) : Option State :=
  let n := o.env h e
  let r := o.regs n.g
  let x := e.xd
  let here : Nat → Bool := fun k => h.landed e r (s.stve id) false (o.hdr.av != 0) k
  if n.V < x.off + 32 then some (o.fail s id h e x .xfmt)
  else if !here (x.off + 32) then none
  else
    let header := match x.mode, x.dec with
      | 0, some d => d.header
      | _, _ => o.source n x.off 32
    let b := BlockHdr.of header
    match b.check n.vt n.V x.off with
    | some c => some (o.fail s id h e x c)
    | none =>
      if x.mode = 1 then some (s.xdecBlock id h e x b none fun _ => 0)
      else if !here (x.off + 32 + b.clen) then none
      else
        match decodeBlock (ofBytes (o.source n (x.off + 32) b.clen)) b (x.dec.getD (DecState.start x.off header)) with
        | .error c => some (o.fail s id h e x c)
        | .ok d => some (s.xdecBlock id h e x b (some d) fun i => widen n.vt b.w (d.elem b i))

/-- The end of the element group of a write step (R346). -/
def XdecOp.groupEnd (_o : XdecOp) (h : Hart) (e : Entry) : Nat := (e.progress / h.lanes + 1) * h.lanes

/-- Every block with an element in the group is decoded and checked (R346). -/
def XdecOp.stepReady (o : XdecOp) (h : Hart) (e : Entry) : Bool := decide (min (o.groupEnd h e) e.eff ≤ e.xd.s)

/-- One write step (R346), of WD + 2 cycles. -/
def XdecOp.writeStep (o : XdecOp) (s : State) (id : Nat) (h : Hart) (e : Entry) : State :=
  let c := (VT.of e.vtype).wd + 2
  let hi := o.groupEnd h e
  (s.charge id h c).setHart id
    ((h.modEntry .vector e.slot fun e =>
        { e with progress := hi, ran := [] }.setXd
          { e.xd with ahead := e.xd.ahead.filter fun b => decide (hi < b.s + b.room) }).groupDone e hi (h.stepBeats c))

/-- An XDEC whose elements are all written retires (R192, R193). -/
def XdecOp.retire (o : XdecOp) (s : State) (id : Nat) (h : Hart) (e : Entry) : State :=
  (s.setHart id ((commitV o.d (o.env h e) s.fresh).retire .vector e)).bump 40

/-- The next move of an XDEC at the head of the vector queue: none while it waits. -/
def XdecOp.move (o : XdecOp) (s : State) (id : Nat) (h : Hart) (e : Entry) : Option State :=
  if !e.started then o.issue s id h e
  else if e.eff ≤ e.progress then some (o.retire s id h e)
  else if o.stepReady h e then some (o.writeStep s id h e)
  else o.block s id h e

/-- The XDEC of an instruction. -/
def xdecOp (i : Instr) : Option XdecOp :=
  match i with
  | .xdec h d a => some { hdr := h, d := d, a := a }
  | _ => none

/-- The XDEC at the head of a hart's vector queue, which may go on. -/
def Hart.xdecHead (h : Hart) : Option (XdecOp × Entry) :=
  match h.vq with
  | [] => none
  | v :: _ =>
    if (h.qstop && !v.e.started) || !v.e.runnable then none
    else (xdecOp v.e.op).map fun o => (o, v.e)

/-- The XDEC with dispatch number `seq` moves until it waits, faults or retires, at most `fuel` times (log 3). -/
def xdecDrive (id seq : Nat) : (fuel : Nat) → State → State
  | 0, s => s
  | k + 1, s =>
    match s.hart? id with
    | none => s
    | some h =>
      match h.xdecHead with
      | none => s
      | some (o, e) =>
        if e.seq ≠ seq then s
        else
          match o.move s id h e with
          | some s' => xdecDrive id seq k s'
          | none => s

/-- XDEC (R333, R337). -/
def execXdec (hd : VHdr) (d a : Nat) (s : State) : Out :=
  onHart s fun id h =>
    let o : XdecOp := { hdr := hd, d := d, a := a }
    match o.check h with
    | some c => trapAt s id h c (w64 (encode (.xdec hd d a)))
    | none =>
      if h.full .vector then .next s
      else
        let r := h.vecEntry (.xdec hd d a) hd [FU.t.code] (o.regs (VT.of h.vtype).g).rd false
        let s1 := s.setHart id (r.1.pushV { e := r.2, redeal := none })
        .next (if s.eager && h.vq.isEmpty && s.aloneV id then
            (xdecDrive id r.2.seq (2 * ceilDiv r.2.vl 256 + 4) s1).endTurn id
          else s1)

/-- EXPANDER_BLOCK (R345): the XDEC at the head of the queue takes its next block. -/
def execExpanderBlock (id : Nat) (s : State) : Out :=
  match s.hart? id with
  | none => .next s
  | some h =>
    match h.xdecHead with
    | some (o, e) =>
      if e.started && decide (e.progress < e.eff) && !o.stepReady h e then .next ((o.block s id h e).getD s) else .next s
    | none => .next s

/-- XDEC_WRITE_STEP (R346): the write of one element group, once its blocks are checked. -/
def execXdecWriteStep (id : Nat) (s : State) : Out :=
  match s.hart? id with
  | none => .next s
  | some h =>
    match h.xdecHead with
    | some (o, e) =>
      if e.started && decide (e.progress < e.eff) && o.stepReady h e then .next (o.writeStep s id h e) else .next s
    | none => .next s

/-! ### XRIX (R340, R341) -/

/-- The stopped XDEC that VCP names (R340). -/
def Hart.xdecStopped (h : Hart) : Option Entry :=
  let v := h.vcpRead.toNat
  if !v.testBit 55 || bits v 62 2 != 0 then none
  else
    match h.entry? .vector (bits v 56 6) with
    | some e => if (xdecOp e.op).isSome && (e.stopped || e.frozen.isSome) then some e else none
    | none => none

def Hart.xrixRead (h : Hart) : W64 :=
  match h.xdecStopped with
  | some e => w64 (e.xd.mode * 2 ^ 62 + 2 ^ 48 + e.xd.off)
  | none => 0

/-- A write of XRIX; another block at OFFSET has no decoder state. -/
def Hart.xrixWrite (h : Hart) (x : W64) : Hart :=
  match h.xdecStopped with
  | none => h
  | some e =>
    let v := x.toNat
    let m := bits v 62 2
    let off := bits v 0 32
    h.modEntry .vector e.slot fun e =>
      e.setXd { e.xd with mode := (if m < 2 then m else e.xd.mode), off := off,
                          dec := if off = e.xd.off then e.xd.dec else none }

/-! ### XSTATE.SAVE and XSTATE.RESTORE (R343, R344) -/

/-- Bytes of a decoder state record. -/
def xstateSize : Nat := 0x2240

/-- The record of a decoder state (R343). With STATE 0 what follows OFFSET is opaque, of the writing `seed`. -/
def xstateRecord (seed off : Nat) (d : Option DecState) : List Byte :=
  let head : Nat → List Byte := fun st => toBytes 4 0x4C585853 ++ toBytes 2 1 ++ toBytes 1 st ++ toBytes 1 0 ++ toBytes 4 off
  match d with
  | none => head 0 ++ (span 0x00C (xstateSize - 0x00C)).map (Config.freeByte seed)
  | some x =>
    head x.st ++ toBytes 4 x.bitpos ++ x.header ++ toBytes 1 x.plane ++ toBytes 1 x.pmode ++ toBytes 2 x.pos ++
      toBytes 2 x.kleft ++ toBytes 10 0 ++ toBytes 0x200 x.hist ++ toBytes 0x2000 x.obuf

/-- The decoder state of a record, if it has one. -/
def xstateDec (l : List Byte) : Option DecState :=
  let f : Nat → Nat → Nat := fun o n => ofBytes ((l.drop o).take n)
  if f 6 1 = 0 then none
  else some { st := f 6 1, off := f 8 4, bitpos := f 0x0C 4, header := (l.drop 0x10).take 32, plane := f 0x30 1,
              pmode := f 0x31 1, pos := f 0x32 2, kleft := f 0x34 2, hist := f 0x40 0x200, obuf := f 0x240 0x2000 }

/-- The record is refused with FRAMEBAD (R344). -/
def xstateBad (l : List Byte) (e : Entry) : Bool :=
  let f : Nat → Nat → Nat := fun o n => ofBytes ((l.drop o).take n)
  f 0 4 != 0x4C585853 || f 4 2 != 1 || decide (2 < f 6 1) || f 7 1 != 0 ||
  (f 6 1 != 0 && (f 0x36 10 != 0 ||
    ((BlockHdr.of ((l.drop 0x10).take 32)).check (VT.of e.vtype) (if e.started then e.eff else e.vl) (f 8 4)).isSome))

/-- What XSTATE.SAVE and XSTATE.RESTORE check before they move a record: mode, VILL, alignment, and the probe. -/
def xstateOp (b : Nat) (k : AKind) (op : Instr) (s : State) (go : Nat → Hart → Nat → Out) : Out :=
  supOnly s op fun id h =>
    let a := (h.rg b).toNat
    if (VT.of h.vtype).vill then trapAt s id h .vill (w64 (encode op))
    else if h.accessWaits a xstateSize (k == .w) || s.walkAway (h.who id) a xstateSize then .next s
    else
      match s.probe1 (h.who id) { e := 0, va := a, n := xstateSize, k := k, al := 64 } with
      | some (c, va) => trapAt s id h c (w64 va)
      | none =>
        let dev := (s.onDevice (h.who id) { e := 0, va := a, n := xstateSize, k := k, al := 64 }).isSome
        if (dev && h.deviceWaits) || s.awayFrom id (h.who id) a xstateSize then .next s else go id h a

/-- The bytes that lie in lines of the open strip join its buffer (R248); the others go to their places. -/
def State.storeRecord (s : State) (id : Nat) (h : Hart) (a : Nat) (bs : List Byte) : State :=
  let vs := (span a bs.length).zip bs
  let mine : Host.Cell → Bool := fun c => (h.stripAt c.1).isSome
  let h1 := { h with strip := h.strip.map fun t => t.join 0 (vs.filter mine) }
  let l := (vs.filter fun c => !mine c).flatMap fun (c : Host.Cell) => s.byteWrites (h.who id) c.1 [(c.2, 255)]
  let r := ((s.setHart id h1).tlbFillAll (h.who id) a bs.length).place id l false
    (heldOf (.hart id) h.ctx a (l.any fun w => pteIdem w.x.pte) (.done none))
  if r.2 then r.1.modHart id Hart.advance else r.1

def execXstateSave (hd : VHdr) (b : Nat) (s : State) : Out :=
  xstateOp b .w (.xstateSave hd b) s fun id h a =>
    let x := h.xdecStopped
    let off := match x with
      | some e => e.xd.off
      | none => 0
    .next ((s.storeRecord id h a (xstateRecord s.fresh off (x.bind fun e => e.xd.dec))).bump 1)

def execXstateRestore (hd : VHdr) (b : Nat) (s : State) : Out :=
  xstateOp b .r (.xstateRestore hd b) s fun id h a =>
    match h.xdecStopped with
    | none => finish s id h
    | some e =>
      let r := s.readDwords id h a (xstateSize / 8)
      match r.2 with
      | none => .next r.1
      | some ws =>
        let l := ws.flatMap fun w => toBytes 8 w
        if xstateBad l e then trapAt r.1 id ((r.1.hart? id).getD h) .framebad (w64 a)
        else
          .next (r.1.modHart id fun h =>
            (h.modEntry .vector e.slot fun e =>
              e.setXd { e.xd with off := ofBytes ((l.drop 8).take 4), dec := xstateDec l }).advance)

end Sys2Proof.Machine
end

