-- ==== Sys2Proof/Machine/Matrix.lean ====
section
/-! DEFINITION. The matrix engine: tiles (R256 to R262), the instructions of the matrix queue (R263 to R272), and their
order (R273 to R277). -/

namespace Sys2Proof.Machine

/-! ### The scoreboard against the vector queue (R19, R274, R310) -/

/-- Registers of an instruction of the vector queue. -/
def Entry.vecRegs (e : Entry) : Regs :=
  let g := (VT.of e.vtype).g
  match vecSpec e.op with
  | some x => x.regs g
  | none =>
    match vmuOp e.op with
    | some o => o.regs g
    | none =>
      match xdecOp e.op with
      | some o => o.regs g
      | none => Regs.none

/-- An older entry of the vector queue that the scoreboard puts before registers `r`; a re-deal stands before all. -/
def Hart.vecBefore (h : Hart) (seq : Nat) (r : Regs) : Bool :=
  h.vq.any fun v => decide (v.e.seq < seq) && (v.redeal.isSome || v.e.vecRegs.conflict r)

/-- An older stream that the scoreboard puts before registers `r` (R310). -/
def Hart.streamBefore (h : Hart) (seq : Nat) (r : Regs) : Bool :=
  h.sq.any fun e => decide (e.seq < seq) && (h.strmRegs e).conflict r

/-! ### Tiles (R256 to R258) -/

def State.tile (s : State) (id t : Nat) : Tile := vat (s.core (coreOf id)).tiles t Tile.reset
def State.setTile (s : State) (id t : Nat) (x : Tile) : State :=
  let c := s.core (coreOf id)
  s.setCore (coreOf id) { c with tiles := c.tiles.setIfInBounds t x }

/-- The hart holds the tile. -/
def State.holdsTile (s : State) (id t : Nat) : Bool := (s.tile id t).held == some id

/-- Accumulators from a position on, `left` of them. -/
def denseFrom : (left pos : Nat) → List (Nat × Nat) → List Nat
  | 0, _, _ => []
  | left + 1, pos, [] => 0 :: denseFrom left (pos + 1) []
  | left + 1, pos, (p, a) :: l =>
    if p = pos then a :: denseFrom left (pos + 1) l else 0 :: denseFrom left (pos + 1) ((p, a) :: l)

/-- All accumulators by 128 * m + n. -/
def Tile.dense (t : Tile) : List Nat := denseFrom 8192 0 t.acc

/-- The accumulators that are not 0. -/
def sparse (l : List Nat) : List (Nat × Nat) := (l.zipIdx.map fun x => (x.2, x.1)).filter fun x => x.2 != 0

/-- An accumulator as a signed number modulo 2^136. -/
def accOf (z : Int) : Nat := wrap 136 z

/-- The value of acc(t, m, n). -/
def Tile.sval (t : Tile) (m n : Nat) : Int := accInt (getD t.acc (128 * m + n) 0)

/-- Every accumulator of a tile goes through `f`, which gives its new value and flags. -/
def Tile.mapAcc (t : Tile) (f : Nat → Int → Int × Nat) : Tile :=
  let r := t.dense.zipIdx.map fun x => f x.2 (accInt x.1)
  { t with acc := sparse (r.map fun x => accOf x.1), flags := t.flags ||| r.foldl (fun a x => a ||| x.2) 0 }

/-- A tile cleared. -/
def Tile.clear (t : Tile) : Tile := { t with acc := [], flags := 0 }

/-! ### What an instruction sees -/

/-- A matrix instruction at work: its hart, entry and shape. -/
structure MEnv where
  h : Hart
  e : Entry
  ts : TS
  msk : Nat

/-- A mask bit of the predicate. -/
def MEnv.on (n : MEnv) (k : Nat) : Bool := n.msk == 0 || maskBit n.h n.msk k

/-- Rows of TZERO, TSHIFT and TMERGE (R270). -/
def MEnv.row (n : MEnv) (m : Nat) : Bool := decide (m < n.ts.tl) && n.on m

/-- Element e of a vector register at a width: a raw code (R254); the matrix engine ignores GROUP. -/
def MEnv.code (n : MEnv) (k w e : Nat) : Nat := readElem n.h.v n.h.geo k 1 w e

/-- The value of an element of a kind of TSHAPE. -/
def MEnv.value (n : MEnv) (kind k e : Nat) : Val := kindValue kind 0 (kindWidth kind) (n.code k (kindWidth kind) e)

/-- A value times a scale code (R254): 0xFF is NaN. -/
def scaled (v : Val) (s : Nat) : Val :=
  match v with
  | .fin n x => if s = 0xFF then .nan false else .fin n (x * pow2 ((s : Int) - 127))
  | x => if s = 0xFF then .nan false else x

/-! ### OPA and OPAS (R260, R266) -/

/-- The eight A values of row m, scaled. -/
def MEnv.rowA (n : MEnv) (slide : Bool) (a m : Nat) : List Val :=
  (List.range 8).map fun k =>
    let i := if !slide then 8 * m + k else if n.ts.slide then m + 7 - k else m + k
    let v := n.value n.ts.akind a i
    if n.ts.blk = 0 then v else scaled v (n.code (a + 1) 8 (if slide then 0 else m))

/-- The eight B values of column c, scaled. -/
def MEnv.colB (n : MEnv) (a b c : Nat) : List Val :=
  (List.range 8).map fun k =>
    let v := n.value n.ts.bkind (b + k) c
    if n.ts.blk = 0 then v else scaled v (n.code (a + 1) 8 (64 + c))

/-- The exact sum of products; none when the term is void (R260). -/
def term : List Val → List Val → Option Rat
  | .fin _ x :: as, .fin _ y :: bs => (term as bs).map fun s => s + x * y
  | [], _ => some 0
  | _, [] => some 0
  | _, _ => none

/-- Rows of OPA and OPAS. -/
def MEnv.opaRow (n : MEnv) (slide : Bool) (m : Nat) : Bool :=
  n.row m && decide ((if slide then m + 7 else 8 * m + 7) < n.e.vl)

/-- One outer product into a tile. -/
def MEnv.outer (n : MEnv) (slide : Bool) (a b : Nat) (t : Tile) : Tile :=
  let rows : List (Option (List Val)) :=
    (List.range 64).map fun m => if n.opaRow slide m then some (n.rowA slide a m) else none
  let cols : List (Option (List Val)) := (List.range 128).map fun c => if n.on (64 + c) then some (n.colB a b c) else none
  let ops := rows.flatMap fun r => cols.map fun c => (r, c)
  let one : Nat × Option (List Val) × Option (List Val) → Nat × Nat := fun x =>
    match x.2.1, x.2.2 with
    | some as, some bs =>
      (match term as bs with
       | none => (x.1, flNV)
       | some q =>
         let g := grid q n.ts.xbase
         (accOf (accInt x.1 + g), flagIf (decide ((g : Rat) * pow2 n.ts.xbase ≠ q)) flNX))
    | _, _ => (x.1, 0)
  let r := (t.dense.zip ops).map one
  { t with acc := sparse (r.map Prod.fst), flags := t.flags ||| r.foldl (fun f x => f ||| x.2) 0 }

/-! ### TRD and TWR (R263, R268, R269) -/

/-- The tile position of element e under a selector. -/
def selPos (b e : Nat) : Nat × Nat := if b < 16 then (4 * b + e / 128, e % 128) else (e, (96 + b) % 128)

/-- Elements that a TRD or TWR moves. -/
def MEnv.moved (n : MEnv) (b : Nat) : List Nat :=
  (List.range n.e.vl).filter fun e => decide ((selPos b e).1 ≤ 63) && n.on e

/-- A TRD or TWR as the vector engine sees it: one register, whatever GROUP is. -/
def MEnv.venv (n : MEnv) : VEnv :=
  { VEnv.of n.h n.e n.msk with V := n.e.vl, vt := { VT.of n.e.vtype with group := 0 } }

/-- TRD: the elements read, and the flags. -/
def MEnv.readTile (n : MEnv) (b : Nat) (t : Tile) : List (Nat × Nat) × Nat :=
  let v := n.venv
  let r := (n.moved b).map fun e =>
    let p := selPos b e
    let a := getD t.acc (128 * p.1 + p.2) 0
    let x : Val := if t.flags.testBit 0 then .nan false else .ofRat ((accInt a : Rat) * pow2 n.ts.xbase)
    let c := convertVal 4 x v.vt.kind v.vt.frac v.vt.wd v.vt.sat (v.rm e)
    (e, c.1, c.2 ||| flagIf (guardBad a) flTV)
  (r.map fun x => (x.1, x.2.1), r.foldl (fun f x => f ||| x.2.2) 0)

/-- The grid value that TWR stores for a value, with its flags (R269). -/
def MEnv.placed (n : MEnv) (x : Val) : Int × Nat :=
  match x with
  | .fin _ q =>
    let g := grid q n.ts.xbase
    let nx := flagIf (decide ((g : Rat) * pow2 n.ts.xbase ≠ q)) flNX
    let lo : Int := -(2 ^ 127)
    let hi : Int := 2 ^ 127 - 1
    if g < lo then (lo, nx ||| flTV) else if hi < g then (hi, nx ||| flTV) else (g, nx)
  | _ => (0, flNV)

/-- TWR into a tile. -/
def MEnv.writeTile (n : MEnv) (a b : Nat) (t : Tile) : Tile :=
  let v := n.venv
  (n.moved b).foldl (fun t e =>
    let p := selPos b e
    let x := kindValue v.vt.kind v.vt.frac v.vt.wa (v.rd a v.vt.wa v.vt.kind e)
    let g := n.placed x
    let z := accOf g.1
    let acc := if z = 0 then erase t.acc (128 * p.1 + p.2) else put t.acc (128 * p.1 + p.2) z
    { t with acc := acc, flags := t.flags ||| g.2 }) t

/-! ### Rescale, TSHIFT, TMERGE, TZERO (R261, R270 to R272) -/

/-- Rescale(a, s) of an sval: the value and the tile flags. Below s = -140 an sval is less than half a grid unit. -/
def rescale (a s : Int) : Int × Nat :=
  if s < -140 then (0, flagIf (decide (a ≠ 0)) flSU)
  else
  let q : Rat := (a : Rat) * pow2 s
  let z := if 0 ≤ s then q.floor else grid q 0
  let su := flagIf (decide ((z : Rat) ≠ q)) flSU
  let tv := flagIf (decide (z < -(2 ^ 127)) || decide (2 ^ 127 - 1 < z)) flTV
  (z, su ||| tv)

def MEnv.shift (n : MEnv) (amount : Int) (t : Tile) : Tile :=
  if amount = 0 then t
  else t.mapAcc fun p a => if n.row (p / 128) then rescale a amount else (a, 0)

def MEnv.zero (n : MEnv) (t : Tile) : Tile :=
  { t with acc := t.acc.filter fun a => !n.row (a.1 / 128), flags := 0 }

/-- The plain merge of tile `src`. -/
def MEnv.mergePlain (n : MEnv) (src t : Tile) : Tile :=
  let r := (t.dense.zip src.dense).zipIdx.map fun x =>
    if n.row (x.2 / 128) then accOf (accInt x.1.1 + accInt x.1.2) else x.1.1
  { t with acc := sparse r, flags := t.flags ||| src.flags }

/-- The row maxima of a tile (R270): column 127 on the grid, floored. -/
def MEnv.maxima (n : MEnv) (t : Tile) : List Int :=
  (List.range 64).map fun m => ((t.sval m 127 : Rat) * pow2 n.ts.xbase).floor

/-- The aligned merge of tile `src`. -/
def MEnv.mergeAligned (n : MEnv) (src t : Tile) : Tile :=
  let ms : List (Int × Int) := (n.maxima t).zip (n.maxima src)
  let pick : Nat → Int × Int := fun p => (ms[p / 128]?).getD (0, 0)
  let r := (t.dense.zip src.dense).zipIdx.map fun x =>
    if !n.row (x.2 / 128) then (x.1.1, 0)
    else
      let m := pick x.2
      let top := max m.1 m.2
      if x.2 % 128 = 127 then (accOf (grid (top : Rat) n.ts.xbase), 0)
      else
        let y := rescale (accInt x.1.1) (m.1 - top)
        let z := rescale (accInt x.1.2) (m.2 - top)
        (accOf (y.1 + z.1), y.2 ||| z.2)
  { t with acc := sparse (r.map Prod.fst),
           flags := t.flags ||| src.flags ||| r.foldl (fun f x => f ||| x.2) 0 }

/-! ### Checks (R264, R265) -/

/-- The tiles that an instruction must hold (R265). -/
def mtxTiles (i : Instr) : List Nat :=
  match i with
  | .opa _ t _ _ => [t]
  | .opas _ t _ _ => [t]
  | .tzero _ t => [t]
  | .trd _ t _ _ => [t]
  | .twr _ t _ _ => [t]
  | .tshift _ t _ => [t]
  | .tmerge _ t a => [t, a]
  | .tmergeAtt _ t a => [t, a]
  | .tflags _ t => [t]
  | _ => []

/-- The tag of an operand does not suit the width at which it is read (R189). -/
def badTag (h : Hart) (k w : Nat) : Bool :=
  match tagW h k with
  | some t => t != w
  | none => false

/-- ILLWIDTH of the operands of OPA and OPAS (R265). -/
def outerWide (h : Hart) (ts : TS) (a b : Nat) : Bool :=
  badTag h a (kindWidth ts.akind) || ((List.range 8).any fun k => badTag h (b + k) (kindWidth ts.bkind)) ||
  (ts.blk != 0 && badTag h (a + 1) 8)

/-- ILLWIDTH at issue (R265). -/
def mtxWide (h : Hart) (e : Entry) : Bool :=
  match e.op with
  | .opa _ _ a b => outerWide h (TS.of e.tshape) a b
  | .opas _ _ a b => outerWide h (TS.of e.tshape) a b
  | .twr _ _ a _ =>
    let t := VT.of e.vtype
    !kindInt t.kind && illWidth h a t.kind t.wa
  | _ => false

/-- The fault of a matrix instruction at issue (R265). -/
def State.mtxFault (s : State) (id : Nat) (h : Hart) (e : Entry) : Option Cause :=
  let r := mtxRegs e
  if (mtxTiles e.op).any fun t => !s.holdsTile id t then some .illins
  else if mtxWide (h.bindTags e) e then some .illwidth
  else if h.boundFor e.seq (r.rd ++ r.wr) then some .illins
  else none

/-! ### Cycles (R255) -/

/-- Significand width of a kind. -/
def sigWidth (k : Nat) : Nat :=
  match k with
  | 5 => 8
  | 6 => 11
  | 7 => 4
  | 8 => 3
  | 9 => 3
  | 10 => 4
  | 11 => 2
  | _ => 8

def outerCycles (ts : TS) : Nat := ceilDiv (sigWidth ts.bkind) 2 * ceilDiv (sigWidth ts.akind) 8

/-- Tile rows that a TRD or TWR touches. -/
def rowsTouched (b vl : Nat) : Nat := if b < 16 then min (ceilDiv vl 128) (64 - 4 * b) else min vl 64

/-- Cycles of a matrix instruction; TALLOC and TFREE have their own. -/
def mtxCycles (e : Entry) : Nat :=
  match e.op with
  | .opa _ _ _ _ => outerCycles (TS.of e.tshape)
  | .opas _ _ _ _ => outerCycles (TS.of e.tshape)
  | .tzero _ _ => 8
  | .tshift _ _ _ => 8
  | .tmerge _ _ _ => 10
  | .tmergeAtt _ _ _ => 10
  | .trd _ _ _ b => 4 + ceilDiv (rowsTouched b e.vl) 8
  | .twr _ _ _ b => 4 + ceilDiv (rowsTouched b e.vl) 8
  | _ => 1

/-! ### Effects -/

/-- The predicate of a matrix instruction. -/
def mtxMask (i : Instr) : Nat :=
  match i with
  | .opa x _ _ _ => x.msk
  | .opas x _ _ _ => x.msk
  | .tzero x _ => x.msk
  | .trd x _ _ _ => x.msk
  | .twr x _ _ _ => x.msk
  | .tshift x _ _ => x.msk
  | .tmerge x _ _ => x.msk
  | .tmergeAtt x _ _ => x.msk
  | _ => 0

/-- The matrix instruction leaves its queue after `cycles`. -/
def State.mtxRetire (s : State) (id : Nat) (e : Entry) (cycles : Nat) : State :=
  s.modHart id fun h => (h.beats (64 * cycles)).retire .matrix e

/-- The effect of a matrix instruction that has passed its checks: tiles, registers, flags. -/
def State.mtxRun (s : State) (id : Nat) (h : Hart) (e : Entry) : State :=
  let n : MEnv := { h := h, e := e, ts := TS.of e.tshape, msk := mtxMask e.op }
  let done : State → State := fun s => s.mtxRetire id e (mtxCycles e)
  match e.op with
  | .opa _ t a b => done (s.setTile id t (n.outer false a b (s.tile id t)))
  | .opas _ t a b => done (s.setTile id t (n.outer true a b (s.tile id t)))
  | .tzero _ t => done (s.setTile id t (n.zero (s.tile id t)))
  | .trd _ t a b =>
    let r := n.readTile b (s.tile id t)
    let e' := { e with res := r.1, flags := e.flags ||| r.2 }
    let h' := commitV a { n.venv with e := e' } s.fresh
    ((s.setHart id h').mtxRetire id e' (mtxCycles e)).bump 40
  | .twr _ t a b => done (s.setTile id t (n.writeTile a b (s.tile id t)))
  | .tshift _ t k => done (s.setTile id t (n.shift (sx 10 k) (s.tile id t)))
  | .tmerge _ t a => done (s.setTile id t (n.mergePlain (s.tile id a) (s.tile id t)))
  | .tmergeAtt _ t a => done (s.setTile id t (n.mergeAligned (s.tile id a) (s.tile id t)))
  | .tflags _ t =>
    let T := s.tile id t
    (s.setTile id t { T with flags := 0 }).mtxRetire id { e with flags := e.flags ||| T.flags } 1
  | .tfree _ t =>
    let T := s.tile id t
    (if T.held = some id then s.setTile id t { T with held := none } else s).mtxRetire id e 1
  | _ => s.mtxRetire id e 1

/-! ### TALLOC (R267) -/

/-- The tile that a TALLOC names. -/
def tallocTile (i : Instr) : Option Nat :=
  match i with
  | .talloc _ t => some t
  | _ => none

/-- Who waits for tile t of a core: hart, priority, and since when. A restore waits for every tile of its frame (R259). -/
def State.tileWaiters (s : State) (core t : Nat) : List (Nat × Nat × Nat) :=
  (s.harts.filter fun p => coreOf p.1 == core).filterMap fun p =>
    match p.2.wait with
    | some (.restore _ gen) =>
      (match s.frames.find? fun f => f.gen == gen with
       | some f => if f.tiles.any fun x => x.1 == t then some (p.1, p.2.prio, p.2.waitSince) else none
       | none => none)
    | _ =>
      match p.2.mq with
      | e :: _ =>
        if e.started && e.runnable && tallocTile e.op == some t then some (p.1, p.2.prio, e.part.cnt) else none
      | [] => none

/-- The waiter that the engine serves first: highest priority, then longest waiting, then lowest hart. -/
def State.tileFirst (s : State) (core t : Nat) : Option Nat :=
  let before : Nat × Nat × Nat → Nat × Nat × Nat → Bool := fun a b =>
    if a.2.1 ≠ b.2.1 then decide (b.2.1 < a.2.1) else if a.2.2 ≠ b.2.2 then decide (a.2.2 < b.2.2) else decide (a.1 ≤ b.1)
  ((sortBy before (s.tileWaiters core t)).head?).map Prod.fst

/-- A hart takes a free tile (R258). -/
def State.takeTile (s : State) (id ctx t : Nat) : State :=
  let T := s.tile id t
  let T' := if T.last = some ctx then T else T.clear
  s.setTile id t { T' with held := some id, last := some ctx }

/-- The TALLOC at the head of a hart's matrix queue takes its tile and retires. -/
def State.tallocDone (s : State) (id : Nat) (h : Hart) (e : Entry) (t : Nat) : State :=
  let c := if (s.tile id t).last = some h.ctx then 1 else 9
  (s.takeTile id h.ctx t).mtxRetire id e c

/-- A TALLOC goes on: it holds the tile already, takes it, or waits; none while it waits. -/
def State.tallocMove (s : State) (id : Nat) (h : Hart) (e : Entry) (t : Nat) : Option State :=
  if s.holdsTile id t then some (s.mtxRetire id e 1)
  else
    let first := s.tileFirst (coreOf id) t
    if (s.tile id t).held.isNone && (first.isNone || first == some id) then some (s.tallocDone id h e t)
    else if e.started then none
    else
      some (s.setHart id (h.modEntry .matrix e.slot fun e =>
        { e with started := true, part := { e.part with cnt := s.tick } }))

/-- TILE_GRANT (R267): a free tile goes to the TALLOC that waits for it first. A restore takes its tiles itself. -/
def execTileGrant (core t : Nat) (s : State) : Out :=
  if (vat (s.core core).tiles t Tile.reset).held.isSome then .next s
  else
    match s.tileFirst core t with
    | none => .next s
    | some id =>
      match s.hart? id with
      | none => .next s
      | some h =>
        match h.mq with
        | e :: _ => if e.started && tallocTile e.op == some t then .next (s.tallocDone id h e t) else .next s
        | [] => .next s

/-! ### Issue (R21, R265, R273, R276) -/

/-- The next move of the head of a hart's matrix queue; none while it waits. -/
def State.mtxMove (s : State) (id : Nat) : Option State :=
  match s.hart? id with
  | none => none
  | some h =>
    match h.mq with
    | [] => none
    | e :: _ =>
      if !e.runnable then none
      else if e.started then
        match tallocTile e.op with
        | some t => s.tallocMove id h e t
        | none => none
      else if h.qstop || h.vecBefore e.seq (mtxRegs e) || h.streamBefore e.seq (mtxRegs e) then none
      else
        let r := h.takeTokens .matrix [e.slot]
        if !r.2 then (if r.1 = h then none else some (s.setHart id r.1))
        else
          match r.1.entry? .matrix e.slot with
          | none => none
          | some e' =>
            match s.mtxFault id r.1 e' with
            | some c => some (s.setHart id (r.1.faultEntry .matrix e' c (w64 e'.word) 0))
            | none =>
              match tallocTile e'.op with
              | some t => (s.setHart id r.1).tallocMove id r.1 e' t
              | none => some ((s.setHart id r.1).mtxRun id r.1 e')

/-- The harts of a core whose matrix queue can move, of the highest level that has one, ascending (R96). -/
def State.mtxReady (s : State) (core : Nat) : List (Nat × Nat) :=
  let l := (s.harts.filter fun p => coreOf p.1 == core && (s.mtxMove p.1).isSome).map fun p => (p.1, p.2.prio)
  sortBy (fun a b => decide (a.1 ≤ b.1)) (l.filter fun a => l.all fun b => decide (b.2 ≤ a.2))

/-- The matrix engine of a core has served a hart. -/
def State.mtxServed (s : State) (id prio : Nat) : State :=
  let c := s.core (coreOf id)
  s.setCore (coreOf id) { c with mtxTurns := put c.mtxTurns prio id }

/-- The matrix engine of a core takes one instruction: strict priority between levels, round robin within one (R96). -/
def State.mtxServe (s : State) (core : Nat) : Option State :=
  match s.mtxReady core with
  | [] => none
  | a :: l =>
    (nextAfter (find? (s.core core).mtxTurns a.2) ((a :: l).map Prod.fst)).bind fun id =>
      (s.mtxMove id).map fun t => t.mtxServed id a.2

/-- No other hart of the core has matrix work. -/
def State.aloneM (s : State) (id : Nat) : Bool :=
  s.harts.all fun p => coreOf p.1 != coreOf id || p.1 == id || p.2.mq.isEmpty

/-- An eager machine moves a matrix instruction that is dispatched to an empty queue (log 3). -/
def State.mtxEager (s : State) (id : Nat) : State :=
  match s.hart? id with
  | some h =>
    if s.eager && s.aloneM id && h.mq.length == 1 then ((s.mtxMove id).map fun t => t.mtxServed id h.prio).getD s else s
  | none => s

/-! ### Dispatch (R16, R50, R264) -/

/-- A matrix word: VILL under TILL where `shape` says that it matters, the further checks `ok`, then its dispatch. -/
def mtxExec (tk : Nat) (op : Instr) (shape : Bool) (ok : Hart → Bool) (s : State) : Out :=
  onHart s fun id h =>
    if shape && (TS.of h.tshape).till then trapAt s id h .vill (w64 (encode op))
    else if !ok h then trapAt s id h .illins (w64 (encode op))
    else if h.full .matrix then .next s
    else
      let e := h.newEntry (h.nextSlot .matrix) op tk 0 0 0
      .next ((s.setHart id (h.dispatched.pushM e)).mtxEager id)

/-- A v-register field below the register count (R40). -/
def vok (h : Hart) (a : Nat) : Bool := decide (a < nregOf h.vcfg)

/-- The operands of OPA and OPAS (R40, R264). -/
def outerOk (a b : Nat) (h : Hart) : Bool :=
  vok h a && b % 8 == 0 && vok h (b + 7) && ((TS.of h.tshape).blk == 0 || vok h (a + 1))

/-- The operand of TRD and TWR (R40, R264). -/
def tileRegOk (a : Nat) (h : Hart) : Bool := vok h a && !(VT.of h.vtype).vill

def execOpa (x : XHdr) (t a b : Nat) (s : State) : Out := mtxExec x.tk (.opa x t a b) true (outerOk a b) s
def execOpas (x : XHdr) (t a b : Nat) (s : State) : Out := mtxExec x.tk (.opas x t a b) true (outerOk a b) s
def execTzero (x : XHdr) (t : Nat) (s : State) : Out := mtxExec x.tk (.tzero x t) false (fun _ => true) s

/-- TRD; under SR it captures and advances SRCTR (R207, R268). -/
def execTrd (x : XHdr) (t a b : Nat) (s : State) : Out :=
  onHart s fun id h =>
    if (TS.of h.tshape).till then trapAt s id h .vill (w64 (encode (.trd x t a b)))
    else if !tileRegOk a h then trapAt s id h .illins (w64 (encode (.trd x t a b)))
    else if h.full .matrix then .next s
    else
      let e := h.newEntry (h.nextSlot .matrix) (.trd x t a b) x.tk 0 0 0
      let h1 := if (VT.of h.vtype).rm = 5 then { h with srctr := (h.srctr + 1) % 2 ^ 32 } else h
      .next ((s.setHart id (h1.dispatched.pushM e)).mtxEager id)

def execTwr (x : XHdr) (t a b : Nat) (s : State) : Out := mtxExec x.tk (.twr x t a b) true (tileRegOk a) s
def execTshift (x : XHdr) (t k : Nat) (s : State) : Out := mtxExec x.tk (.tshift x t k) true (fun _ => true) s
def execTmerge (x : XHdr) (t a : Nat) (s : State) : Out := mtxExec x.tk (.tmerge x t a) true (fun _ => decide (a < 4)) s
def execTmergeAtt (x : XHdr) (t a : Nat) (s : State) : Out :=
  mtxExec x.tk (.tmergeAtt x t a) true (fun _ => decide (a < 4)) s
def execTflags (x : XHdr) (t : Nat) (s : State) : Out := mtxExec x.tk (.tflags x t) false (fun _ => true) s
def execTalloc (x : XHdr) (t : Nat) (s : State) : Out := mtxExec x.tk (.talloc x t) false (fun _ => true) s
def execTfree (x : XHdr) (t : Nat) (s : State) : Out := mtxExec x.tk (.tfree x t) false (fun _ => true) s

end Sys2Proof.Machine
end

