-- ==== Sys2Proof/Machine/Transfer.lean ====
section
/-! DEFINITION. The memory side of a stream: layouts (R306), bursts (R303), and the reading and writing of elements. -/

namespace Sys2Proof.Machine

/-! ### The memory side of a transfer (R306, R312, R315, R316) -/

/-- The memory side of a transfer: base, layout (3: the tokens `toks` of `tokw` elements each), element width, element
count, and the planes that are moved. -/
structure Side where
  base : Nat
  lay : Nat
  w : Nat
  N : Nat
  p : Nat
  toks : List Nat
  tokw : Nat
  deriving DecidableEq, Repr

/-- Bits of a plane of a bit-sliced array. -/
def Side.planeBits (d : Side) : Nat := 256 * ceilDiv d.N 256

/-- Bit address of bit j of element e. -/
def Side.bitAddr (d : Side) (e j : Nat) : Nat :=
  match d.lay with
  | 0 => 8 * d.base + e * d.w + j
  | 1 => 8 * d.base + 256 * (d.w * (e / 256) + j) + e % 256
  | 2 => 8 * d.base + (d.w - 1 - j) * d.planeBits + e
  | _ => 8 * (d.toks[e / d.tokw]?).getD 0 + e % d.tokw * d.w + j

/-- The element and bit at a bit address of a row, transposed or sliced array. -/
def Side.elemAt (d : Side) (b : Nat) : Nat × Nat :=
  let o := b - 8 * d.base
  match d.lay with
  | 0 => (o / d.w, o % d.w)
  | 1 => (256 * (o / 256 / d.w) + o % 256, o / 256 % d.w)
  | _ => (o % d.planeBits, d.w - 1 - o / d.planeBits)

/-- The bytes spanned (R306). -/
def Side.bytes (d : Side) : Nat :=
  match d.lay with
  | 0 => ceilDiv (d.N * d.w) 8
  | 1 => ceilDiv d.N 256 * d.w * 32
  | _ => ceilDiv d.N 256 * d.p * 32

/-- The lowest byte, and the byte after the highest. -/
def Side.range (d : Side) : Option (Nat × Nat) :=
  if d.N = 0 then none
  else if d.lay = 3 then
    let ends := d.toks.zipIdx.map fun t =>
      (t.1, t.1 + ceilDiv (min d.tokw (d.N - t.2 * d.tokw) * d.w) 8)
    match ends with
    | [] => none
    | a :: l => some (l.foldl (fun r x => (min r.1 x.1, max r.2 x.2)) a)
  else some (d.base, d.base + d.bytes)

/-- A run of bytes to move, from lo to below hi: when its bytes below x are moved, the elements below
min fin (o + 8 (x - z) / d) are complete; with d = 0 they are those below o until all of it is moved, and then those
below fin. -/
structure Run where
  lo : Nat
  hi : Nat
  o : Nat
  z : Nat
  d : Nat
  fin : Nat
  deriving DecidableEq, Repr

/-- Elements complete when the bytes of a run below x are moved. -/
def Run.upto (r : Run) (x : Nat) : Nat :=
  if r.d = 0 then (if r.hi ≤ x then r.fin else r.o) else min r.fin (r.o + 8 * (x - r.z) / r.d)

/-- The runs that hold elements s to t - 1, in the order in which they are moved. -/
def Side.runs (d : Side) (s t : Nat) : List Run :=
  if t ≤ s then []
  else
    match d.lay with
    | 0 => [{ lo := d.base + s * d.w / 8, hi := d.base + ceilDiv (t * d.w) 8, o := 0, z := d.base, d := d.w, fin := t }]
    | 1 =>
      (span (s / 256) ((t - 1) / 256 - s / 256 + 1)).flatMap fun k =>
        let at_ := d.base + k * d.w * 32
        if 256 * (k + 1) ≤ t then
          [{ lo := at_, hi := at_ + d.w * 32, o := max s (256 * k), z := 0, d := 0, fin := 256 * (k + 1) }]
        else
          (List.range d.w).map fun j =>
            { lo := at_ + 32 * j, hi := at_ + 32 * j + ceilDiv (t - 256 * k) 8, o := max s (256 * k), z := 0, d := 0,
              fin := if j + 1 = d.w then t else max s (256 * k) }
    | 2 =>
      (List.range d.p).map fun k =>
        let at_ := d.base + k * (d.planeBits / 8)
        if k + 1 = d.p then
          { lo := at_ + s / 8, hi := at_ + ceilDiv t 8, o := 0, z := at_, d := 1, fin := t }
        else { lo := at_ + s / 8, hi := at_ + ceilDiv t 8, o := s, z := 0, d := 0, fin := s }
    | _ =>
      (span (s / d.tokw) ((t - 1) / d.tokw - s / d.tokw + 1)).map fun i =>
        let a := max s (i * d.tokw) - i * d.tokw
        let b := min t ((i + 1) * d.tokw) - i * d.tokw
        let at_ := (d.toks[i]?).getD 0
        { lo := at_ + a * d.w / 8, hi := at_ + ceilDiv (b * d.w) 8, o := i * d.tokw, z := at_, d := d.w,
          fin := i * d.tokw + b }

/-- A burst: its address, its bytes, and the elements that are complete when it is done (R303). -/
structure Burst where
  va : Nat
  n : Nat
  upto : Nat
  deriving DecidableEq, Repr

/-- The bursts of a run: at most 4 KiB each, within one page. -/
def Run.cut (r : Run) : (fuel x : Nat) → List Burst
  | 0, _ => []
  | k + 1, x =>
    if r.hi ≤ x then []
    else
      let n := min (r.hi - x) (min 4096 (65536 - x % 65536))
      { va := x % 2 ^ 64, n := n, upto := r.upto (x + n) } :: r.cut k (x + n)

/-- The lowest byte of the transfer on a 64 KiB page (R305). -/
def Side.pageLow (d : Side) (page : Nat) : Nat :=
  let lo := page * 65536
  if d.lay = 3 then
    let starts := d.toks.zipIdx.filterMap fun t =>
      let hi := t.1 + ceilDiv (min d.tokw (d.N - t.2 * d.tokw) * d.w) 8
      if t.1 < lo + 65536 ∧ lo < hi then some (max t.1 lo) else none
    starts.min?.getD lo
  else max d.base lo

/-- The bursts that move elements s to t - 1. -/
def Side.bursts (d : Side) (s t : Nat) : List Burst :=
  (d.runs s t).flatMap fun r => r.cut ((r.hi - r.lo) / 4096 + 2 + (r.hi - r.lo) / 65536) r.lo

/-- Cycles for which a burst occupies an engine (R303). -/
def Side.cycles (d : Side) (b : Burst) : Nat := if d.lay = 0 ∨ d.lay = 3 then ceilDiv b.n 64 else ceilDiv b.n 128

/-! ### Access to memory -/

/-- A master of stream accesses: hart, queue slot, and who translates. -/
structure Port1 where
  id : Nat
  slot : Nat
  c : Who1
  ctx : Nat
  deriving DecidableEq, Repr

/-- A held access of a stream. -/
def Port1.hw (p : Port1) (va : Nat) (f : Finish) : HeldWrite := heldOf (.engine p.id .stream p.slot) p.ctx va false f

/-- The Weir holds an access of the stream. -/
def State.portHeld (s : State) (p : Port1) : Bool :=
  s.dies.any fun x => x.2.held.any fun w => w.master == .engine p.id .stream p.slot

/-- The probe of a page that a burst is about to touch, from the transfer's lowest byte there, `lo`, on (R305): a page that
is not translated in the stream TLB is walked again, and a device-class page fails. A page whose walk waits does not fail
(R407). -/
def State.probePage (s : State) (p : Port1) (lo : Nat) (k : AKind) : Option (Cause × Nat) :=
  let a : Acc1 := { e := 0, va := lo, n := 1, k := k, al := 1 }
  if s.walkAway p.c lo 1 then none
  else
    match s.probe1 p.c a with
    | some f => some f
    | none => (s.onDevice p.c a).map fun u => (k.fault, u)

/-- The probe of a burst of a transfer. -/
def State.probeBurst (s : State) (p : Port1) (d : Side) (b : Burst) (k : AKind) : Option (Cause × Nat) :=
  s.probePage p (d.pageLow (b.va / 65536)) k

/-- The bytes of a burst (R135): none while it waits. -/
def State.readBurst (s : State) (p : Port1) (b : Burst) : State × Option (List Byte) :=
  if s.portHeld p || s.walkAway p.c b.va b.n || s.awayFrom p.id p.c b.va b.n then (s, none)
  else
    let r := (s.pieces p.c b.va b.n).foldl (fun (r : State × Option (List Byte)) x =>
      match r.2 with
      | none => r
      | some bs =>
        let q := r.1.readBytes p.id x.2.1 x.2.2 (p.hw x.1 .again)
        (q.1, q.2.map fun l => bs ++ l)) (s, some [])
    (r.1.tlbFillAll p.c b.va b.n, r.2)

/-- A bit of what was read. -/
def imageBit (l : List (Nat × Nat × Nat)) (b : Nat) : Bool :=
  match l.find? fun x => decide (8 * x.1 ≤ b) && decide (b < 8 * (x.1 + x.2.1)) with
  | some x => x.2.2.testBit (b - 8 * x.1)
  | none => false

/-- Element e from what was read; planes that are not moved are 0 (R312). -/
def Side.elem (d : Side) (l : List (Nat × Nat × Nat)) (e : Nat) : Nat :=
  natOfBits ((List.range d.w).map fun j => decide (d.w ≤ j + d.p) && imageBit l (d.bitAddr e j))

/-- What the elements s to t - 1 put into the byte at an address, and the bits of it that they write. -/
def Side.byteOf (d : Side) (s t : Nat) (f : Nat → Nat) (va : Nat) : Byte × Byte :=
  let at_ : Nat → Nat × Nat := fun i => d.elemAt (8 * va + i)
  let mine : Nat → Bool := fun i => decide (s ≤ (at_ i).1) && decide ((at_ i).1 < t) && decide ((at_ i).2 < d.w)
  (BitVec.ofNat 8 (natOfBits ((List.range 8).map fun i => mine i && (f (at_ i).1).testBit (at_ i).2)),
   BitVec.ofNat 8 (natOfBits ((List.range 8).map mine)))

/-- The elements s to t - 1 of a burst written (R312): false while it waits. `k` is the number of bursts and `n` the progress
when it is done. -/
def State.writeBurst (s : State) (p : Port1) (d : Side) (s0 t : Nat) (f : Nat → Nat) (b : Burst) (k n : Nat) :
    State × Bool :=
  if s.portHeld p || s.walkAway p.c b.va b.n || s.awayFrom p.id p.c b.va b.n then (s, false)
  else
    let l := s.byteWrites p.c b.va ((span b.va b.n).map (d.byteOf s0 t f))
    let r := if l.all fun w => w.mask == 255 || !w.whole false then (s, some []) else s.readBurst p b
    match r.2 with
    | none => (r.1, false)
    | some old =>
      let full := l.zipIdx.map fun w =>
        if w.1.mask == 255 || !w.1.whole false then w.1
        else { w.1 with val := ((old[w.2]?).getD 0 &&& ~~~w.1.mask) ||| w.1.val, mask := 255 }
      let w := r.1.place p.id full false (p.hw b.va (.burst k n))
      (w.1.tlbFillAll p.c b.va b.n, w.2)

end Sys2Proof.Machine
end

