-- ==== Sys2Proof/Machine/Stream.lean ====
section
/-! DEFINITION. The station stream engines: issue (R302, R309, R310, R324), bursts (R303, R304, R312 to R317, R325), SSEND
(R320 to R322), SUNBIND (R319), and the scalar forms (R323). -/

namespace Sys2Proof.Machine

/-! ### Parameters of an instruction -/

/-- The stream forms, as issue and bursts tell them apart. -/
inductive Form where
  | load | store | copy | plane | gang | indirect | pattern | bound | unbind | send
  deriving DecidableEq, Repr

/-- The form of a word of the stream queue, and its code in the slot status (R307, R323). -/
def streamForm (i : Instr) : Option (Form × Nat) :=
  match i with
  | .sld _ _ _ _ _ => some (.load, 0)
  | .sst _ _ _ _ _ => some (.store, 1)
  | .scpy _ _ _ _ _ => some (.copy, 2)
  | .spln _ _ _ _ _ => some (.plane, 3)
  | .sldG _ _ _ _ _ => some (.gang, 4)
  | .sind _ _ _ _ _ => some (.indirect, 5)
  | .spat _ _ _ _ => some (.pattern, 6)
  | .sbind _ _ _ _ _ => some (.bound, 7)
  | .sunbind _ _ => some (.unbind, 8)
  | .ssend _ _ _ _ _ => some (.send, 9)
  | _ => none

/-- The v-register that a word names. -/
def streamReg (i : Instr) : Option Nat :=
  match i with
  | .sld _ _ d _ _ => some d
  | .sst _ _ d _ _ => some d
  | .spln _ _ d _ _ => some d
  | .sldG _ _ d _ _ => some d
  | .sind _ _ d _ _ => some d
  | .spat _ _ d _ => some d
  | .sbind _ _ d _ _ => some d
  | _ => none

def Entry.form (e : Entry) : Form := ((streamForm e.op).map Prod.fst).getD .unbind

/-- The port of an entry. -/
def Entry.port (e : Entry) (id : Nat) (h : Hart) : Port1 :=
  { id := id, slot := e.slot, c := { e.who id h with port := .stream, xl := [] }, ctx := h.ctx }

/-- LAYOUT of the translation of an address (R306); row when it has none, since its burst then fails its probe. -/
def State.layoutAt (s : State) (c : Who1) (va : Nat) : Nat :=
  match s.xlat c va with
  | some x => pteLayout x.pte
  | none => 0

/-- Planes that an SPLN moves (R312). -/
def splnPlanes (gb : W64) (w : Nat) : Nat := if bits gb.toNat 32 6 = 0 then w else min (bits gb.toNat 32 6) w

/-- A memory side of N elements under a captured VTYPE. -/
def sideOf (vtype : W64) (base lay N : Nat) : Side :=
  let w := (VT.of vtype).wd
  { base := base, lay := lay, w := w, N := N, p := w, toks := [], tokw := 1 }

/-- The memory side of a started transfer: `part.bits` holds its layout, `part.cnt` its count for a list of tokens.
SCPY: the source. -/
def Entry.side (e : Entry) : Side :=
  let w := (VT.of e.vtype).wd
  match e.form with
  | .plane => { sideOf e.vtype e.ga.toNat 2 (streamCount e) with p := splnPlanes e.gb w }
  | .indirect => { sideOf e.vtype 0 3 e.eff with toks := e.res2.map Prod.snd, tokw := e.part.bits }
  | .pattern => { sideOf e.vtype 0 3 e.eff with toks := e.res2.map Prod.snd, tokw := e.part.bits }
  | .copy => sideOf e.vtype e.ga.toNat (e.part.bits % 4) (streamCount e)
  | _ => sideOf e.vtype e.ga.toNat e.part.bits (streamCount e)

/-- The destination of an SCPY. -/
def Entry.dest (e : Entry) : Side := sideOf e.vtype e.gd.toNat (e.part.bits / 4) (streamCount e)

/-! ### Blocks and records read at issue (R309, R315, R316, R320) -/

/-- n dwords at an 8-aligned address: a failure, in device-class memory too (R305), or the values; none while it waits. -/
def State.readBlock (s : State) (p : Port1) (va n : Nat) : State × Option (Except (Cause × Nat) (List Nat)) :=
  let a : Acc1 := { e := 0, va := va, n := 8 * n, k := .r, al := 8 }
  if s.walkAway p.c va (8 * n) then (s, none)
  else
  match (s.probe1 p.c a).orElse fun _ => (s.onDevice p.c a).map fun u => (.pgfltR, u) with
  | some f => (s, some (.error f))
  | none =>
    let r := s.readBurst p { va := va, n := 8 * n, upto := 0 }
    (r.1, r.2.map fun bs => .ok ((List.range n).map fun i => ofBytes ((bs.drop (8 * i)).take 8)))

/-- A range waits for the interlock table, or for an older VMU access that overlaps it (R25, R138). -/
def Hart.rangeWaits (h : Hart) (seq : Nat) (r : Nat × Nat × Bool) : Bool :=
  h.ilkHit seq r.1 r.2.1 r.2.2 [] ||
  h.vq.any fun v => decide (v.e.seq < seq) && (match v.e.vmuSpan with
    | some x => meets r.1 r.2.1 x.1 x.2
    | none => false)

/-- What a check at issue comes to: it waits, fails with a cause and TRAPVAL, or gives a value. -/
inductive Chk (α : Type) where
  | wait (s : State)
  | fail (s : State) (c : Cause) (val : W64)
  | ok (s : State) (x : α)

/-- Entries of a block table, one by one. -/
def State.readTable (s : State) (p : Port1) (table : Nat) : List Nat → Chk (List Nat)
  | [] => .ok s []
  | i :: l =>
    let r := s.readBlock p ((table + 8 * i) % 2 ^ 64) 1
    match r.2 with
    | none => .wait r.1
    | some (.error f) => .fail r.1 f.1 (w64 f.2)
    | some (.ok ws) =>
      match State.readTable r.1 p table l with
      | .ok s' t => .ok s' (ws.getD 0 0 :: t)
      | x => x

/-- The tokens of an SIND (R315): token addresses, TOKW and N. -/
def State.sindTokens (s : State) (id : Nat) (h : Hart) (e : Entry) : Chk (List Nat × Nat × Nat) :=
  let p := e.port id h
  let va := e.ga.toNat
  let r := s.readBlock p va 8
  match r.2 with
  | none => .wait r.1
  | some (.error f) => .fail r.1 f.1 (w64 f.2)
  | some (.ok ws) =>
    let w : Nat → Nat := fun i => ws.getD i 0
    let btok := bits (w 3) 0 32
    let tokw := bits (w 3) 32 16
    let bad := bits (w 3) 56 8 != 0 || w 5 != 0 || w 6 != 0 || w 7 != 0 || w 0 % 8 != 0 || btok == 0 ||
      decide (65536 < btok) || tokw == 0 || decide (4096 < tokw) || bits (w 3) 48 8 != (VT.of e.vtype).kind
    if bad then .fail r.1 .illins (w64 va)
    else
      let first := bits (w 4) 0 32
      let N := min (bits (w 4) 32 32 * tokw) e.vl
      let n := ceilDiv N tokw
      if n = 0 then .ok r.1 ([], tokw, 0)
      else
        let b0 := first / btok
        let k := (first + n - 1) / btok - b0 + 1
        if h.rangeWaits e.seq (w 0 + 8 * b0, w 0 + 8 * (b0 + k), false) then .wait r.1
        else
        match r.1.readTable p (w 0) (span b0 k) with
        | .wait s' => .wait s'
        | .fail s' c v => .fail s' c v
        | .ok s' t =>
          let head := lowBits e.gb 16
          .ok s' ((List.range n).map fun i =>
            ((t.getD ((first + i) / btok - b0) 0) + head * w 2 + (first + i) % btok * w 1) % 2 ^ 64, tokw, N)

/-- The token numbers that a pattern selects, from t on, ascending, at most `n` of them (R316). -/
def patternFrom (win stride c : Nat) (glob : List Nat) : (fuel t n : Nat) → List Nat
  | 0, _, _ => []
  | k + 1, t, n =>
    if n = 0 ∨ c < t then []
    else if c < t + win ∨ (stride ≠ 0 ∧ t % stride = 0) ∨ glob.contains t then
      t :: patternFrom win stride c glob k (t + 1) (n - 1)
    else
      let gs := glob.filter fun x => decide (t < x) && decide (x ≤ c)
      let m := (if stride = 0 then c + 1 else (t / stride + 1) * stride)
      let next := gs.foldl min (min m (max (t + 1) (c + 1 - win)))
      patternFrom win stride c glob k next n

/-- The tokens of an SPAT (R316). -/
def State.spatTokens (s : State) (id : Nat) (h : Hart) (e : Entry) : Chk (List Nat × Nat × Nat) :=
  let va := e.ga.toNat
  let r := s.readBlock (e.port id h) va 8
  match r.2 with
  | none => .wait r.1
  | some (.error f) => .fail r.1 f.1 (w64 f.2)
  | some (.ok ws) =>
    let w : Nat → Nat := fun i => ws.getD i 0
    let tokw := bits (w 2) 0 32
    let nglob := bits (w 4) 0 32
    if tokw == 0 || decide (4096 < tokw) || decide (7 < nglob) then .fail r.1 .illins (w64 va)
    else
      let c := bits (w 2) 32 32
      let glob := (List.range nglob).map fun i => bits (w (4 + (i + 1) / 2)) (32 * ((i + 1) % 2)) 32
      let n := ceilDiv e.vl tokw
      let ts := patternFrom (bits (w 3) 0 32) (bits (w 3) 32 32) c glob (2 * n + 16) 0 n
      .ok r.1 (ts.map fun t => (w 0 + t * w 1) % 2 ^ 64, tokw, min (ts.length * tokw) e.vl)

/-- The fields of a send descriptor (R320): DST, BARW, INC, TGEN, TCTX. -/
def State.sendDesc (s : State) (id : Nat) (h : Hart) (e : Entry) : Chk (List Nat) :=
  let va := e.ga.toNat
  let r := s.readBlock (e.port id h) va 4
  match r.2 with
  | none => .wait r.1
  | some (.error f) => .fail r.1 f.1 (w64 f.2)
  | some (.ok ws) =>
    let w : Nat → Nat := fun i => ws.getD i 0
    if bits (w 3) 38 26 != 0 || w 1 % 8 != 0 then .fail r.1 .illins (w64 va)
    else .ok r.1 [w 0, w 1, w 2, bits (w 3) 0 32, bits (w 3) 32 6]

/-- What issue reads and fixes for a transfer: its layouts, tokens or descriptor. -/
def State.issueParams (s : State) (id : Nat) (h : Hart) (e : Entry) : Chk Entry :=
  let c := (e.port id h).c
  let lay : Entry → Nat → Entry := fun e l => { e with part := { e.part with bits := l } }
  if s.walkAway c e.ga.toNat 1 || (e.form == .copy && s.walkAway c e.gd.toNat 1) then .wait s
  else
  match e.form with
  | .indirect =>
    match s.sindTokens id h e with
    | .wait s' => .wait s'
    | .fail s' k v => .fail s' k v
    | .ok s' t => .ok s' { lay e t.2.1 with res2 := t.1.zipIdx.map fun x => (x.2, x.1), eff := t.2.2 }
  | .pattern =>
    match s.spatTokens id h e with
    | .wait s' => .wait s'
    | .fail s' k v => .fail s' k v
    | .ok s' t => .ok s' { lay e t.2.1 with res2 := t.1.zipIdx.map fun x => (x.2, x.1), eff := t.2.2 }
  | .send =>
    match s.sendDesc id h e with
    | .wait s' => .wait s'
    | .fail s' k v => .fail s' k v
    | .ok s' t => .ok s' { e with res2 := t.zipIdx.map fun x => (x.2, x.1) }
  | .copy => .ok s (lay e (s.layoutAt c e.ga.toNat + 4 * s.layoutAt c e.gd.toNat))
  | .plane => .ok s (lay e 2)
  | _ => .ok s (lay e (s.layoutAt c e.ga.toNat))

/-! ### Ranges and waits at issue (R24, R25, R138, R324) -/

/-- The byte ranges of a transfer: lowest byte, byte after the highest, and whether it writes. -/
def Entry.ranges (e : Entry) : List (Nat × Nat × Bool) :=
  let one : Side → Bool → List (Nat × Nat × Bool) := fun d wr => (d.range.toList).map fun r => (r.1, r.2, wr)
  match e.form with
  | .store => one e.side true
  | .copy => one e.side false ++ one e.dest true
  | .send => if streamCount e = 0 then [] else [(e.gd.toNat, e.gd.toNat + streamCount e, false)]
  | .unbind => []
  | _ => one e.side false

/-- An indexed access that has not issued may meet ranges (R138): when its index register is not final, every range with
which a write would be shared. -/
def VmuOp.mayMeet (o : VmuOp) (h : Hart) (e : Entry) (rs : List (Nat × Nat × Bool)) : Bool :=
  if o.probeWaits h e then rs.any fun r => r.2.2 || o.dir != .load
  else
    match o.range (o.env h e) with
    | some x => rs.any fun r => meets r.1 r.2.1 x.1 x.2
    | none => false

/-- A stream waits for older VMU instructions: a vector acquire (R141), or an indexed access that has not issued (R138); while
the vector queue waits for a token, only for one that its ranges may meet (log 3). -/
def Hart.vmuFirst (h : Hart) (seq : Nat) (rs : List (Nat × Nat × Bool)) : Bool :=
  let older := h.vq.filter fun v => decide (v.e.seq < seq)
  let waits := older.any fun v => v.e.pops && !v.e.popped
  older.any fun v => match vmuOp v.e.op with
    | some o => (o.scope.isSome && o.dir == .load) ||
        (o.addr == .indexed && !v.e.started && (!waits || o.mayMeet h v.e rs))
    | none => false

/-- The register interlock (R310). -/
def Hart.regWaits (h : Hart) (e : Entry) : Bool :=
  let r := h.strmRegs e
  h.vecBefore e.seq r || h.mtxBefore e.seq r

/-! ### Checks at issue (R309, R248, R314, R321) -/

/-- The base of a transposed or sliced array is not a multiple of 32 (R306). -/
def Side.misaligned (d : Side) : Bool := (d.lay == 1 || d.lay == 2) && d.base % 32 != 0

/-- The lowest byte of a buffered line that a range overlaps (R250). -/
def Hart.stripOverlap (h : Hart) (rs : List (Nat × Nat × Bool)) : Option Nat :=
  h.strip.bind fun t =>
    let hits := (bufLines t.buf).reverse.flatMap fun l =>
      (rs.filter fun r => meets r.1 r.2.1 (64 * l) (64 * l + 64)).map fun r => max r.1 (64 * l)
    hits.min?

/-- The checks that need no memory (R309): VTYPE.VILL, and a register bound in another slot. -/
def Hart.streamIll (h : Hart) (e : Entry) : Bool :=
  let t := VT.of e.vtype
  (e.form != .send && t.vill) || (streamReg e.op).any fun d => h.boundFor e.seq [(d, t.g)]

/-- A failing check of the forms, with its cause and TRAPVAL. -/
def Hart.streamCheck (h : Hart) (e : Entry) : Option (Cause × W64) :=
  let t := VT.of e.vtype
  let word := w64 e.word
  let reg := streamReg e.op
  let sides := match e.form with
    | .copy => [e.side, e.dest]
    | .indirect => []
    | .pattern => []
    | .send => []
    | .unbind => []
    | _ => [e.side]
  if h.streamIll e then some (.illins, word)
  else
    match sides.find? Side.misaligned with
    | some d => some (.align, w64 d.base)
    | none =>
      if e.form == .store && !kindInt t.kind && (reg.any fun d => badTag h d t.wd) then some (.illwidth, word)
      else if e.form == .copy && (match e.side.range, e.dest.range with
          | some x, some y => meets x.1 x.2 y.1 y.2
          | _, _ => false) then some (.illins, word)
      else (h.stripOverlap e.ranges).map fun va => (.stripfull, stripFullVal 1 va)

/-! ### Issue (R302, R309) -/

/-- The oldest instruction of the stream queue that has not issued, or must issue again (R325). -/
def Hart.toIssue (h : Hart) : Option Entry := h.sq.find? fun e => !e.started || e.part.seen

/-- SBIND retires at issue (R317) and in dispatch order (R18), so it issues at the head of its queue (log 43). -/
def Hart.bindEarly (h : Hart) (e : Entry) : Bool := e.form == .bound && h.sq.head?.map (fun x => x.seq) != some e.seq

/-- The slot it needs is held by another transfer (R302). -/
def Hart.slotBusy (h : Hart) (e : Entry) : Bool :=
  match (h.slot (slotOf e.op)).holder with
  | some k => k != e.seq
  | none => false

/-- The stream's destination before its elements land (R192, R310): under the captured VTYPE, tagged (w, w, S). -/
def Hart.tagStream (h : Hart) (d vl seed : Nat) (vtype : W64) : Hart :=
  let t := VT.of vtype
  if vl = 0 then h
  else
    let h1 := writeRow h seed d t.g t.wd (kindInt t.kind) (kindSigned t.kind) vl [] []
    { h1 with v := mapRegs h1.v d t.g fun _ r => { r with tag := some { w := t.wd, p := t.wd, sgn := kindSigned t.kind } } }

/-- The interlock entries of a transfer (R324). -/
def Entry.ilks (e : Entry) : List Ilk := e.ranges.map fun r => ilkOf e.seq r.1 r.2.1 (!r.2.2) r.2.2

/-- The elements that a transfer moves (R312, R315, R316). -/
def Entry.count (e : Entry) : Nat :=
  match e.form with
  | .indirect => e.eff
  | .pattern => e.eff
  | _ => streamCount e

/-- The slot when a transfer issues (R304): its counters begin at ESTART. -/
def Slot.take (t : Slot) (e : Entry) : Slot :=
  { t with holder := some e.seq, stopped := false, fn := ((streamForm e.op).map Prod.snd).getD 0, n := e.count,
           restart := e.progress, progress := e.progress, ea := e.progress }

/-- Change the binding of an SBIND. -/
def Hart.modBind (h : Hart) (seq : Nat) (f : Binding → Binding) : Hart :=
  { h with binds := h.binds.map fun (x : Nat × Binding) => if x.1 = seq then (x.1, f x.2) else x }

/-- SBIND leaves the queue at issue (R317): its binding holds the slot and the interlock entry. -/
def Hart.bindIssued (h : Hart) (e : Entry) : Hart :=
  let b : Binding → Binding := fun b => { b with issued := true, layout := e.part.bits }
  let h2 := (h.modBind e.seq b).retire .stream e
  let h3 := h2.setSlot (slotOf e.op) { (h2.slot (slotOf e.op)) with bind := some e.seq }
  { h3 with ilk := h.ilk }

/-- A user hart that sends to another context is frozen at issue (R321). -/
def Entry.foreignSend (h : Hart) (e : Entry) : Bool :=
  e.form == .send && !e.sup && getD e.res2 4 0 != h.ctx

/-- The stream freezes (R182). -/
def State.freezeEntry (s : State) (id : Nat) (h : Hart) (e : Entry) (reason : Nat) : State :=
  s.freezeEngine id h .stream e.slot reason

/-- A transfer starts: its slot and its interlock entries are taken, its checks passed. -/
def State.streamStart (s : State) (id : Nat) (h : Hart) (e : Entry) : State :=
  let q := slotOf e.op
  let again := e.started
  let e' := { e with started := true, part := { e.part with seen := false, cnt := 0 } }
  let h2 := (h.modEntry .stream e.slot fun _ => e').setSlot q { h.slot q with n := e.count }
  let s1 := s.setHart id h2
  match e.form with
  | .bound => s1.setHart id (h2.bindIssued e')
  | .send => if e.foreignSend h then s1.freezeEntry id h2 e' 0x11 else s1
  | .store => s1
  | .copy => s1
  | .gang =>
    let joins := h.gang.isSome && !(again && e.eff != 0)
    let e2 := if joins then { e' with eff := 0, part := { e'.part with acc := h.mcast } } else { e' with eff := 1 }
    let h3 := h2.modEntry .stream e.slot fun _ => e2
    let h4 := if joins then { h3 with mcast := h.mcast + 1 } else h3
    if again then s1.setHart id h4
    else (s1.setHart id (h4.tagStream ((streamReg e.op).getD 0) e.vl s.fresh e.vtype)).bump 40
  | _ =>
    if again then s1
    else (s1.setHart id (h2.tagStream ((streamReg e.op).getD 0) e.vl s.fresh e.vtype)).bump 40

/-- SUNBIND (R319), at the head of the stream queue once every consumer has retired. -/
def State.unbindMove (s : State) (id : Nat) (h : Hart) (e : Entry) : Option State :=
  if h.sq.head? != some e || h.regWaits e then none
  else
    match e.pos.head? with
    | none => some (s.setHart id (h.retire .stream e))
    | some p =>
      match find? h.binds p.1 with
      | none => some (s.setHart id (h.retire .stream e))
      | some b =>
        let h1 := { h with binds := erase h.binds p.1, ilk := h.ilk.filter fun k => k.seq != p.1,
                           v := mapRegs h.v b.vd b.grp fun j _ => VReg.undef (s.fresh + j) }
        let t := h1.slot b.q
        some ((s.setHart id ((h1.setSlot b.q { t with holder := none, bind := none }).retire .stream e)).bump 40)

/-- What issue reads before it knows a transfer's ranges (R309). -/
def Entry.blocks (e : Entry) : List (Nat × Nat × Bool) :=
  let one : Nat → List (Nat × Nat × Bool) := fun n => [(e.ga.toNat, e.ga.toNat + n, false)]
  match e.form with
  | .indirect => one 64
  | .pattern => one 64
  | .send => one 32
  | _ => []

/-- A failing check stops the transfer once the registers are free (R309, R310). -/
def State.issueFails (s : State) (id : Nat) (e : Entry) (c : Cause) (v : W64) : Option State :=
  match s.hart? id with
  | some h => if h.regWaits e then none else some (s.setHart id (h.streamFault e c v))
  | none => none

/-- The parameters of a transfer, read once at issue (R309). -/
def State.streamParams (s : State) (id : Nat) (h : Hart) (e : Entry) : Chk Entry :=
  if e.probed then .ok s e
  else if (e.blocks.any fun r => h.rangeWaits e.seq r) || h.vmuFirst e.seq e.blocks then .wait s
  else
    match s.issueParams id h e with
    | .ok s' e' => .ok s' { e' with probed := true }
    | x => x

/-- Steps 3 to 5 of R309, for a transfer that holds its slot: none while it waits. -/
def State.streamGo (s : State) (id : Nat) (h : Hart) (e : Entry) : Option State :=
  if s.portHeld (e.port id h) then none
  else if h.streamIll e then s.issueFails id e .illins (w64 e.word)
  else
    match s.streamParams id h e with
    | .wait s' => if s' = s then none else some s'
    | .fail s' c v => s'.issueFails id e c v
    | .ok s' e' =>
      let rs := e'.ranges
      let mine := h.ilk.filter fun k => k.seq != e.seq
      if decide (16 < mine.length + rs.length) || (rs.any fun x => h.rangeWaits e.seq x) || h.vmuFirst e.seq rs then none
      else
        let s2 := s'.modHart id fun h => { h with ilk := mine ++ e'.ilks }.modEntry .stream e.slot fun _ => e'
        match s2.hart? id with
        | none => none
        | some h' =>
          if h'.regWaits e then (if s2 = s then none else some s2)
          else
            match h'.streamCheck e' with
            | some (c, v) => some (s2.setHart id (h'.streamFault e' c v))
            | none => some (s2.streamStart id h' e')

/-- The oldest stream that has not issued, when it may try: its queue is not stopped before it. -/
def Hart.streamNext (h : Hart) : Option Entry :=
  h.toIssue.filter fun e =>
    !((h.qstop && !e.started) || !e.runnable || h.sq.any fun x => decide (x.seq < e.seq) && !x.runnable && !x.held)

/-- The issue of the oldest stream that has not issued: its token, its slot, then steps 3 to 5 of R309; none while it
waits. -/
def State.streamIssue (s : State) (id : Nat) : Option State :=
  match s.hart? id with
  | none => none
  | some h =>
    match h.streamNext with
    | none => none
    | some e0 =>
      let r := h.takeTokens .stream [e0.slot]
      if !r.2 then (if r.1 = h then none else some (s.setHart id r.1))
      else
        let e := (r.1.entry? .stream e0.slot).getD e0
        if e.form = .unbind then (s.setHart id r.1).unbindMove id r.1 e
        else if r.1.slotBusy e || r.1.bindEarly e then (if r.1 = h then none else some (s.setHart id r.1))
        else
          let q := slotOf e.op
          let h1 := r.1.setSlot q ((r.1.slot q).take e)
          let s1 := s.setHart id h1
          (s1.streamGo id h1 e).orElse fun _ => if h1 = h then none else some s1

/-! ### Landing (R304, R310) -/

/-- The transfer of a slot has completed its elements below `n` (R304). -/
def Hart.setProgress (h : Hart) (q n : Nat) : Hart := h.setSlot q ((h.slot q).reached n)

/-- Elements land in a register in order. -/
def Hart.land (h : Hart) (d : Nat) (vtype : W64) (l : List (Nat × Nat)) : Hart :=
  let t := VT.of vtype
  { h with v := l.foldl (fun v x => writeElem v h.geo d t.g t.wd x.1 x.2) h.v }

/-- A burst counts for an open step (R375). -/
def Hart.burstBeats (h : Hart) (cycles : Nat) : Hart := h.beats (16 * cycles)

/-- The transfer has moved all its elements. -/
def Hart.streamDone (h : Hart) (e : Entry) (N : Nat) : Bool := decide (N ≤ (h.slotHeld e).progress)

/-- The oldest transfer retires when it is complete (R18, R302). -/
def Hart.retireStream (h : Hart) (e : Entry) : Hart :=
  let q := slotOf e.op
  (h.setSlot q { h.slot q with holder := none }).retire .stream e

/-! ### Bursts of the register forms (R312, R313, R315, R316) -/

/-- What the bursts of a list put into memory's image, each with its number in the list and its bytes as a number. -/
def imageOf (bs : List Burst) (l : List (Nat × Nat)) : List (Nat × Nat × Nat) :=
  l.filterMap fun x => (bs[x.1]?).map fun b => (b.va, b.n, x.2)

/-- Elements a to b - 1 from an image. -/
def Side.elems (d : Side) (img : List (Nat × Nat × Nat)) (a b : Nat) : List (Nat × Nat) :=
  (span a (b - a)).map fun e => (e, d.elem img e)

/-- The next burst of a load is read (R303), and the elements that it completes land. `res` holds the bursts that elements
still to land may need: all those of a sliced array, else the latest. -/
def State.loadBurst (s : State) (id : Nat) (h : Hart) (e : Entry) (p : Port1)
    (deliver : State → List (Nat × Nat) → Nat → State) : Option State :=
  let d := e.side
  let have_ := (h.slotHeld e).progress
  let bs := d.bursts e.progress d.N
  match (bs.drop e.part.cnt).head? with
  | none => none
  | some b =>
    match s.probeBurst p d b .r with
    | some (c, va) => some (s.setHart id (h.streamFault e c (w64 va)))
    | none =>
      let r := s.readBurst p b
      match r.2 with
      | none => if r.1 = s then none else some r.1
      | some l =>
        let hi := max have_ b.upto
        let img := e.res ++ [(e.part.cnt, ofBytes l)]
        let keep := if have_ < hi && d.lay != 2 then img.drop (img.length - 1) else img
        let s1 := r.1.modHart id fun h =>
          (h.modEntry .stream e.slot fun e => { e with res := keep, part := { e.part with cnt := e.part.cnt + 1 } }).burstBeats
            (d.cycles b)
        some (deliver s1 (d.elems (imageOf bs img) have_ hi) hi)

/-- A load into the hart's own register. -/
def State.loadOwn (s : State) (id : Nat) (h : Hart) (e : Entry) : Option State :=
  s.loadBurst id h e (e.port id h) fun s l hi =>
    s.modHart id fun h => (h.land ((streamReg e.op).getD 0) e.vtype l).setProgress (slotOf e.op) hi

/-- SST: the next burst is written (R312). -/
def State.storeBurst (s : State) (id : Nat) (h : Hart) (e : Entry) : Option State :=
  let d := e.side
  let p := e.port id h
  match ((d.bursts e.progress d.N).drop e.part.cnt).head? with
  | none => none
  | some b =>
    match s.probeBurst p d b .w with
    | some (c, va) => some (s.setHart id (h.streamFault e c (w64 va)))
    | none =>
      let n := VEnv.of h e 0
      let f : Nat → Nat := fun k => n.rd ((streamReg e.op).getD 0) d.w n.vt.kind k
      let r := s.writeBurst p d e.progress d.N f b (e.part.cnt + 1) b.upto
      let done : Hart → Hart := fun h =>
        ((h.modEntry .stream e.slot fun e => { e with part := { e.part with cnt := e.part.cnt + 1 } }).setProgress
          (slotOf e.op) b.upto).burstBeats (d.cycles b)
      if r.2 then some (r.1.modHart id done)
      else if r.1 = s then none
      else some r.1

/-! ### SCPY (R314) -/

/-- The elements that the next step of an SCPY moves: to a multiple of 256, or 2,048 between row arrays. -/
def Entry.copyEnd (e : Entry) (a : Nat) : Nat :=
  let k := if e.part.bits = 0 then 2048 else 256
  min (streamCount e) ((a / k + 1) * k)

/-- The elements from a to t - 1 that an SCPY has read wait to be written; `part.cnt` then counts bursts written. -/
def Entry.copyHas (e : Entry) (a t : Nat) : Entry :=
  let d := e.side
  { e with res := d.elems (imageOf (d.bursts a (e.copyEnd a)) (e.res2.take e.part.cnt)) a t, part := { e.part with cnt := 0 } }

/-- The next burst of an SCPY on its source side (R303), from the window of elements a to t - 1: `res2` holds the bursts
read, `part.cnt` their number. A page that fails ends the window at the elements complete before it. -/
def State.copyRead (s : State) (id : Nat) (h : Hart) (e : Entry) (a t : Nat) : Option State :=
  let d := e.side
  let p := e.port id h
  let bs := d.bursts a t
  let k := e.part.cnt
  match (bs.drop k).head? with
  | none => none
  | some b =>
    match s.probeBurst p d b .r with
    | some (c, va) =>
      let t' := (((bs.take k).getLast?).map fun b => max a (min t b.upto)).getD a
      some (s.setHart id (if t' = a then h.streamFault e c (w64 va) else h.modEntry .stream e.slot fun e => e.copyHas a t'))
    | none =>
      let r := s.readBurst p b
      match r.2 with
      | none => if r.1 = s then none else some r.1
      | some l =>
        let more : Entry → Entry := fun e =>
          { e with res2 := e.res2.take k ++ [(k, ofBytes l)], part := { e.part with cnt := k + 1 } }
        let all : Entry → Entry := fun e => if k + 1 = bs.length then (more e).copyHas a t else more e
        some (r.1.modHart id fun h => (h.modEntry .stream e.slot all).burstBeats (d.cycles b))

/-- The next burst of an SCPY on its destination side (R303), of the elements a to t - 1 that it has read. -/
def State.copyWrite (s : State) (id : Nat) (h : Hart) (e : Entry) (a t : Nat) : Option State :=
  let d := e.dest
  let p := e.port id h
  let bs := d.bursts a t
  let closed : Hart → Hart := fun h =>
    (h.modEntry .stream e.slot fun e => { e with res := [], part := { e.part with cnt := 0 } }).setProgress (slotOf e.op) t
  match (bs.drop e.part.cnt).head? with
  | none => some (s.setHart id (closed h))
  | some b =>
    match s.probeBurst p d b .w with
    | some (c, va) => some (s.setHart id (h.streamFault e c (w64 va)))
    | none =>
      let f : Nat → Nat := fun k => getD e.res k 0
      let r := s.writeBurst p d a t f b (e.part.cnt + 1) b.upto
      let done : Hart → Hart := fun h =>
        ((h.modEntry .stream e.slot fun e => { e with part := { e.part with cnt := e.part.cnt + 1 } }).setProgress
          (slotOf e.op) b.upto).burstBeats (d.cycles b)
      if !r.2 then (if r.1 = s then none else some r.1)
      else some (r.1.modHart id fun h => if e.part.cnt + 1 = bs.length then closed (done h) else done h)

/-- SCPY: the next burst of its window, which is read and then written. -/
def State.copyBurst (s : State) (id : Nat) (h : Hart) (e : Entry) : Option State :=
  match e.res.head? with
  | some x => s.copyWrite id h e x.1 (x.1 + e.res.length)
  | none =>
    let a := (h.slotHeld e).progress
    s.copyRead id h e a (e.copyEnd a)

/-! ### Bound streams (R317) -/

/-- An element lands in the ring. -/
def Binding.landAt (b : Binding) (e x : Nat) : Binding :=
  if e < b.low then b
  else if e - b.low < b.ring.length then { b with ring := b.ring.set (e - b.low) x }
  else { b with ring := b.ring ++ [x] }

/-- The ring of C elements once elements below `hi` have landed. What a consumer that has not retired covers is kept for
it, though another element may have landed in its place: a consumer reads the stream element at its position (R317), also
one that it reads again, or late (the scales of MXDQ R292, a block that straddles groups R299, XACC.ADD R296). -/
def Binding.trim (b : Binding) (C hi : Nat) : Binding :=
  let low := max b.low (b.cons.foldl (fun a c => min a c.2.1) (hi - C))
  { b with ring := b.ring.drop (low - b.low), low := low }

/-- The elements from `a` on, at most `n` of them, that may land (R317). -/
def Binding.landable (b : Binding) (C a : Nat) : (n : Nat) → Nat
  | 0 => a
  | k + 1 => if b.canLand C a then b.landable C (a + 1) k else a

def Binding.side (b : Binding) : Side :=
  { base := b.base, lay := b.layout, w := b.w, N := b.n, p := b.w, toks := [], tokw := 1 }

/-- The stretch of a bound stream that is being read, or the next one: at most 256 elements that may land (R317). -/
def Binding.stretch (b : Binding) (C ea : Nat) : Nat × Nat × List Nat :=
  let fresh := (ea, b.landable C ea (min b.n ((ea / 256 + 1) * 256) - ea), [])
  match b.under with
  | some u => if u.1 = ea then u else fresh
  | none => fresh

/-- The next burst of a bound stream is read (R303), and the elements that it completes land. -/
def State.boundBurst (s : State) (id : Nat) (h : Hart) (seq : Nat) (b : Binding) : Option State :=
  let t := h.slot b.q
  let C := h.ringCap b
  let u := b.stretch C t.ea
  if t.stopped || decide (u.2.1 ≤ t.ea) then none
  else
    let p : Port1 := { id := id, slot := boundSlot b.q, c := { h.who id with sup := b.sup, port := .stream }, ctx := h.ctx }
    let d := b.side
    let bs := d.bursts t.ea u.2.1
    match (bs.drop u.2.2.length).head? with
    | none => none
    | some x =>
      match s.probeBurst p d x .r with
      | some (c, va) => some (s.setHart id (h.boundFault b c (w64 va)))
      | none =>
        let r := s.readBurst p x
        match r.2 with
        | none => if r.1 = s then none else some r.1
        | some l =>
          let nums := u.2.2 ++ [ofBytes l]
          let hi := max t.ea (min u.2.1 x.upto)
          let img := imageOf bs (nums.zipIdx.map fun n => (n.2, n.1))
          let next : Binding → Binding := fun b =>
            if hi = t.ea then { b with under := some (t.ea, u.2.1, nums) }
            else { ((d.elems img t.ea hi).foldl (fun b y => b.landAt y.1 y.2) b).trim C hi with under := none }
          some (r.1.modHart id fun h => ((h.modBind seq next).setProgress b.q hi).burstBeats (d.cycles x))

/-! ### SLD.G (R313) -/

/-- The members of a gang that are harts, by ascending index. -/
def State.gangHarts (s : State) (key : Nat) : List Nat :=
  match s.gang? key with
  | none => []
  | some g =>
    (sortBy (fun (a b : Member) => decide (a.idx ≤ b.idx)) g.members).filterMap fun m =>
      match m.who with
      | .hart i => some i
      | .saved _ => none

/-- A member's SLD.G of multicast k that has issued and waits for the others. -/
def Hart.waitingG (h : Hart) (k : Nat) : Option Entry :=
  h.sq.find? fun e => e.form == .gang && e.started && e.eff == 0 && e.part.acc == (k : Int) && e.runnable

/-- The SLD.G of multicast k that fetches for its gang. -/
def Hart.leadingG (h : Hart) (k : Nat) : Option Entry :=
  h.sq.find? fun e => e.form == .gang && e.started && e.eff == 1 && e.part.acc == (k : Int)

/-- A member has taken multicast k already, and no SLD.G of it waits for it: it loads its own elements, as after a
restore, or it has faulted. -/
def Hart.pastG (h : Hart) (k : Nat) : Bool :=
  decide (k < h.mcast) && !h.sq.any fun e => e.form == .gang && e.started && e.eff == 0 && e.part.acc == (k : Int)

/-- The multicast that a gang can issue next: every member that is a hart has issued its SLD.G of that number. -/
def State.nextMcast (s : State) (key : Nat) : Option Nat :=
  let ks := (s.gangHarts key).filterMap fun i => (s.hart? i).bind fun h =>
    (h.sq.find? fun e => e.form == .gang && e.started && e.eff == 0 && e.runnable).map fun e => e.part.acc.toNat
  match ks.min? with
  | none => none
  | some k =>
    if (s.gangHarts key).all fun i => match s.hart? i with
      | some h => (h.waitingG k).isSome || h.pastG k
      | none => true
    then some k else none

/-- The member that fetches multicast k: the lowest index among those whose SLD.G waits for it. -/
def State.leadOf (s : State) (key k : Nat) : Option Nat :=
  (s.gangHarts key).find? fun i => ((s.hart? i).bind fun h => h.waitingG k).isSome

/-- The parameters that members must share. -/
def Entry.gangParams (e : Entry) : Nat × Nat × Nat × Nat := (e.ga.toNat, streamCount e, (VT.of e.vtype).wd, e.part.bits)

/-- Multicast k issues (R313): the member of the lowest index fetches; a member whose parameters differ faults. -/
def State.multicast (s : State) (key : Nat) : Option State :=
  match s.nextMcast key with
  | none => none
  | some k =>
    match (s.leadOf key k).bind fun lead => ((s.hart? lead).bind fun h => h.waitingG k).map fun e0 => (lead, e0) with
    | none => none
    | some (lead, e0) =>
      some ((s.gangHarts key).foldl (fun s i =>
        match (s.hart? i).bind fun h => (h.waitingG k).map fun e => (h, e) with
        | none => s
        | some (h, e) =>
          if e.gangParams ≠ e0.gangParams then
            s.setHart i (h.streamFault e .gangerr (w64 (key % 256)))
          else
            s.setHart i (h.modEntry .stream e.slot fun e =>
              { e with eff := (if i = lead then 1 else 2), gd := w64 lead })) s)

/-- SLD_G_MULTICAST (R313). -/
def execSldGMulticast (ctx die num : Nat) (s : State) : Out := .next ((s.multicast (gangKey ctx die num)).getD s)

/-- Members that receive multicast k from a hart. -/
def State.followers (s : State) (lead k : Nat) : List Nat :=
  (s.harts.filter fun p => p.1 != lead && p.2.sq.any fun e =>
    e.form == .gang && e.started && e.eff == 2 && e.gd.toNat == lead && e.part.acc == (k : Int)).map Prod.fst

/-- The elements of a multicast land in a follower. -/
def Hart.landG (h : Hart) (k : Nat) (l : List (Nat × Nat)) (hi : Nat) : Hart :=
  match h.sq.find? fun e => e.form == .gang && e.eff == 2 && e.part.acc == (k : Int) with
  | some e =>
    let q := slotOf e.op
    (h.land ((streamReg e.op).getD 0) e.vtype l).setProgress q hi
  | none => h

/-- The next burst of an SLD.G: a leader delivers to every member; a follower waits for its leader, and fetches its own
elements when the leader has gone. -/
def State.gangBurst (s : State) (id : Nat) (h : Hart) (e : Entry) : Option State :=
  let k := e.part.acc.toNat
  if e.eff = 1 then
    s.loadBurst id h e (e.port id h) fun s l hi =>
      let s1 := s.modHart id fun h => (h.land ((streamReg e.op).getD 0) e.vtype l).setProgress (slotOf e.op) hi
      match h.gang with
      | none => s1
      | some _ => (s.followers id k).foldl (fun s i => s.modHart i fun h => h.landG k l hi) s1
  else if e.eff = 2 && ((s.hart? e.gd.toNat).bind fun h => h.leadingG k).isNone then
    some (s.setHart id (h.modEntry .stream e.slot fun e =>
      { e with eff := 1, progress := (h.slotHeld e).progress, part := { e.part with cnt := 0 } }))
  else none

/-! ### SSEND (R320 to R322) -/

/-- A field of the send descriptor. -/
def Entry.desc (e : Entry) (k : Nat) : Nat := getD e.res2 k 0

/-- The target of an SSEND is stale (R322). -/
def State.stale (s : State) (e : Entry) : Bool :=
  !(s.ctx (e.desc 4)).live || (s.ctx (e.desc 4)).gen != e.desc 3

/-- A stale SSEND drops the rest, and counts and retires when it is the oldest of its queue (R18, R322): `eff` is 1 once it
is stale. -/
def Hart.staleDone (h : Hart) (e : Entry) : Hart :=
  if h.sq.head?.map (fun x => x.seq) = some e.seq then
    ({ h with stale := min (h.stale + 1) 0xFFFFFFFF }).retireStream e
  else h.modEntry .stream e.slot fun e => { e with eff := 1, inflight := [], res := [] }

/-- The translation of an address in the target context (R320): writable, for users where the sender was one. -/
def State.sendXlat (s : State) (id : Nat) (e : Entry) (va : Nat) : Option Xlat :=
  match s.walk (e.desc 4) (dieOf id) true va with
  | none => none
  | some x =>
    if pteW x.pte && (e.sup || pteU x.pte) && pathOf x != .device && pteComp x.pte == s.lossless (x.pa / 65536) then some x
    else none

/-- A held write of an SSEND (R322). -/
def Entry.sendHw (e : Entry) (id : Nat) (h : Hart) (va : Nat) (f : Finish) : HeldWrite :=
  { (e.port id h).hw va f with target := some (e.desc 4) }

/-- The completion of an SSEND whose bytes are all at home (R320): `part.cnt` is 1 once the increment is. -/
def State.sendFinish (s : State) (id : Nat) (h : Hart) (e : Entry) : Option State :=
  if e.part.cnt ≠ 0 || e.desc 1 = 0 then
    if h.sq.head?.map (fun x => x.seq) = some e.seq then some (s.setHart id (h.retireStream e)) else none
  else if s.stale e then some (s.setHart id (h.staleDone e))
  else if s.rootAway (e.desc 4) (dieOf id) (e.desc 1) then none
  else
    match s.sendXlat id e (e.desc 1) with
    | none => some (s.freezeEntry id h e 0x10)
    | some x =>
      if s.portHeld (e.port id h) || s.cutOff id x.pa then none
      else
        let hw := e.sendHw id h (e.desc 1) (.vamo 0 8 (e.desc 2) 0 0 0 true)
        let q := s.recallFor x.pa .ordinary { hw with finish := .again }
        if !q.2 then some q.1
        else
          let w := q.1.homeWrite (q.1.amoCells x.pa 0 8 (e.desc 2) 0 true) .ordinary hw
          if w.2 then
            some (w.1.modHart id fun h => h.modEntry .stream e.slot fun e => { e with part := { e.part with cnt := 1 } })
          else some w.1

/-- The next burst of an SSEND leaves the sender (R320, R321): its bytes are on their way, or the SSEND freezes or is
stale. -/
def State.sendBurst (s : State) (id : Nat) (h : Hart) (e : Entry) : Option State :=
  let a := (h.slotHeld e).progress
  let N := streamCount e
  if !e.inflight.isEmpty then none
  else if e.eff = 1 then (if h.staleDone e = h then none else some (s.setHart id (h.staleDone e)))
  else if e.foreignSend h then some (s.freezeEntry id h e 0x11)
  else if N ≤ a then s.sendFinish id h e
  else if s.stale e then some (s.setHart id (h.staleDone e))
  else if s.rootAway (e.desc 4) (dieOf id) ((e.desc 0 + a) % 2 ^ 64) then none
  else
    let src := (e.gd.toNat + a) % 2 ^ 64
    let dst := (e.desc 0 + a) % 2 ^ 64
    let n := min (min (N - a) 4096) (min (65536 - src % 65536) (65536 - dst % 65536))
    let p := e.port id h
    let b : Burst := { va := src, n := n, upto := a + n }
    match s.probePage p (max e.gd.toNat (src / 65536 * 65536)) .r with
    | some (c, va) => some (s.setHart id (h.streamFault e c (w64 va)))
    | none =>
      match s.sendXlat id e dst with
      | none => some (s.freezeEntry id h e 0x10)
      | some x =>
        if s.cutOff id x.pa then none
        else
          let r := s.readBurst p b
          match r.2 with
          | none => if r.1 = s then none else some r.1
          | some bs =>
            some (r.1.modHart id fun h =>
              (h.modEntry .stream e.slot fun e => { e with inflight := bs, res := [(0, x.pa)] }).burstBeats (ceilDiv n 64))

/-- The burst in flight of an SSEND arrives (R320): it is stale, or its bytes are written at home; while the Weir holds them
they do not count. -/
def State.sendArrive (s : State) (id : Nat) (h : Hart) (e : Entry) : State :=
  if s.stale e then s.setHart id (h.staleDone e)
  else
    let a := (h.slotHeld e).progress
    let hi := a + e.inflight.length
    let hw := e.sendHw id h ((e.desc 0 + a) % 2 ^ 64) (.burst 0 hi)
    let cs := (span (getD e.res 0 0) e.inflight.length).zip e.inflight
    let w := s.homeWrite cs .ordinary hw
    if w.2 then
      w.1.modHart id fun h =>
        (h.modEntry .stream e.slot fun e => { e with inflight := [], res := [] }).setProgress (slotOf e.op) hi
    else w.1

/-- SSEND_BURST_ARRIVAL (R320). -/
def execSsendBurstArrival (id q : Nat) (s : State) : Out :=
  match s.hart? id with
  | none => .next s
  | some h =>
    match h.sq.find? fun e => e.form == .send && slotOf e.op == q && e.started with
    | none => .next s
    | some e => if e.inflight.isEmpty || e.held then .next s else .next (s.sendArrive id h e)

/-! ### The bursts of a slot (R303) -/

/-- Its queue is stopped by a fault of a stream (R100). -/
def Hart.streamsStopped (h : Hart) : Bool := (h.sq.any fun e => e.stopped) || h.slots.toList.any fun t => t.stopped

/-- A member's SLD.G whose multicast has not issued (R313). -/
def Entry.awaitsGang (e : Entry) : Bool := e.form == .gang && e.eff == 0

/-- The next burst of a transfer of the queue, or its retirement: none while it waits. -/
def State.entryBurst (s : State) (id : Nat) (h : Hart) (e : Entry) : Option State :=
  if !e.started || e.part.seen || !e.runnable || s.portHeld (e.port id h) then none
  else if e.form = .send then s.sendBurst id h e
  else
    if h.streamDone e e.count && !e.awaitsGang then
      (if h.sq.head?.map (fun x => x.seq) = some e.seq then some (s.setHart id (h.retireStream e)) else none)
    else
      match e.form with
      | .store => s.storeBurst id h e
      | .copy => s.copyBurst id h e
      | .gang => s.gangBurst id h e
      | _ => s.loadOwn id h e

/-- The next burst of what holds slot q: none while it waits. -/
def State.slotBurst (s : State) (id q : Nat) : Option State :=
  match s.hart? id with
  | none => none
  | some h =>
    if h.streamsStopped then none
    else
      match (h.slot q).bind with
      | some k =>
        (match find? h.binds k with
         | some b => s.boundBurst id h k b
         | none => none)
      | none =>
        match h.sq.find? fun e => (h.slot q).holder == some e.seq with
        | some e => s.entryBurst id h e
        | none => none

/-- STREAM_BURST (R303). -/
def execStreamBurst (id q : Nat) (s : State) : Out := .next ((s.slotBurst id q).getD s)

/-- The held slots of a hart, the oldest transfer first (R303). -/
def Hart.heldSlots (h : Hart) : List Nat :=
  let held := h.slots.toList.zipIdx.filterMap fun t => (t.1.bind.orElse fun _ => t.1.holder).map fun k => (k, t.2)
  (sortBy (fun a b => decide (a.1 ≤ b.1)) held).map Prod.snd

/-- The next burst of a hart: of its oldest transfer that has one ready (R303). -/
def State.burstMove (s : State) (id : Nat) : Option State :=
  match s.hart? id with
  | some h => h.heldSlots.findSome? fun q => s.slotBurst id q
  | none => none

/-- A move of a hart's streams: an issue, or else its next burst (log 3). -/
def State.streamMove (s : State) (id : Nat) : Option State := (s.streamIssue id).orElse fun _ => s.burstMove id

/-! ### Dispatch (R16, R308, R317) -/

/-- The v-register field of a stream word (R40). -/
def Hart.streamOk (h : Hart) (i : Instr) : Bool :=
  match streamReg i with
  | some d => vok h d && d % (VT.of h.vtype).g == 0
  | none => true

/-- A new binding at the dispatch of SBIND (R317). -/
def Hart.newBinding (h : Hart) (e : Entry) (d : Nat) : Binding :=
  let t := VT.of e.vtype
  { pc := e.pc, q := slotOf e.op, vd := d, grp := t.g, n := streamCount e, w := t.wd, kind := t.kind, layout := 0,
    base := e.ga.toNat, sup := e.sup, epl := epl h.vcfg t, issued := false, closed := none, pos := 0, low := 0, ring := [],
    cons := [], under := none }

/-- What the dispatch of SBIND and SUNBIND does to the bindings. -/
def Hart.bindWords (h : Hart) (e : Entry) : Hart × Entry :=
  match e.op with
  | .sbind _ _ d _ _ => ({ h with binds := put h.binds e.seq (h.newBinding e d) }, e)
  | .sunbind _ q =>
    match h.binds.reverse.find? fun b => b.2.q == q && b.2.closed.isNone with
    | some b =>
      ({ h with binds := h.binds.map fun x => if x.1 = b.1 then (x.1, { x.2 with closed := some e.seq }) else x },
       { e with pos := [(b.1, 0)] })
    | none => (h, e)
  | _ => (h, e)

/-- An eager machine issues a stream at once when nothing holds it back (log 3). -/
def State.streamEager (s : State) (id : Nat) : State := if s.eager then (s.streamIssue id).getD s else s

/-- A word of the stream queue: its decode checks and its dispatch. Its captures: `a`, `b` and `d` by number. -/
def streamExec (k a b d : Nat) (op : Instr) (s : State) : Out :=
  onHart s fun id h =>
    if !h.streamOk op then trapAt s id h .illins (w64 (encode op))
    else if h.full .stream then .next s
    else
      let r := h.bindWords (h.newEntry (h.nextSlot .stream) op k a b d)
      .next ((s.setHart id (r.1.dispatched.pushS r.2)).streamEager id)

def execSld (k q d a b : Nat) (s : State) : Out := streamExec k a b 0 (.sld k q d a b) s
def execSst (k q d a b : Nat) (s : State) : Out := streamExec k a b 0 (.sst k q d a b) s
def execScpy (k q d a b : Nat) (s : State) : Out := streamExec k a b d (.scpy k q d a b) s
def execSpln (k q d a b : Nat) (s : State) : Out := streamExec k a b 0 (.spln k q d a b) s
def execSldG (k q d a b : Nat) (s : State) : Out := streamExec k a b 0 (.sldG k q d a b) s
def execSind (k q d a b : Nat) (s : State) : Out := streamExec k a b 0 (.sind k q d a b) s
def execSpat (k q d a : Nat) (s : State) : Out := streamExec k a 0 0 (.spat k q d a) s
def execSbind (k q d a b : Nat) (s : State) : Out := streamExec k a b 0 (.sbind k q d a b) s
def execSunbind (k q : Nat) (s : State) : Out := streamExec k 0 0 0 (.sunbind k q) s
def execSsend (k q d a b : Nat) (s : State) : Out := streamExec k a b d (.ssend k q d a b) s

/-! ### SWAIT, SAVAIL, SSTAT (R323) -/

/-- A transfer of slot q is not complete. -/
def Hart.slotPending (h : Hart) (q : Nat) : Bool :=
  (h.sq.any fun e => e.form != .unbind && slotOf e.op == q) ||
  (match (h.slot q).bind.bind fun k => find? h.binds k with
   | some b => decide ((h.slot q).ea < b.n)
   | none => false)

/-- The condition of SWAIT. -/
def Hart.swaitDone (h : Hart) (q thr : Nat) : Bool :=
  !h.slotPending q || (thr != 0 && decide (lowBits (w64 thr) 32 ≤ (h.slot q).ea))

def execSwait (q b : Nat) (s : State) : Out :=
  onHart s fun id h =>
    if h.swaitDone q (h.rg b).toNat then finish s id h.wake
    else .next (s.setHart id (h.sleep (.swait q (h.rg b).toNat) s.tick))

/-- The wait of an SWAIT is over. -/
def Hart.swaitOver (h : Hart) : Bool :=
  match h.wait with
  | some (.swait q thr) => h.swaitDone q thr
  | _ => false

/-- SWAIT_WAKE (R323): the transfers are complete, or EA has reached the threshold. -/
def execSwaitWake (id : Nat) (s : State) : Out := .next (s.modHart id fun h => if h.swaitOver then h.wake else h)

def execSavail (q d : Nat) (s : State) : Out := onHart s fun id h => finish s id (h.setG d (w64 (h.slot q).ea))

/-- The slot status word. -/
def Hart.slotStatus (h : Hart) (q : Nat) : W64 :=
  let t := h.slot q
  let st :=
    if t.bind.isSome then (if t.stopped then 2 else 3)
    else
      match t.holder with
      | none => 0
      | some k => if h.sq.any fun e => e.seq == k && (e.stopped || e.frozen.isSome) then 2 else 1
  w64 (st * 2 ^ 62 + t.fn * 2 ^ 56 + t.progress % 2 ^ 32)

def execSstat (q d b : Nat) (s : State) : Out :=
  onHart s fun id h =>
    match lowBits (h.rg b) 8 with
    | 0 => finish s id (h.setG d (h.slotStatus q))
    | 1 => finish s id (h.setG d (w64 h.stale))
    | 2 => finish s id ({ h with stale := 0 }.setG d (w64 h.stale))
    | 3 =>
      let c := s.ctx (bits (h.rg b).toNat 8 6)
      finish s id (h.setG d (w64 (c.gen % 2 ^ 32 + bitOf c.live * 2 ^ 32)))
    | _ => trapAt s id h .illins (w64 (encode (.sstat q d b)))

end Sys2Proof.Machine
end

