-- ==== Sys2Proof/Machine/System.lean ====
section
/-! DEFINITION. The system instructions (R170 to R174): SYSRD, SYSWR and SYSSWAP of every sysreg of R53, TRAP, BKPT, RET.T,
INVPG and INVALL, and the word that is no instruction (R50). -/

namespace Sys2Proof.Machine

/-! ### Sysregs (R53) -/

/-- The sysregs that only supervisor mode may name (R53). -/
def sysSup (n : Nat) : Bool := n == 0x012 || n == 0x031 || (decide (0x040 ≤ n) && decide (n ≤ 0x043)) || n == 0x052 || n == 0x053 || n == 0x054

/-- The sysregs whose access waits for the queues (R153): FFLAGS, SRSEED, SRCTR, XRIX. -/
def sysWaits (n : Nat) : Bool := n == 0x030 || n == 0x010 || n == 0x011 || n == 0x012

/-- TRAPCAUSE as SYSRD reads it (R178). -/
def Hart.trapCause (h : Hart) : W64 := w64 (bitOf h.tcInt * 2 ^ 63 + h.ipend % 32 * 2 ^ 16 + h.tcCode % 256)

/-- TSLICE as SYSRD reads it (R107, R108): EFFECTIVE is SLICE before the first restore. -/
def State.tslice (s : State) (h : Hart) : W64 :=
  let sl := (s.ctx h.ctx).slice
  w64 (h.effective.getD sl % 2 ^ 32 * 2 ^ 32 + sl % 2 ^ 32)

/-- The value of a sysreg (R151, R171 and the register maps of the chapters that R53 names). -/
def State.sysRead (s : State) (id : Nat) (h : Hart) (n : Nat) : W64 :=
  match n with
  | 0x000 => w64 h.vl
  | 0x001 => h.vtype
  | 0x002 => h.vcfg
  | 0x003 => h.vgrant
  | 0x004 => h.vcpRead
  | 0x005 => w64 h.estartRead
  | 0x006 => h.tshape
  | 0x010 => h.srseed
  | 0x011 => w64 h.srctr
  | 0x012 => h.xrixRead
  | 0x020 => h.tkroute
  | 0x021 => w64 (s.stn (stnOf id)).chperm
  | 0x030 => w64 h.fflags
  | 0x031 => h.status
  | 0x040 => h.trapCause
  | 0x041 => h.trappc
  | 0x042 => h.trapval
  | 0x043 => h.trapvec
  | 0x050 => w64 id
  | 0x051 => w64 h.ctx
  | 0x052 => w64 h.prio
  | 0x053 => s.tslice h
  | 0x054 => h.sbcapRead
  | 0x060 => h.stepid
  | 0x061 => h.dlslack
  | 0x062 => w64 (s.ctx h.ctx).energy
  | _ => 0

/-- The writable bits of STATUS but SVH (R151). -/
def statusMask : W64 := 0x1F0E

/-- A write to STATUS (R151, R152): MODE keeps its value; SVH set here is cleared on the context's other harts. -/
def State.statusWrite (s : State) (id : Nat) (h : Hart) (v : W64) : State :=
  let st := (h.status &&& ~~~(statusMask ||| svhBit)) ||| (v &&& (statusMask ||| svhBit))
  let s1 := s.setHart id { h with status := st }
  if v.getLsbD 4 then s1.claimSvh id h.ctx else s1

/-- A write to TRAPCAUSE (R178, R183): IPEND bits clear where the write has ones; then ACT acts on the master that
TRAPVAL names. -/
def State.causeWrite (s : State) (id : Nat) (h : Hart) (v : W64) : State :=
  let m := bits v.toNat 16 5
  let s1 := s.setHart id { h with ipend := h.ipend ^^^ (h.ipend &&& m) }
  match bits v.toNat 8 2 with
  | 1 => s1.unfreeze h.trapval.toNat
  | 2 => s1.destroy h.trapval.toNat
  | _ => s1

/-- One field of TKROUTE written: its own engine's code leaves it unchanged (R23). -/
def routeField (old new at_ own : Nat) : Nat :=
  let x := bits new at_ 2
  (if x = own then bits old at_ 2 else x) * 2 ^ at_

/-- TKROUTE after a write (R23). -/
def tkrouteWrite (old new : W64) : W64 :=
  let o := old.toNat
  let n := new.toNat
  w64 (routeField o n 0 engVector + routeField o n 2 engVector + routeField o n 4 engMatrix + routeField o n 6 engMatrix +
    routeField o n 8 engStream + routeField o n 10 engStream)

/-- A write to TSLICE.SLICE, by any hart of a context, is one for all (R107). -/
def State.sliceWrite (s : State) (ctx : Nat) (v : W64) : State := s.setCtx ctx { s.ctx ctx with slice := bits v.toNat 0 32 }

/-- The write of a sysreg under its access codes (R5, R171). -/
def State.sysWrite (s : State) (id : Nat) (h : Hart) (n : Nat) (v : W64) : State :=
  match n with
  | 0x006 => s.setHart id { h with tshape := tshapeWrite v }
  | 0x010 => s.setHart id { h with srseed := v }
  | 0x011 => s.setHart id { h with srctr := bits v.toNat 0 32 }
  | 0x012 => s.setHart id (h.xrixWrite v)
  | 0x020 => s.setHart id { h with tkroute := tkrouteWrite h.tkroute v }
  | 0x030 => s.setHart id { h with fflags := bits v.toNat 0 8 }
  | 0x031 => s.statusWrite id h v
  | 0x040 => s.causeWrite id h v
  | 0x041 => s.setHart id { h with trappc := trapPcField v }
  | 0x042 => s.setHart id { h with trapval := v }
  | 0x043 => s.setHart id { h with trapvec := v &&& 0x007FFFFFFFFFFFC0 }
  | 0x052 => s.setHart id { h with prio := bits v.toNat 0 3 }
  | 0x053 => (s.setHart id h).sliceWrite h.ctx v
  | 0x054 => (s.setHart id h).sbWrite id v
  | _ => s.setHart id h

/-- What every sysreg access checks: the mode (R50, R53), then the wait of R153. -/
def sysAccess (n : Nat) (i : Instr) (s : State) (k : Nat → Hart → Out) : Out :=
  onHart s fun id h =>
    if sysSup n && !h.sup then trapAt s id h .illins (w64 (encode i))
    else if sysWaits n && !h.idleQueues && !h.inTrap then .next s
    else k id h

def execSysrd (d n : Nat) (s : State) : Out :=
  sysAccess n (.sysrd d n) s fun id h => finish s id (h.setG d (s.sysRead id h n))

def execSyswr (a n : Nat) (s : State) : Out :=
  sysAccess n (.syswr a n) s fun id h => .next (s.sysWrite id h.advance n (h.rg a))

def execSysswap (d a n : Nat) (s : State) : Out :=
  sysAccess n (.sysswap d a n) s fun id h =>
    .next (s.sysWrite id (h.setG d (s.sysRead id h n)).advance n (h.rg a))

/-- SVH_SET (R152). -/
def execSvhSet (id : Nat) (s : State) : Out :=
  match s.hart? id with
  | some h => .next (s.claimSvh id h.ctx)
  | none => .next s

/-- TSLICE_WRITE (R107). -/
def execTsliceWrite (id w : Nat) (s : State) : Out :=
  match s.hart? id with
  | some h => .next (s.sliceWrite h.ctx (w64 w))
  | none => .next s

/-- TKROUTE_WRITE (R23). -/
def execTkrouteWrite (id w : Nat) (s : State) : Out :=
  .next (s.modHart id fun h => { h with tkroute := tkrouteWrite h.tkroute (w64 w) })

/-! ### TRAP, BKPT, RET.T (R172, R173) -/

def execTrap (c : Nat) (s : State) : Out :=
  onHart s fun id h => .next (s.trapHart id (h.beats 1) .syscall (h.pc + 4) (w64 c))

def execBkpt (c : Nat) (s : State) : Out := onHart s fun id h => trapAt s id h .bkpt (w64 c)

def execRetT (s : State) : Out := supOnly s .retT fun id h => .next (s.setHart id (h.retTrap.beats 1))

/-! ### INVPG and INVALL (R129, R174) -/

/-- An instruction passed its probe with a translation that satisfies `p`, and has neither retired nor stopped (R129
item 3). -/
def Entry.uses (e : Entry) (ctx : Nat) (p : TlbEntry → Bool) : Bool :=
  e.probed && e.bad.isNone && !e.stopped && e.frozen.isNone &&
  e.xl.any fun x => p (tlbOf (.row 0) ctx (x.1 * 65536) x.2)

/-- A translation that satisfies `p` serves an address. -/
def State.servedBy (s : State) (p : TlbEntry → Bool) (ctx va : Nat) : Bool :=
  s.tlb.any fun t => p t && t.ctx == ctx && t.page == va / 2 ^ t.size && (match t.unit with
    | .walk _ => false
    | _ => true)

/-- A STRIP.COMMIT or a FLUSH has begun, and a translation that satisfies `p` serves its buffer. -/
def State.commitUses (s : State) (h : Hart) (p : TlbEntry → Bool) : Bool :=
  (h.flushAt != 0 || h.vq.any fun v => endsStrip v.e.op && v.e.started && !v.e.stopped) &&
  h.strip.any fun t => (bufLines t.buf).any fun l => s.servedBy p h.ctx (l * 64)

/-- The addresses of the parts that a held write has still to perform, each at its first byte in its frame (R353, R359). -/
def HeldWrite.leftVas (w : HeldWrite) : List Nat :=
  w.partVa :: (w.vas.filter fun v => w.cells.any fun c => c.1 / 65536 == v.1).map Prod.snd

/-- What an invalidation waits for (R129 items 2 and 3): an instruction that passed its probe with a removed translation, or a
held access that was translated through one. -/
def State.probedIn (s : State) (p : TlbEntry → Bool) : Bool :=
  (s.harts.any fun x => (x.2.vq.any fun v => v.e.uses x.2.ctx p) || s.commitUses x.2 p) ||
  s.dies.any fun x => x.2.held.any fun w => (match w.master with
    | .inbound _ => false
    | _ => true) && w.leftVas.any fun va => s.servedBy p w.ctx va

/-- A WAITW that waits no longer uses its translation, when that is one of those removed: it probes again (R129). -/
def Hart.forget (h : Hart) (id : Nat) (p : TlbEntry → Bool) : Hart :=
  match h.wait with
  | some (.waitw w) =>
    { h with wait := some (.waitw { w with x := w.x.filter fun x => !p (tlbOf (.data (coreOf id)) h.ctx w.va x) }) }
  | _ => h

/-- The lane caches of the package are emptied (R114, R129). -/
def State.dropLanes (s : State) : State :=
  { s with harts := s.harts.map fun (p : Nat × Hart) => (p.1, { p.2 with lcache := [] }) }

def State.forgetAll (s : State) (p : TlbEntry → Bool) : State :=
  { s with harts := s.harts.map fun (x : Nat × Hart) => (x.1, x.2.forget x.1 p) }

/-- An invalidation (R129): a release at .pkg, then the removal of every translation that satisfies `p`, once no access or
instruction of `probedIn` is left. -/
def invalidate (p : TlbEntry → Bool) (i : Instr) (s : State) : Out :=
  supOnly s i fun id h =>
    onRelease s id h 6 fun s h =>
      if s.probedIn p then .next s
      else .next (((s.setHart id h.advance).tlbDrop p).forgetAll p).dropLanes

/-- A translation covers a 64 KiB page. -/
def TlbEntry.covers (t : TlbEntry) (page : Nat) : Bool := t.page == page * 65536 / 2 ^ t.size

def execInvpg (a : Nat) (s : State) : Out :=
  onHart s fun _ h =>
    let x := (h.rg a).toNat
    invalidate (fun t => t.ctx == bits x 58 6 && t.covers (bits x 16 39)) (.invpg a) s

def execInvall (a : Nat) (s : State) : Out :=
  onHart s fun _ h =>
    let x := (h.rg a).toNat
    invalidate (fun t => x.testBit 63 || t.ctx == bits x 0 6) (.invall a) s

/-! ### A word that is no instruction (R50) -/

/-- TMERGE with a VB field above 1: a register field that breaks R31, which R50 checks in its third step. -/
def badTmerge (w : Nat) : Bool :=
  fld w 26 6 == 0x2D &&
  (match decode (w % 2 ^ 32 - fld w 14 5 * 2 ^ 14) with
   | .ok (.tmerge _ _ _) => true
   | _ => false)

/-- ILLEGAL_ENCODING: ILLINS, or VILL where TSHAPE.TILL comes before the register fields (R50, R51). -/
def execIllegalEncoding (w : Nat) (s : State) : Out :=
  onHart s fun id h =>
    if badTmerge w && (TS.of h.tshape).till then trapAt s id h .vill (w64 w)
    else trapAt s id h .illins (w64 w)

end Sys2Proof.Machine
end

