-- ==== Sys2Proof/Machine/Frames.lean ====
section
/-! DEFINITION. Frames: VFRAME.SAVE and VFRAME.RESTORE (R102 to R106, R175, R176, R259, R326, R342, R380), pre-emption (R108,
R109), the thermal emergency save and the scan at power-up (R393 to R397). -/

namespace Sys2Proof.Machine

/-- Bytes that a frame may occupy, its magic value (R104). -/
def frameSize : Nat := 0x898000
def frameMagic : Nat := 0x4C584652

/-! ### Checks (R175, R176) -/

/-- The precise traps of the frame's range: alignment, the probe, and its class. -/
def State.frameCheck (s : State) (id : Nat) (h : Hart) (base : Nat) (k : AKind) : Option (Cause × Nat) :=
  if base % 65536 ≠ 0 then some (.align, base)
  else
    match s.probe1 (h.who id) { e := 0, va := base, n := frameSize, k := k, al := 1 } with
    | some f => some f
    | none =>
      (s.pieces (h.who id) base frameSize).findSome? fun p =>
        if pathOf p.2.2 == .device || s.lossless (p.2.2.pa / 65536) then some (.attrconfl, p.1) else none

/-! ### Stopping the engines (R102, R326, R342, R362) -/

/-- A VMU instruction has performed a part of an element group of device-class accesses. -/
def Entry.midDevice (e : Entry) : Bool :=
  (vmuOp e.op).isSome && e.started && e.part.seen && e.part.cnt != e.progress

/-- A device-class write of an engine instruction of a hart is held (R362). -/
def State.engineDevice (s : State) (id : Nat) : Bool :=
  s.dies.any fun x => x.2.held.any fun w => w.device &&
    (match w.master with
     | .engine i _ _ => i == id
     | _ => false)

/-- The held writes of a hart's engine instructions are withdrawn (R362). -/
def State.withdrawEngines (s : State) (id : Nat) : State :=
  let s1 := s.dropHeldOf fun w => match w.master with
    | .engine i _ _ => i == id
    | _ => false
  s1.modHart id fun h =>
    { h with vq := h.vq.map fun v => { v with e := { v.e with held := false } },
             mq := h.mq.map fun e => { e with held := false }, sq := h.sq.map fun e => { e with held := false } }

/-- What a frame keeps of an entry (R102, R103): a stream its exact progress (R326), a VMU instruction the start of its
element group, an XDEC its oldest block (R342), a TALLOC that waits nothing of its wait (R267), the others the start of their
element group. Each probes again (R129). -/
def Entry.kept (h : Hart) (q : Queue) (e : Entry) : Entry :=
  let e := { e.unprobed with held := false, sub := 0, ran := [] }
  match q with
  | .stream =>
    let e1 := { e with inflight := [], res := [] }
    if !e.started then e1
    else
      { e1 with progress := (h.slotHeld e).progress, eff := (if e.form == .gang then 1 else e.eff),
                part := { e.part with seen := e.part.seen || e.form == .indirect || e.form == .pattern,
                                      cnt := if e.form == .send then e.part.cnt else 0 } }
  | .matrix => if (tallocTile e.op).isSome then { e with started := false, part := Partial.none } else e
  | .vector => if (vmuOp e.op).isSome && e.started then e.rewind else e.xdStop

/-- A dropped fault recurs on re-issue, and a freeze ends (R175); MODE of an XDEC whose fault is dropped is 0 (R341). -/
def Entry.released (h : Hart) (q : Queue) (e : Entry) : Entry :=
  let e1 := { e with stopped := false, frozen := none }
  if h.faultIn q e.slot && (xdecOp e.op).isSome then e1.setXd { e1.xd with mode := 0 } else e1

/-- What a frame keeps of a hart; VFRAME.SAVE drops faults and freezes, the thermal save keeps them (R362, R393). -/
def Hart.kept (h : Hart) (drop : Bool) : Hart :=
  let f : Queue → Entry → Entry := fun q e => if drop then (e.kept h q).released h q else e.kept h q
  { h with vq := h.vq.map fun v => { v with e := f .vector v.e }, mq := h.mq.map (f .matrix), sq := h.sq.map (f .stream),
           slots := h.slots.map fun t => if drop then { t with stopped := false } else t,
           faults := if drop then [] else h.faults, qstop := if drop then false else h.qstop, held := none,
           bar := h.bar.filter fun b => b.1 / 2 ^ 32 == 3, lcache := [] }

/-- The tiles assigned to a hart, by tile number (R259). -/
def State.heldTiles (s : State) (id : Nat) : List (Nat × Tile) :=
  (s.core (coreOf id)).tiles.toList.zipIdx.filterMap fun t => if t.1.held = some id then some (t.2, t.1) else none

/-- The grant indices whose contents lie in the spill area: those of spilled groups, and those that a pending re-deal has still
to read there (R84, R87). -/
def Hart.inSpill (h : Hart) : List Nat := h.spilledIdx ++ h.vq.flatMap fun v => v.redeal.elim [] Redeal.spilled

/-- The record of a save by a hart, at its end: `emergency` for the thermal save, `dur` the ns that it lasted. Spilled
groups come from the spill area (R103). -/
def State.frameRecord (s : State) (id : Nat) (h : Hart) (emergency : Bool) (dur : Nat) : SavedFrame :=
  { gen := s.fresh, saver := id, emergency := emergency, ctx := h.ctx, ctxGen := (s.ctx h.ctx).gen, svh := h.svh,
    hart := (s.readSpill id h h.inSpill).kept (!emergency), tiles := s.heldTiles id, duration := dur,
    stepLeft := h.step.map fun r => r.d - (s.drc (stnOf id) : Int), consumed := false }

/-! ### The bytes of a frame (R104, R259) -/

/-- A byte of a part of the frame whose layout is opaque. -/
def frameByte (gen o : Nat) : Byte := Config.freeByte gen o

/-- Offset in the control state at which this model finds the save generation, each byte under an opaque mask (log 6). -/
def genOffset : Nat := 0x10

/-- The save generation as the control state holds it. -/
def genBytes (gen : Nat) : List Byte :=
  List.zipWith (fun (b : Byte) o => b ^^^ frameByte 0 o) (toBytes 8 gen) (span genOffset 8)

/-- The save generation that bytes of a control state name. -/
def genOf (bs : List Byte) : Nat :=
  ofBytes (List.zipWith (fun (b : Byte) o => b ^^^ frameByte 0 o) bs (span genOffset 8))

/-- The bytes of a tile: its accumulators, 17 bytes each. -/
def tileBytes (t : Tile) : List Byte := (List.range 8192).flatMap fun i => toBytes 17 (getD t.acc i 0)

/-- The opaque bytes of an offset range. -/
def opaqueBytes (gen o n : Nat) : List Byte := (span o n).map (frameByte gen)

/-- Lines of a strip buffer in the group of grant index j, at their lane-cache positions: ascending (R252, log 24). -/
def Strip.groupLines (t : Strip) (j : Nat) : List Nat := (bufLines t.buf).reverse.filter fun l => find? t.at_ l == some j

/-- The data of a buffered line, bytes that are not buffered 0. -/
def Strip.lineBytes (t : Strip) (l : Nat) : List Byte := (span (64 * l) 64).map fun a => (find? t.buf a).getD 0

/-- The record of a buffered line (R104): its virtual address and its byte mask. -/
def Strip.lineRecord (t : Strip) (l : Nat) : List Byte :=
  toBytes 8 (64 * l) ++ toBytes 8 (natOfBits ((span (64 * l) 64).map fun a => (find? t.buf a).isSome))

/-- One grant-index region (R104): the banks, the strip lines beyond them, the mask array, the tags in region 0, and the
records of the strip lines. -/
def groupSegs (gen : Nat) (h : Hart) (j : Nat) : List (Nat × List Byte) :=
  let o := 0x10000 + j * 0x20000
  let banks := banksOf h.vcfg * 0x1000
  let lines := h.strip.elim [] fun t => t.groupLines j
  let data := h.strip.elim [] fun t => lines.flatMap t.lineBytes
  let recs := h.strip.elim [] fun t => lines.flatMap t.lineRecord
  [(o, h.bankBytes j), (o + banks, data ++ List.replicate (0x10000 - banks - data.length) 0), (o + 0x10000, h.maskBytes j)] ++
    (if j = 0 then [(o + 0x14000, opaqueBytes gen (o + 0x14000) 0x800)] else []) ++
    (if recs.isEmpty then [] else [(o + 0x14800, recs)])

/-- The header of a frame. -/
def frameHeader (id size : Nat) : List Byte := toBytes 4 frameMagic ++ toBytes 2 1 ++ toBytes 2 id ++ toBytes 8 size

/-- The bytes that a save writes, by frame offset. -/
def frameSegs (f : SavedFrame) (size : Nat) : List (Nat × List Byte) :=
  [(0, frameHeader f.saver size), (genOffset, genBytes f.gen),
   (genOffset + 8, opaqueBytes f.gen (genOffset + 8) (0x10000 - genOffset - 8))] ++
  ((List.range (min 64 f.hart.gcount)).flatMap (groupSegs f.gen f.hart)) ++
  (f.tiles.zipIdx.map fun t => (0x810000 + t.2 * 0x22000, tileBytes t.1.2))

/-- Bytes of a frame written (R104). -/
def frameWritten (f : SavedFrame) : Nat := (frameSegs f 0).foldl (fun n x => n + x.2.length) 0

/-! ### VFRAME.SAVE (R175) -/

/-- The hart's vector state at the values of SPAWN, its queues empty, its groups but index 0 released (R175). -/
def Hart.cleared (h : Hart) (seed : Nat) : Hart :=
  { h.undefRegs seed with
    vl := 0, vtype := vtypeIll, vcfg := 0x802, vgrant := 0x10001, tshape := 0x8000000000000000, vq := [], mq := [], sq := [],
    slots := Vector.replicate 8 Slot.reset, binds := [], ilk := [], faults := [], qstop := false, strip := none,
    sbpend := [], flushAt := 0, deficit := 0, sliceHead := none, lcache := [],
    groups := (h.groups.filter fun g => g.idx == 0).map fun g => { g with st := .granted } }

/-- A member of a gang or a barrier, renamed. -/
def renameWho (a b w : Who) : Who := if w = a then b else w

/-- The membership and the arrival of a gang member pass from one holder to another (R162, R175). -/
def State.renameMember (s : State) (k : Nat) (a b : Who) (mcast : Nat) : State :=
  let s1 := match s.gang? k with
    | none => s
    | some g =>
      { s with gangs := put s.gangs k { g with
          members := g.members.map fun m => if m.who = a then { m with who := b, mcast := mcast } else m } }
  match find? s1.barriers (3 * 2 ^ 32 + k) with
  | none => s1
  | some x => { s1 with barriers := put s1.barriers (3 * 2 ^ 32 + k) { x with arrived := x.arrived.map (renameWho a b) } }

/-- A hart stops counting at the barriers of its core and station (R162). -/
def State.leaveBars (s : State) (id ctx : Nat) : State :=
  (s.barLeave (.hart id) (2 ^ 32 + ctx * 2 ^ 16 + coreOf id)).barLeave (.hart id) (2 * 2 ^ 32 + ctx * 2 ^ 16 + stnOf id)

/-- The frame is written and the hart's vector state reset: VFRAME.SAVE after its checks and its release. -/
def State.saveFrame (s : State) (id : Nat) (h : Hart) (d base : Nat) : State :=
  let dur := Config.duration s.tick
  let s1 := s.elapse dur
  let h := (s1.hart? id).getD h
  let f := s1.frameRecord id h false dur
  let size := frameWritten f
  let s2 := (frameSegs f size).foldl (fun s x => s1.fillVa s id (h.who id) (base + x.1) x.2) s1
  let h1 := ((({ (h.cleared (s1.fresh + 1)).closeStep with gang := none, mcast := 0, bar := [], barPc := none, saved := true }).setG d
    (w64 size)).advance)
  let s3 := ({ s2 with frames := s2.frames ++ [f] }.setHart id h1).freeTiles id true
  let s4 := match h.gang with
    | some g => s3.renameMember g.1 (.hart id) (.saved f.gen) h.mcast
    | none => s3
  (s4.leaveBars id h.ctx).bump 41

def execVframeSave (d a : Nat) (s : State) : Out :=
  supOnly s (.vframeSave d a) fun id h =>
    let base := (h.rg a).toNat
    if h.ilkHit h.seq base (base + frameSize) true [] || s.walkAway (h.who id) base frameSize then .next s
    else
    match s.frameCheck id h base .w with
    | some (c, v) => trapAt s id h c (w64 v)
    | none =>
      if (h.vq.any fun v => v.e.midDevice) || s.engineDevice id then .next s
      else
        let r := (s.withdrawEngines id).releaseHome id 6 (heldOf (.hart id) h.ctx (Config.failedAddress s.tick) false .again)
        match r.1.hart? id with
        | some h' => .next (if r.2 then r.1.saveFrame id h' d base else r.1)
        | none => .next r.1

/-! ### VFRAME.RESTORE (R105, R108, R176) -/

/-- The frame at a virtual address: none while the read of its header waits, and else its record, when that header is right and
it has not been consumed. -/
def State.frameAt (s : State) (id : Nat) (h : Hart) (base : Nat) : State × Option (Option SavedFrame) :=
  match s.translate (h.who id) base with
  | none => (s, some none)
  | some x =>
    let r := s.readBytes id 24 x (heldAt id h base x .again)
    match r.2 with
    | none => (r.1, none)
    | some bs =>
      let f : Nat → Nat → Nat := fun o n => ofBytes ((bs.drop o).take n)
      if f 0 4 ≠ frameMagic ∨ f 4 2 ≠ 1 then (r.1, some none)
      else
        (r.1, some (r.1.frames.find? fun g =>
          g.gen == genOf (bs.drop genOffset) && !g.consumed && g.saver == f 6 2 &&
          (g.emergency || ((s.ctx g.ctx).live && (s.ctx g.ctx).gen == g.ctxGen))))

/-- The gang number that GANGERR reports: the frame records a gang of another die, or one that has gone. -/
def State.frameGang (s : State) (id : Nat) (f : SavedFrame) : Option Nat :=
  match f.hart.gang with
  | none => none
  | some (k, _) => if k / 256 % 256 ≠ dieOf id || (s.gang? k).isNone then some (k % 256) else none

/-- Groups that a captured VL needs under a VCFG and its captured VTYPE. -/
def groupsFor (vcfg vtype : W64) (vl : Nat) : Nat :=
  let e := epl vcfg (VT.of vtype)
  if (VT.of vtype).vill || e == 0 then 0 else ceilDiv vl (256 * e)

/-- Groups whose strip buffer holds the saved lines (R252). Where CAP is below the number of lines, no count of groups has a
capacity C that holds them: CAP is then left out of account, and the lane lines alone give the count (DESIGN CHOICE, log
24). -/
def Hart.stripNeed (h : Hart) : Nat :=
  match h.strip with
  | none => 0
  | some t => ceilDiv (bufLines t.buf).length (max 1 ((16 - banksOf h.vcfg) * 64))

/-- Gneed (R105, R252); a gang member holds GG groups (R71). -/
def Hart.gneed (h : Hart) : Nat :=
  match h.gang with
  | some _ => h.gcount
  | none =>
    let es := (h.vq.map fun v => v.e) ++ h.mq ++ h.sq
    es.foldl (fun n e => max n (groupsFor h.vcfg e.vtype e.vl)) (max (max 1 h.stripNeed) (groupsFor h.vcfg h.vtype h.vl))

/-- Elements of an operand of g registers at width w that exist under a geometry. -/
def Geo.capacity (G : Geo) (g w : Nat) : Nat := G.L * (g * G.R / max 1 w)

/-- The registers of a frame under the lanes of a new grant (R105): every operand is kept, delimited by GROUP. -/
def Hart.redealAll (h : Hart) (lanes seed : Nat) : Hart :=
  if h.lanes = lanes then h
  else
    let G0 := h.geo
    let G1 : Geo := { L := lanes, R := G0.R }
    let g := max 1 (redealGroup h.vtype)
    let blank : Vector VReg 32 := Vector.ofFn fun i => VReg.undef (seed + i.val)
    let v := (List.range (nregOf h.vcfg / g)).foldl (fun v q =>
      let k := q * g
      match (vreg h.v k).tag with
      | none => v
      | some t =>
        let v := mapRegs v k g fun j x => { x with tag := (vreg h.v (k + j)).tag }
        (List.range (min (G0.capacity g t.w) (G1.capacity g t.w))).foldl (fun v e =>
          if elemKnown h.v G0 k g t.w e then writeElem v G1 k g t.w e (readElem h.v G0 k g t.w e) else v) v) blank
    let low := 2 ^ (64 * min G0.L lanes) - 1
    let m : Vector BitStore 8 := Vector.ofFn fun i =>
      let b := mreg h i.val
      { seed := seed + 32 + i.val, fills := b.fills.map fun f => (f.1, f.2 &&& low), known := b.known &&& low,
        val := b.val &&& low }
    { h with v := v, m := m }

/-- A saved re-deal entry under the lanes of a new grant. -/
def VItem.redealt (v : VItem) (lanes : Nat) : VItem :=
  { v with redeal := v.redeal.map fun r => { r with lOld := lanes, lNew := lanes, spilled := [] } }

/-- The lines of a strip in the groups of a new grant, `cap` lines in each, ascending (R252, log 24). -/
def Strip.spread (t : Strip) (cap : Nat) : Strip :=
  { t with at_ := (bufLines t.buf).reverse.zipIdx.map fun l => (l.1, l.2 / max 1 cap) }

/-- The state of a frame in a hart that holds `g` groups (R103, R105). -/
def Hart.loaded (h sh : Hart) (g deficit seed : Nat) : Hart :=
  let r := sh.redealAll (256 * g) seed
  { h with
    vl := sh.vl, vtype := sh.vtype, vcfg := sh.vcfg, vgrant := vgrantOf g deficit, tshape := sh.tshape,
    tkroute := sh.tkroute, srseed := sh.srseed, srctr := sh.srctr, fflags := sh.fflags, prio := sh.prio, sbcap := sh.sbcap,
    fstat := sh.fstat, stepid := sh.stepid, vq := sh.vq.map fun v => v.redealt (256 * g), mq := sh.mq, sq := sh.sq,
    seq := sh.seq, slots := sh.slots, binds := sh.binds, tok := sh.tok, ilk := sh.ilk, convoy := none, xacc := sh.xacc,
    v := r.v, m := r.m, strip := sh.strip.map fun t => t.spread sh.laneLines, sbpend := sh.sbpend, flushAt := sh.flushAt,
    barPc := sh.barPc, stale := sh.stale, gang := sh.gang, mcast := sh.mcast,
    bar := sh.bar, faults := sh.faults, qstop := sh.qstop, deficit := deficit, wait := none, saved := false, lcache := [] }

/-- The step that a frame reopens (R380): `left` is D - DRC at the end of its save, `dur` the restore's duration. -/
def Hart.reopen (h : Hart) (sh : Hart) (left : Option Int) (t : Station) (drc dur : Nat) : Hart :=
  match sh.step, left with
  | some r, some l =>
    let d : Int := (drc : Int) + l - (dur : Int)
    { h with step := some { r with d := d }, stepid := sh.stepid, dlslack := slack64 (d - (drc : Int) - (t.guardNs : Int)) }
  | _, _ => { h with step := none, stepid := sh.stepid &&& 0x7FFFFFFFFFFFFFFF, dlslack := noSlack }

/-- SVH of a hart that joins a context by a restore (R152, R176). -/
def State.restoreSvh (s : State) (id ctx : Nat) (svh : Bool) : State :=
  if svh then s.claimSvh id ctx else s.modHart id fun h => { h with status := h.status &&& ~~~svhBit }

/-- The reports of the frozen masters of a thermal save are raised again (R393). -/
def State.reportFrozen (s : State) (id : Nat) : State :=
  match s.hart? id with
  | none => s
  | some h =>
    [Queue.vector, .matrix, .stream].foldl (fun s q => (h.entries q).foldl (fun s e =>
      match e.frozen with
      | some r => s.raiseFrozen h.ctx (handleEngine id h.ctx r q e.slot)
      | none => s) s) s

/-- The hart holds its grant: its tiles and its state are loaded, and the frame is gone (R105, R108, R259). -/
def State.restoreLoad (s : State) (id : Nat) (h : Hart) (d : Nat) (f : SavedFrame) : State :=
  let dur := Config.duration s.tick
  let s1 := { s.elapse dur with frames := s.frames.filter fun x => x.gen != f.gen }
  let s2 := f.tiles.foldl (fun s t => s.setTile id t.1 { t.2 with held := some id, last := some f.ctx }) s1
  let sl := (s2.ctx f.ctx).slice
  let k := stnOf id
  let h1 := ((h.setG d (w64 h.groups.length)).advance).loaded f.hart h.groups.length h.deficit s1.fresh
  let h2 := h1.reopen f.hart f.stepLeft (s2.stn k) (s2.drc k) dur
  let h3 := { h2 with effective := some (min 0xFFFFFFFF (max sl (2 * (f.duration + dur)))), sliceStart := s2.now,
                      sliceHead := h2.vq.head?.map fun v => v.e.seq }
  let s3 := (s2.setHart id h3).bump 40
  let s4 := match f.hart.gang with
    | some g => s3.renameMember g.1 (.saved f.gen) (.hart id) f.hart.mcast
    | none => s3
  match f.hart.frozen with
  | some t => (s4.freezeHart id h3 f.hart.frozenReason t).reportFrozen id
  | none => s4.reportFrozen id

/-- The tiles of a frame are free, and no other waiter comes first (R259). -/
def State.tilesReady (s : State) (id : Nat) (f : SavedFrame) : Bool :=
  f.tiles.all fun t =>
    (s.tile id t.1).held.isNone && (match s.tileFirst (coreOf id) t.1 with
      | some i => i == id
      | none => true)

/-- The attempt of a VFRAME.RESTORE that has consumed its frame (R105): it waits for groups and for tiles. -/
def State.restoreTry (s : State) (id d gen : Nat) : State :=
  match s.hart? id, s.frames.find? fun f => f.gen == gen with
  | some h, some f =>
    let want := f.hart.gcount
    let w : Hart := { h with wait := some (.restore d gen), waitSince := if h.wait.isSome then h.waitSince else s.tick,
                             deficit := want - h.groups.length }
    let r := (s.setHart id w).yardGrant id want
    if decide (r.2 < f.hart.gneed) || !r.1.tilesReady id f then s.setHart id w
    else
      match r.1.hart? id with
      | some h' => r.1.restoreLoad id h' d f
      | none => r.1
  | _, _ => s

/-- The accumulators of a tile region (R259), at a virtual address, as the hart's station reads them. -/
def State.tileRead (s : State) (id : Nat) (c : Who1) (va : Nat) : List (Nat × Nat) :=
  (((s.pieces c va 0x22000).foldl (fun (l : List (Nat × Nat)) p =>
    (s.viewCells (stnOf id) p.2.2.pa p.2.1).foldl (fun (l : List (Nat × Nat)) b =>
      let o := p.1 - va + (b.1 - p.2.2.pa)
      put l (o / 17) (getD l (o / 17) 0 + b.2.toNat * 2 ^ (8 * (o % 17)))) l) []).map
    fun a => (a.1, a.2 % 2 ^ 136)).filter fun a => decide (a.1 < 8192) && a.2 != 0

/-- The strip buffer of a frame, from its line records and their data (R252). -/
def State.readStrip (s : State) (id : Nat) (c : Who1) (base : Nat) (h : Hart) (t : Strip) : Strip :=
  let cells := (List.range h.gcount).flatMap fun j =>
    let o := base + 0x10000 + j * 0x20000
    let n := (t.groupLines j).length
    let recs := chop 16 n (s.readVa id c (o + 0x14800) (16 * n))
    let data := chop 64 n (s.readVa id c (o + banksOf h.vcfg * 0x1000) (64 * n))
    (recs.zip data).flatMap fun x =>
      let va := ofBytes (x.1.take 8) / 64 * 64
      x.2.zipIdx.filterMap fun b => if (ofBytes (x.1.drop 8)).testBit b.2 then some (va + b.2, b.1) else none
  { t with buf := cells.foldl (fun (l : List Host.Cell) (b : Host.Cell) => put l b.1 b.2) [] }

/-- What a frame in memory holds of its hart's lanes: banks, masks and strip buffer (R104, R252). -/
def State.readLanes (s : State) (id : Nat) (c : Who1) (base : Nat) (h : Hart) : Hart :=
  let g := (List.range h.gcount).foldl (fun g j => s.readGroup id c g j (base + 0x10000 + j * 0x20000)) h
  { g with strip := h.strip.map (s.readStrip id c base h) }

/-- The frame's checks are passed: it is consumed, the hart's vector state goes, and the hart asks for its grant. A gang
member leaves its gang first (DESIGN CHOICE, log 46). -/
def State.restoreBegin (s : State) (id : Nat) (h : Hart) (d base : Nat) (f : SavedFrame) : State :=
  let load : (Nat × Tile) × Nat → Nat × Tile := fun t =>
    (t.1.1, { t.1.2 with acc := s.tileRead id (h.who id) (base + 0x810000 + t.2 * 0x22000) })
  let f' : SavedFrame :=
    { f with consumed := true, tiles := f.tiles.zipIdx.map load, hart := s.readLanes id (h.who id) base f.hart }
  let s1 := { s with frames := s.frames.map fun (x : SavedFrame) => if x.gen = f.gen then f' else x }
  let s2 := (s1.leaveGang id).freeTiles id true
  let s3 := s2.modHart id fun h => { (h.cleared s.fresh).closeStep with ctx := f.ctx, prio := f.hart.prio, saved := false }
  let s4 := ((s3.bump 40).leaveBars id h.ctx).restoreSvh id f.ctx f.svh
  (if f.emergency then s4.liveCtx f.ctx else s4).restoreTry id d f.gen

def execVframeRestore (d a : Nat) (s : State) : Out :=
  supOnly s (.vframeRestore d a) fun id h =>
    let base := (h.rg a).toNat
    if h.rangeWaits h.seq (base, base + frameSize, false) || s.walkAway (h.who id) base frameSize then .next s
    else
    match s.frameCheck id h base .r with
    | some (c, v) => trapAt s id h c (w64 v)
    | none =>
      let r := (s.acquire id 6).frameAt id h base
      match r.2 with
      | none => .next r.1
      | some none => trapAt r.1 id ((r.1.hart? id).getD h) .framebad (w64 base)
      | some (some f) =>
        match r.1.frameGang id f with
        | some n => trapAt r.1 id ((r.1.hart? id).getD h) .gangerr (w64 n)
        | none => if !h.idleQueues then .next r.1 else .next (r.1.restoreBegin id h d base f)

/-- VFRAME_RESTORE_GRANT (R105): a waiting restore asks again. -/
def execVframeRestoreGrant (id : Nat) (s : State) : Out :=
  match (s.hart? id).bind fun h => h.wait with
  | some (.restore d gen) => .next (s.restoreTry id d gen)
  | _ => .next s

/-! ### PREEMPT (R108, R109) -/

/-- PREEMPT is held back: the instruction that was oldest when the slice began has not moved. -/
def Hart.heldBack (h : Hart) : Bool :=
  match h.sliceHead with
  | some k => h.vq.any fun v => v.e.seq == k
  | none => false

/-- The slice timer of a hart runs: SLICE is not 0, and the hart is neither saved nor restoring (R108). -/
def Hart.sliced (h : Hart) (slice : Nat) : Bool :=
  decide (0 < slice) && !h.saved && (match h.wait with
    | some (.restore _ _) => false
    | _ => true)

/-- PREEMPT (R108): the slice timer has reached EFFECTIVE, and a new slice begins. It is raised at once too where a write
of SLICE sets EFFECTIVE to a value that the timer has passed already: R108 names only the timer's reaching it (DESIGN CHOICE,
log 32). -/
def execPreempt (id : Nat) (s : State) : Out :=
  match s.hart? id with
  | none => .next s
  | some h =>
    let sl := (s.ctx h.ctx).slice
    if !h.sliced sl || h.heldBack || decide (s.now < h.sliceStart + h.effective.getD sl) then .next s
    else
      let first := h.vq.head?.map fun v => v.e.seq
      .next (s.setHart id ({ h with sliceStart := s.now, sliceHead := first }.raise ipPreempt 0))

/-! ### The emergency save (R393 to R395, R397) -/

/-- A held device-class write of a hart, or of its engine instructions. -/
def State.deviceHeld (s : State) (id : Nat) : Option (Nat × HeldWrite) :=
  s.dies.findSome? fun x => (x.2.held.find? fun w => w.device && w.master.ofHart id).map fun w => (x.1, w)

/-- A hart that waits for the groups of a GANG.JOIN leaves the gang: it executes the GANG.JOIN again once restored (R393). -/
def State.leaveJoin (s : State) (id : Nat) : State :=
  match (s.hart? id).bind fun h => h.wait with
  | some (.yard _ _ _ _) => s.leaveGang id
  | _ => s

/-- The stop of a hart for the thermal save (R362): held device-class writes are cancelled, and the element group of such a
write is finished; the other held writes are withdrawn. -/
def State.emergencyStop (s : State) (id : Nat) : (fuel : Nat) → State
  | 0 => s.withdrawEngines id
  | k + 1 =>
    match s.deviceHeld id with
    | some (d, w) => State.emergencyStop (s.cancelHeld d w) id k
    | none =>
      match s.hart? id with
      | none => s
      | some h =>
        match h.vq.head? with
        | some v =>
          (match (if v.e.midDevice then (vmuOp v.e.op).bind fun o => o.move s id h v.e else none) with
           | some s' => s'.emergencyStop id k
           | none => (s.dropHeldOf fun w => w.master.ofHart id).withdrawEngines id)
        | none => (s.dropHeldOf fun w => w.master.ofHart id).withdrawEngines id

/-- Bytes at a device-physical address. -/
def State.fillPa (s : State) (pa : Nat) (bs : List Byte) : State :=
  (span (pa / 65536) ((pa + bs.length + 65535) / 65536 - pa / 65536)).foldl (fun s fr => s.warmFrame fr) (s.fillMem pa bs)

/-- The area header (R395). -/
def areaHeader (d egen live : Nat) : List Byte :=
  let b := toBytes 4 0x4C584548 ++ toBytes 2 1 ++ toBytes 2 d ++ toBytes 8 egen ++ toBytes 8 live
  b ++ toBytes 4 (crc32c b) ++ toBytes 36 0

/-- The first 64 bytes of a record (R394). -/
def recordHeader (hart seq ctx len : Nat) : List Byte :=
  toBytes 4 0x4C584553 ++ toBytes 2 1 ++ toBytes 2 hart ++ toBytes 8 seq ++ toBytes 1 ctx ++ toBytes 7 0 ++ toBytes 8 len ++
    toBytes 32 0

/-- The scalar state of a record (R394). -/
def scalarBytes (h : Hart) : List Byte :=
  ((List.range 32).flatMap fun i => toBytes 8 (h.rg i).toNat) ++ ((List.range 16).flatMap fun i => toBytes 4 (h.rf i).toNat) ++
    [h.pc, h.status, h.trapCause, h.trappc, h.trapval, h.trapvec].flatMap fun x => toBytes 8 x.toNat

/-- Bytes of a frame up to its last region in use. -/
def frameExtent (f : SavedFrame) : Nat :=
  if f.tiles.isEmpty then 0x10000 + f.hart.gcount * 0x20000 else 0x810000 + f.tiles.length * 0x22000

/-- The seal of a record (R394), over the bytes before it. -/
def State.seal (s : State) (a n seq : Nat) : State :=
  s.fillPa (a + n) (toBytes 4 0x4C585345 ++ toBytes 4 (crc32c (Memory.readN s.mem a n)) ++ toBytes 8 seq)

/-- The next record's place (R395). -/
def nextRecord (a n : Nat) : Nat := ceilDiv (a + n + 16) 64 * 64

/-- One record of a hart at address a, but for its seal (R380, R394): the state with its bytes and its frame's record, at the
end of its save. -/
def State.writeRecord (s0 : State) (id : Nat) (h : Hart) (a seq : Nat) : State :=
  let dur := Config.duration s0.tick
  let s := s0.elapse dur
  let h := (s.hart? id).getD h
  let f := s.frameRecord id h true dur
  let len := 0x170 + frameExtent f
  let s1 := ((s.fillPa a (recordHeader id seq h.ctx len)).fillPa (a + 0x40) (scalarBytes h))
  let s2 := (frameSegs f (frameWritten f)).foldl (fun s x => s.fillPa (a + 0x1B0 + x.1) x.2) s1
  let s3 := match h.gang with
    | some g => s2.renameMember g.1 (.hart id) (.saved f.gen) h.mcast
    | none => s2
  { s3 with frames := s3.frames ++ [f] }.bump 1

/-- The harts of a die in the order of their records (R393): contexts by their highest PRIO. -/
def State.recordOrder (s : State) (d : Nat) : List (Nat × Hart) :=
  let top : Nat → Nat := fun c => s.harts.foldl (fun m p => if p.2.ctx = c then max m p.2.prio else m) 0
  let before : Nat × Hart → Nat × Hart → Bool := fun a b =>
    if top a.2.ctx ≠ top b.2.ctx then decide (top b.2.ctx < top a.2.ctx)
    else if a.2.ctx ≠ b.2.ctx then decide (a.2.ctx < b.2.ctx) else decide (a.1 ≤ b.1)
  sortBy before (s.harts.filter fun p => dieOf p.1 == d)

/-- The records of a die, from record n at address a, while they fit below `top`; then the final record and STATE 11. Each
record is written in two parts, its bytes and then its seal; after `parts` of them the save is cut off (R396). -/
def State.writeRecords (s : State) (d egen top : Nat) : (l : List (Nat × Hart)) → (n a parts : Nat) → State
  | [], n, a, parts =>
    let seq := egen * 2 ^ 32 + n
    if parts = 0 then s
    else
      let fits := decide (a + 80 ≤ top)
      let s1 := if fits then s.fillPa a (recordHeader 0x1FFF seq 0 0) else s
      if parts = 1 then s1
      else
        let s2 := if fits then s1.seal a 64 seq else s1
        s2.setDie d { s2.die d with esstate := 3 }
  | p :: t, n, a, parts =>
    let f := s.frameRecord p.1 p.2 true 0
    let len := 0x40 + 0x170 + frameExtent f
    let seq := egen * 2 ^ 32 + n
    if parts = 0 then s
    else if top < a + len + 16 then s.setDie d { s.die d with esstate := 3 }
    else
      let s1 := s.writeRecord p.1 p.2 a seq
      if parts = 1 then s1 else State.writeRecords (s1.seal a len seq) d egen top t (n + 1) (nextRecord a len) (parts - 2)

/-- The save of one die (R393), cut off after `parts` parts: the area header, its CRC, the records. A die with STATE 00 writes
nothing (R397). -/
def State.dieSave (s : State) (live d parts : Nat) : State :=
  let x := s.die d
  let b := areaHeader d x.egen live
  if x.esstate = 0 then s
  else
    let s0 := s.setDie d { x with esstate := 2 }
    if parts = 0 then s0
    else
      let s1 := (s0.fillPa x.esbase (b.take 24)).fillPa (x.esbase + 28) (b.drop 28)
      if parts = 1 then s1
      else
        (s1.fillPa x.esbase b).writeRecords d x.egen (x.esbase + x.essize * 65536) (s.recordOrder d) 1 (x.esbase + 0x40)
          (parts - 2)

/-- The contexts that are live, as a mask (R395). -/
def State.liveMask (s : State) : Nat :=
  (List.range 64).foldl (fun m c => if (s.ctx c).live then m + 2 ^ c else m) 0

/-- The harts stop and the dies save (R393), die d as far as `parts d` parts. -/
def State.saveAll (s : State) (parts : Nat → Nat) : State :=
  let live := s.liveMask
  let s1 := s.harts.foldl (fun s p => (s.emergencyStop p.1 (2 * p.2.lanes + 4)).leaveJoin p.1) s
  let s2 := allDies.foldl (fun s d => s.dieSave live d (parts d)) s1
  { s2 with harts := [] }.setPkg { s2.pkg with eshad := s1.harts.map fun (p : Nat × Hart) => (p.2.ctx, dieOf p.1) }

/-- The emergency save of the whole package (R393): then every core is stopped and the host is told (R405). -/
def State.emergency (s : State) : State :=
  let t := s.saveAll fun _ => 2 * s.harts.length + 4
  (t.setPkg { t.pkg with boot := 3 }).setHevt 5

/-- The trip level, °C (R391). -/
def tripLevel : Nat := 115

/-- A reading stands at or above CRIT, and the package has not saved yet (R393). -/
def State.saveDue (s : State) : Bool := s.pkg.boot != 3 && s.stations.any fun x => decide ((s.die (x.1 / 64)).crit ≤ x.2.temp)

/-- What the readings of the sensors make due (R393, R396): at or above CRIT the package saves; at the trip level the power
controller removes core power whatever CRIT is and whatever the save has reached, which is a free value for each die (log 29). -/
def State.hotMove (s : State) : Option State :=
  if !s.pkg.powered then none
  else if s.stations.any fun x => decide (tripLevel ≤ x.2.temp) then
    some (if s.saveDue then (s.saveAll fun d => Config.saveParts s.tick d).trip else s.trip)
  else if s.saveDue then some s.emergency
  else none

/-- EMERGENCY_SAVE (R393): a sensor's reading, and what it makes due. -/
def execEmergencySave (die stn temp : Nat) (s : State) : Out :=
  let s1 := s.sensed (64 * die + stn) (temp % 256)
  .next (s1.hotMove.getD s1)

/-! ### The scan at power-up (R396, R397) -/

/-- The live mask of a die's valid area header; a die with STATE 00 has saved nothing (R397). -/
def State.scanHeader (s : State) (d : Nat) : Option Nat :=
  let x := s.die d
  let f : Nat → Nat → Nat := fun o n => Memory.num s.mem (x.esbase + o) n
  if x.esstate ≠ 0 ∧ f 0 4 = 0x4C584548 ∧ f 0x18 4 = crc32c (Memory.readN s.mem x.esbase 24) ∧ f 8 8 = x.egen then some (f 0x10 8) else none

/-- The valid record at an address: hart, context, payload bytes. -/
def State.scanRecord (s : State) (a top seq : Nat) : Option (Nat × Nat × Nat) :=
  let f : Nat → Nat → Nat := fun o n => Memory.num s.mem (a + o) n
  let n := 0x40 + f 0x18 8
  if top < a + n + 16 then none
  else if f n 4 = 0x4C585345 ∧ f (n + 4) 4 = crc32c (Memory.readN s.mem a n) ∧ f 8 8 = seq ∧ f (n + 8) 8 = seq then
    some (f 6 2, f 0x10 1 % 64, f 0x18 8)
  else none

/-- The valid records of a die from record n at address a: the seals with their contexts, and whether the final record was
reached. -/
def State.scanRecords (s : State) (egen top : Nat) : (fuel n a : Nat) → List (Nat × Nat) × Bool
  | 0, _, _ => ([], false)
  | k + 1, n, a =>
    match s.scanRecord a top (egen * 2 ^ 32 + n) with
    | none => ([], false)
    | some (hart, ctx, len) =>
      if hart = 0x1FFF then ([], true)
      else
        let r := State.scanRecords s egen top k (n + 1) (nextRecord a (0x40 + len))
        ((a + 0x40 + len, ctx) :: r.1, r.2)

/-- What the scan of a die finds: the live mask of a valid header, the records, the final record. -/
def State.scanDie (s : State) (d : Nat) : Option (Nat × List (Nat × Nat) × Bool) :=
  let x := s.die d
  (s.scanHeader d).map fun live =>
    (live, s.scanRecords x.egen (x.esbase + x.essize * 65536) (x.essize * 1024) 1 (x.esbase + 0x40))

/-- The boot scan (R396, R397): ESKEPT, ESLOST, ESSCAN; the seals of lost contexts are overwritten; the areas are unarmed. -/
def State.bootScan (s : State) (had : List (Nat × Nat)) : State :=
  let found := allDies.filterMap fun d => (s.scanDie d).map fun r => (d, r)
  let live := found.foldl (fun m x => m ||| x.2.1) 0
  let whole := found.all fun x => x.2.2.2
  let keeps : Nat → Bool := fun c =>
    live.testBit c && whole && (had.all fun p => p.1 != c || found.any fun x => x.1 == p.2)
  let kept := (List.range 64).foldl (fun m c => if keeps c then m + 2 ^ c else m) 0
  let lost := live - kept
  let st := if !found.isEmpty then 1 else if allDies.any fun d => decide (2 ≤ (s.die d).esstate) then 2 else 0
  let s1 := (found.flatMap fun x => x.2.2.1).foldl (fun s r =>
    if lost.testBit r.2 then s.fillPa r.1 (List.replicate 16 0) else s) s
  let s2 := allDies.foldl (fun s d => s.setDie d { s.die d with esstate := 0, arm := false }) s1
  s2.setPkg { s2.pkg with eskept := kept, eslost := lost, esscan := st, eshad := [] }

/-- The frames, gangs and barriers of the contexts found whole: they lie in the frames (R175, R396). -/
def State.keepFrames (s t : State) : State :=
  let ok : Nat → Bool := fun c => t.pkg.eskept.testBit c
  { t with frames := (s.frames.filter fun f => ok f.ctx).map fun f => { f with emergency := true },
           gangs := s.gangs.filter fun g => ok (g.1 / 65536),
           barriers := s.barriers.filter fun b => b.1 / 2 ^ 32 == 3 && ok (b.1 % 2 ^ 32 / 65536) }

/-- POWER_UP (R372, R396): core power returns, the counters of the stations start at 0; the package boots, and the save areas are scanned before any hart runs. -/
def execPowerUp (s : State) : Out :=
  if s.pkg.powered then .next s
  else
    let t := { s with now := 0 }.boot (hbmOnly s.mem)
    .next (if t.pkg.boot = 1 then s.keepFrames (t.bootScan s.pkg.eshad) else t)

end Sys2Proof.Machine
end

