-- ==== Sys2Proof/Machine/LoadStore.lean ====
section
/-! DEFINITION. Scalar loads and stores (R158). -/

namespace Sys2Proof.Machine

/-- A load into gD, sign-extended from n bytes or zero-extended. -/
def loadG (d a i n : Nat) (sgn : Bool) (s : State) : Out :=
  scalarLoad a i n (fun h x => h.setG d (if sgn then sext64 (8 * n) x else w64 x)) s

def execLb (d a i : Nat) (s : State) : Out := loadG d a i 1 true s
def execLbu (d a i : Nat) (s : State) : Out := loadG d a i 1 false s
def execLh (d a i : Nat) (s : State) : Out := loadG d a i 2 true s
def execLhu (d a i : Nat) (s : State) : Out := loadG d a i 2 false s
def execLw (d a i : Nat) (s : State) : Out := loadG d a i 4 true s
def execLwu (d a i : Nat) (s : State) : Out := loadG d a i 4 false s
def execLd (d a i : Nat) (s : State) : Out := loadG d a i 8 false s
def execFlw (d a i : Nat) (s : State) : Out := scalarLoad a i 4 (fun h x => h.setF d (BitVec.ofNat 32 x)) s
def execSb (d a i : Nat) (s : State) : Out := scalarStore a i 1 (fun h => (h.rg d).toNat) s
def execSh (d a i : Nat) (s : State) : Out := scalarStore a i 2 (fun h => (h.rg d).toNat) s
def execSw (d a i : Nat) (s : State) : Out := scalarStore a i 4 (fun h => (h.rg d).toNat) s
def execSd (d a i : Nat) (s : State) : Out := scalarStore a i 8 (fun h => (h.rg d).toNat) s
def execFsw (d a i : Nat) (s : State) : Out := scalarStore a i 4 (fun h => (h.rf d).toNat) s

end Sys2Proof.Machine
end

