-- ==== Sys2Proof/Machine/Sequencer.lean ====
section
/-! DEFINITION. The vector sequencer (R91 to R95), the refill of groups (R87), and the delivery of engine faults and
interrupts at an instruction boundary (R100, R180, R362). -/

namespace Sys2Proof.Machine

/-! ### The head of the vector queue -/

/-- The next move of the head of a hart's vector queue: its issue, an element group, or its retirement; none while it
waits. -/
def State.vMove (s : State) (id : Nat) : Option State :=
  match s.hart? id with
  | none => none
  | some h =>
    match h.vq with
    | [] => none
    | v :: _ =>
      if (h.qstop && !v.e.started) || !v.e.runnable then none
      else if v.redeal.isSome then (if h.redealReady v.e then some (s.redeal id) else none)
      else
        match vecSpec v.e.op, vmuOp v.e.op, xdecOp v.e.op with
        | some x, _, _ => if v.e.started then x.move s id h v.e else x.issue s id h v.e
        | none, some o, _ => o.headMove s id v.e.seq
        | none, none, some o => o.move s id h v.e
        | none, none, none => s.stripMove id h v.e

/-- The head of a hart's vector queue has started. -/
def State.vStarted (s : State) (id : Nat) : Bool :=
  match (s.hart? id).bind fun h => h.vq.head? with
  | some v => v.e.started
  | none => false

/-- One boundary to the next: the issue of an instruction that has not started, then one element group. -/
def State.vGroup (s : State) (id : Nat) : Option State :=
  if s.vStarted id then s.vMove id
  else
    (s.vMove id).map fun s1 => if s1.vStarted id then (s1.vMove id).getD s1 else s1

/-- CONVOY_START (R91, R92): the head of the vector queue starts. -/
def execConvoyStart (id : Nat) (s : State) : Out := .next (if s.vStarted id then s else (s.vMove id).getD s)

/-! ### Arbitration (R94, R95) -/

/-- The cores with a granted group of a hart. -/
def Hart.groupCores (h : Hart) (id : Nat) : List Nat := (stationCores id).filter fun k => h.groupsOn k != 0

/-- The cores that have still to run their part of the step in progress of the head of a hart's vector queue (R94). -/
def Hart.coresLeft (h : Hart) (id : Nat) : List Nat :=
  let all := h.groupCores id
  match h.vq with
  | [] => all
  | v :: _ =>
    let l := all.filter fun k => !v.e.ran.contains k
    if l.isEmpty then all else l

/-- The harts that are ready on a core, each with its level, ascending: those with a granted group there that has not run
its part, whose vector queue can move. -/
def State.readyOn (s : State) (core : Nat) : List (Nat × Nat) :=
  sortBy (fun a b => decide (a.1 ≤ b.1)) ((s.stationHarts (core / 4)).filterMap fun p =>
    if (p.2.coresLeft p.1).contains core && (s.vMove p.1).isSome then some (p.1, p.2.prio) else none)

/-- QUANTUM (R94), in element-beats. -/
def quantum : Int := 65536

/-- The turn of a level passes, in ascending order cyclically, until it reaches a hart whose credit is positive. -/
def Core.passTurn (c : Core) (level : Nat) (ids : List Nat) : (fuel : Nat) → Core
  | 0 => c
  | k + 1 =>
    match nextAfter (find? c.turns level) ids with
    | none => c
    | some i =>
      let x := getD c.credit i 0 + quantum
      let c' := { c with turns := put c.turns level i, credit := put c.credit i x }
      if 0 < x then c' else Core.passTurn c' level ids k

/-- The cycles without an issue after which a ready hart starves, and between starvation grants (R95). -/
def starveCycles : Nat := 2 ^ 20

/-- The core's record of who is ready at this boundary: a hart that never issued counts from when it was first ready (R95). -/
def Core.boundary (c : Core) (ready : List (Nat × Nat)) : Core :=
  { c with issued := c.issued ++ (ready.filter fun r => (find? c.issued r.1).isNone).map fun r => (r.1, c.clock),
           readyThen := ready.map Prod.fst }

/-- The ready hart that has gone longest, 2^20 cycles or more, without issuing, when the core may make a grant (R95). -/
def Core.starving (c : Core) (ready : List (Nat × Nat)) : Option (Nat × Nat) :=
  if c.starved.any fun t => decide (c.clock < t + starveCycles) then none
  else
    (sortBy (fun a b => decide (getD c.issued a.1 c.clock ≤ getD c.issued b.1 c.clock))
      (ready.filter fun r => decide (getD c.issued r.1 c.clock + starveCycles ≤ c.clock))).head?

/-- The hart of a higher level than `p` that became ready during the group just ended: the highest, then the lowest (R95). -/
def Core.newcomer (c : Core) (ready : List (Nat × Nat)) (p : Nat) : Option Nat :=
  ((sortBy (fun a b => decide (b.2 ≤ a.2)) (ready.filter fun r => decide (p < r.2) && !c.readyThen.contains r.1)).head?).map
    Prod.fst

/-- The highest level that has a ready hart, by deficit round robin (R94). A hart that holds the turn with positive credit
and is for a moment not ready loses the turn and keeps the credit (DESIGN CHOICE, log 46). -/
def Core.byTurn (c : Core) (ready : List (Nat × Nat)) : Option (Core × Nat) :=
  match (ready.map Prod.snd).max? with
  | none => none
  | some p =>
    let ids := (ready.filter fun r => r.2 == p).map Prod.fst
    let c' := match find? c.turns p with
      | some t => if ids.contains t && decide (0 < getD c.credit t 0) then c else c.passTurn p ids (3 * ids.length)
      | none => c.passTurn p ids (3 * ids.length)
    (find? c'.turns p).map fun i => (c', i)

/-- The hart that the sequencer of a core serves at a boundary: one that starves, or by turn (R94, R95). -/
def State.pick (s : State) (core : Nat) : Option (State × Nat) :=
  let ready := s.readyOn core
  let c := s.core core
  let c' := c.boundary ready
  match c'.starving ready with
  | some r =>
    match c.newcomer ready r.2 with
    | some i => some (s.setCore core c', i)
    | none => some (s.setCore core { c' with starved := some c'.clock }, r.1)
  | none => (c'.byTurn ready).map fun x => (s.setCore core x.1, x.2)

/-- What the sequencer of a core does for a hart: the issue of the head of its vector queue, then this core's part of its
next step, which the last core to run it performs (R94), or a retirement. -/
def State.portion (s : State) (core id : Nat) : Option State :=
  let s0 := if s.vStarted id then some s else s.vMove id
  match s0 with
  | none => none
  | some s1 =>
    if !s1.vStarted id then some s1
    else
      match s1.vMove id, s1.hart? id with
      | some t, some h =>
        if (t.core core).clock = (s1.core core).clock || (h.coresLeft id).all fun k => k == core then some t
        else
          let c := t.core core
          some ((s1.setCore core { s1.core core with credit := c.credit, clock := c.clock, issued := c.issued }).setHart id
            { h with vq := match h.vq with
                | v :: l => { v with e := { v.e with ran := core :: v.e.ran } } :: l
                | [] => [] })
      | _, _ => if s.vStarted id then none else some s1

/-- The sequencer of a core serves a hart; a move that runs no step leaves turns and credits as they are. -/
def State.serve (s : State) (core : Nat) : Option State :=
  match s.pick core with
  | none => none
  | some (s1, id) =>
    match s1.portion core id with
    | none => none
    | some t =>
      if (t.core core).clock = (s1.core core).clock then (s.portion core id).map fun t => t.endTurn id
      else some (t.endTurn id)

/-- ELEMENT_GROUP (R94). -/
def execElementGroup (core : Nat) (s : State) : Out := .next ((s.serve core).getD s)

/-- STARVATION_GRANT (R95): the grant is due to this hart. -/
def execStarvationGrant (core id : Nat) (s : State) : Out :=
  let ready := s.readyOn core
  let c := (s.core core).boundary ready
  .next (match c.starving ready with
    | some r => if r.1 = id && ((s.core core).newcomer ready r.2).isNone then (s.serve core).getD s else s
    | none => s)

/-- GROUP_REFILL (R87), before the issue of the head of the vector queue. -/
def execGroupRefill (id : Nat) (s : State) : Out :=
  match s.hart? id with
  | none => .next s
  | some h =>
    match h.vq with
    | [] => .next s
    | v :: _ =>
      if v.redeal.isSome || v.e.started || h.qstop || h.spilledIdx.isEmpty then .next s
      else .next ((s.refillFor id h v.e).getD s)

/-! ### Delivery at an instruction boundary (R100, R180) -/

/-- The hart may take a trap now: it is not frozen, not in a VFRAME.RESTORE that has consumed its frame, and not in a
GANG.JOIN that has made it a member and waits in the Yard: neither is a wait of R72 or R181 (DESIGN CHOICE, log 46). -/
def Hart.takes (h : Hart) : Bool := h.frozen.isNone && (h.wait.bind Wait.stays).isNone

/-- The hart takes a trap, once a held idempotent write is withdrawn; a device-class one holds the trap back (R362). -/
def State.trapNow (s : State) (id : Nat) (f : Hart → Hart) : State :=
  match s.withdraw id with
  | some s1 => s1.modHart id f
  | none => s

/-- TAKE_ENGINE_FAULT (R100, R180 item 1). -/
def execTakeEngineFault (id : Nat) (s : State) : Out :=
  match s.hart? id with
  | none => .next s
  | some h =>
    match (if h.takes then h.faultDue else none) with
    | some f => .next (s.trapNow id fun h => h.deliver f)
    | none => .next s

/-- An interrupt is taken (R179, R180 item 2): its IPEND bit clears. -/
def Hart.interrupt (h : Hart) (b : Nat) : Hart :=
  { h with ipend := h.ipend ^^^ (h.ipend &&& 2 ^ b) }.takeTrap true (ipCause b).code h.pc (vat h.ipval b 0)

/-- TAKE_INTERRUPT (R180 item 2): none while an engine fault is due. -/
def execTakeInterrupt (id : Nat) (s : State) : Out :=
  match s.hart? id with
  | none => .next s
  | some h =>
    match (if h.takes && h.faultDue.isNone then h.irq else none) with
    | some b => .next (s.trapNow id fun h => h.interrupt b)
    | none => .next s

end Sys2Proof.Machine
end

