-- ==== Sys2Proof/Machine/Vec.lean ====
section
/-! DEFINITION. The instructions of the VEC majors (R46, R201 to R223), each over the shared engine with its `VSpec`. -/

namespace Sys2Proof.Machine

def execVaddV (h : VHdr) (d a b : Nat) (s : State) : Out := vecExec (specVadd h d a (.v b)) (.vaddV h d a b) s
def execVaddVX (h : VHdr) (d a b : Nat) (s : State) : Out := vecExec (specVadd h d a .g) (.vaddVX h d a b) s
def execVsubV (h : VHdr) (d a b : Nat) (s : State) : Out := vecExec (specVsub h d a (.v b)) (.vsubV h d a b) s
def execVsubVX (h : VHdr) (d a b : Nat) (s : State) : Out := vecExec (specVsub h d a .g) (.vsubVX h d a b) s
def execVminV (h : VHdr) (d a b : Nat) (s : State) : Out := vecExec (specVmin h d a (.v b)) (.vminV h d a b) s
def execVminVX (h : VHdr) (d a b : Nat) (s : State) : Out := vecExec (specVmin h d a .g) (.vminVX h d a b) s
def execVmaxV (h : VHdr) (d a b : Nat) (s : State) : Out := vecExec (specVmax h d a (.v b)) (.vmaxV h d a b) s
def execVmaxVX (h : VHdr) (d a b : Nat) (s : State) : Out := vecExec (specVmax h d a .g) (.vmaxVX h d a b) s
def execVandV (h : VHdr) (d a b : Nat) (s : State) : Out := vecExec (specVbit Nat.land h d a (.v b)) (.vandV h d a b) s
def execVandVX (h : VHdr) (d a b : Nat) (s : State) : Out := vecExec (specVbit Nat.land h d a .g) (.vandVX h d a b) s
def execVorV (h : VHdr) (d a b : Nat) (s : State) : Out := vecExec (specVbit Nat.lor h d a (.v b)) (.vorV h d a b) s
def execVorVX (h : VHdr) (d a b : Nat) (s : State) : Out := vecExec (specVbit Nat.lor h d a .g) (.vorVX h d a b) s
def execVxorV (h : VHdr) (d a b : Nat) (s : State) : Out := vecExec (specVbit Nat.xor h d a (.v b)) (.vxorV h d a b) s
def execVxorVX (h : VHdr) (d a b : Nat) (s : State) : Out := vecExec (specVbit Nat.xor h d a .g) (.vxorVX h d a b) s
def execVsllV (h : VHdr) (d a b : Nat) (s : State) : Out := vecExec (specVshift sllOp h d a (.v b)) (.vsllV h d a b) s
def execVsllVX (h : VHdr) (d a b : Nat) (s : State) : Out := vecExec (specVshift sllOp h d a .g) (.vsllVX h d a b) s
def execVsrlV (h : VHdr) (d a b : Nat) (s : State) : Out := vecExec (specVshift srlOp h d a (.v b)) (.vsrlV h d a b) s
def execVsrlVX (h : VHdr) (d a b : Nat) (s : State) : Out := vecExec (specVshift srlOp h d a .g) (.vsrlVX h d a b) s
def execVsraV (h : VHdr) (d a b : Nat) (s : State) : Out := vecExec (specVshift sraOp h d a (.v b)) (.vsraV h d a b) s
def execVsraVX (h : VHdr) (d a b : Nat) (s : State) : Out := vecExec (specVshift sraOp h d a .g) (.vsraVX h d a b) s
def execVsaddV (h : VHdr) (d a b : Nat) (s : State) : Out := vecExec (specVsat saddOp h d a (.v b)) (.vsaddV h d a b) s
def execVsaddVX (h : VHdr) (d a b : Nat) (s : State) : Out := vecExec (specVsat saddOp h d a .g) (.vsaddVX h d a b) s
def execVssubV (h : VHdr) (d a b : Nat) (s : State) : Out := vecExec (specVsat ssubOp h d a (.v b)) (.vssubV h d a b) s
def execVssubVX (h : VHdr) (d a b : Nat) (s : State) : Out := vecExec (specVsat ssubOp h d a .g) (.vssubVX h d a b) s
def execVavgV (h : VHdr) (d a b : Nat) (s : State) : Out := vecExec (specVavg h d a (.v b)) (.vavgV h d a b) s
def execVavgVX (h : VHdr) (d a b : Nat) (s : State) : Out := vecExec (specVavg h d a .g) (.vavgVX h d a b) s
def execVseqV (h : VHdr) (d a b : Nat) (s : State) : Out := vecExec (specVcmp .eq h d a (.v b)) (.vseqV h d a b) s
def execVseqVX (h : VHdr) (d a b : Nat) (s : State) : Out := vecExec (specVcmp .eq h d a .g) (.vseqVX h d a b) s
def execVsneV (h : VHdr) (d a b : Nat) (s : State) : Out := vecExec (specVcmp .ne h d a (.v b)) (.vsneV h d a b) s
def execVsneVX (h : VHdr) (d a b : Nat) (s : State) : Out := vecExec (specVcmp .ne h d a .g) (.vsneVX h d a b) s
def execVsltV (h : VHdr) (d a b : Nat) (s : State) : Out := vecExec (specVcmp .lt h d a (.v b)) (.vsltV h d a b) s
def execVsltVX (h : VHdr) (d a b : Nat) (s : State) : Out := vecExec (specVcmp .lt h d a .g) (.vsltVX h d a b) s
def execVsleV (h : VHdr) (d a b : Nat) (s : State) : Out := vecExec (specVcmp .le h d a (.v b)) (.vsleV h d a b) s
def execVsleVX (h : VHdr) (d a b : Nat) (s : State) : Out := vecExec (specVcmp .le h d a .g) (.vsleVX h d a b) s
def execVsgtV (h : VHdr) (d a b : Nat) (s : State) : Out := vecExec (specVcmp .gt h d a (.v b)) (.vsgtV h d a b) s
def execVsgtVX (h : VHdr) (d a b : Nat) (s : State) : Out := vecExec (specVcmp .gt h d a .g) (.vsgtVX h d a b) s
def execVsgeV (h : VHdr) (d a b : Nat) (s : State) : Out := vecExec (specVcmp .ge h d a (.v b)) (.vsgeV h d a b) s
def execVsgeVX (h : VHdr) (d a b : Nat) (s : State) : Out := vecExec (specVcmp .ge h d a .g) (.vsgeVX h d a b) s
def execVselV (h : VHdr) (d a b : Nat) (s : State) : Out := vecExec (specVsel h d a (.v b)) (.vselV h d a b) s
def execVselVX (h : VHdr) (d a b : Nat) (s : State) : Out := vecExec (specVsel h d a .g) (.vselVX h d a b) s
def execVmulV (h : VHdr) (d a b : Nat) (s : State) : Out := vecExec (specVmul h d a (.v b)) (.vmulV h d a b) s
def execVmulVX (h : VHdr) (d a b : Nat) (s : State) : Out := vecExec (specVmul h d a .g) (.vmulVX h d a b) s
def execVmulhV (h : VHdr) (d a b : Nat) (s : State) : Out := vecExec (specVmulh h d a (.v b)) (.vmulhV h d a b) s
def execVmulhVX (h : VHdr) (d a b : Nat) (s : State) : Out := vecExec (specVmulh h d a .g) (.vmulhVX h d a b) s
def execVmaccV (h : VHdr) (d a b : Nat) (s : State) : Out := vecExec (specVmacc h d a (.v b)) (.vmaccV h d a b) s
def execVmaccVX (h : VHdr) (d a b : Nat) (s : State) : Out := vecExec (specVmacc h d a .g) (.vmaccVX h d a b) s
def execVdivV (h : VHdr) (d a b : Nat) (s : State) : Out := vecExec (specVdiv h d a (.v b)) (.vdivV h d a b) s
def execVdivVX (h : VHdr) (d a b : Nat) (s : State) : Out := vecExec (specVdiv h d a .g) (.vdivVX h d a b) s
def execVremV (h : VHdr) (d a b : Nat) (s : State) : Out := vecExec (specVrem h d a (.v b)) (.vremV h d a b) s
def execVremVX (h : VHdr) (d a b : Nat) (s : State) : Out := vecExec (specVrem h d a .g) (.vremVX h d a b) s
def execVsmulV (h : VHdr) (d a b : Nat) (s : State) : Out := vecExec (specVsmul h d a (.v b)) (.vsmulV h d a b) s
def execVsmulVX (h : VHdr) (d a b : Nat) (s : State) : Out := vecExec (specVsmul h d a .g) (.vsmulVX h d a b) s
def execVrsub (h : VHdr) (d a b : Nat) (s : State) : Out := vecExec (specVrsub h d a) (.vrsub h d a b) s
def execVabs (h : VHdr) (d a : Nat) (s : State) : Out := vecExec (specVabs h d a) (.vabs h d a) s
def execVneg (h : VHdr) (d a : Nat) (s : State) : Out := vecExec (specVneg h d a) (.vneg h d a) s
def execVmvV (h : VHdr) (d a : Nat) (s : State) : Out := vecExec (specVmv h d (.v a)) (.vmvV h d a) s
def execVmvVX (h : VHdr) (d b : Nat) (s : State) : Out := vecExec (specVmv h d .g) (.vmvVX h d b) s
def execVcvt (h : VHdr) (d a b : Nat) (s : State) : Out := vecExec (specVcvt h d a b) (.vcvt h d a b) s
def execVexp2 (h : VHdr) (d a : Nat) (s : State) : Out := vecExec (specVexp2 h d a) (.vexp2 h d a) s
def execVlog2 (h : VHdr) (d a : Nat) (s : State) : Out := vecExec (specVlog2 h d a) (.vlog2 h d a) s
def execVmand (h : VHdr) (d a b : Nat) (s : State) : Out := vecExec (specMask (fun x y => x && y) h d a (some b)) (.vmand h d a b) s
def execVmor (h : VHdr) (d a b : Nat) (s : State) : Out := vecExec (specMask (fun x y => x || y) h d a (some b)) (.vmor h d a b) s
def execVmxor (h : VHdr) (d a b : Nat) (s : State) : Out := vecExec (specMask (fun x y => x != y) h d a (some b)) (.vmxor h d a b) s
def execVmandn (h : VHdr) (d a b : Nat) (s : State) : Out := vecExec (specMask (fun x y => x && !y) h d a (some b)) (.vmandn h d a b) s
def execVmnot (h : VHdr) (d a : Nat) (s : State) : Out := vecExec (specMask (fun x _ => !x) h d a none) (.vmnot h d a) s
def execVslideup (h : VHdr) (d a b : Nat) (s : State) : Out := vecExec (specVslideup h d a) (.vslideup h d a b) s
def execVslidedn (h : VHdr) (d a b : Nat) (s : State) : Out := vecExec (specVslidedn h d a) (.vslidedn h d a b) s
def execVperm (h : VHdr) (d a b : Nat) (s : State) : Out := vecExec (specVperm h d a b) (.vperm h d a b) s
def execVcompress (h : VHdr) (d a : Nat) (s : State) : Out := vecExec (specVcompress h d a) (.vcompress h d a) s
def execViota (h : VHdr) (d a : Nat) (s : State) : Out := vecExec (specViota h d a) (.viota h d a) s
def execVindex (h : VHdr) (d : Nat) (s : State) : Out := vecExec (specVindex h d) (.vindex h d) s
def execVconfl (h : VHdr) (d a : Nat) (s : State) : Out := vecExec (specVconfl h d a) (.vconfl h d a) s
def execVred (h : VHdr) (d a b : Nat) (s : State) : Out := vecExec (specVred h d a b) (.vred h d a b) s
def execVscan (h : VHdr) (d a b : Nat) (s : State) : Out := vecExec (specVscan h d a b) (.vscan h d a b) s
def execVredoF (h : VHdr) (d a : Nat) (s : State) : Out := vecExec (specVredo h d a) (.vredoF h d a) s
def execVredx (h : VHdr) (d a : Nat) (s : State) : Out := vecExec (specVredx h d a) (.vredx h d a) s

end Sys2Proof.Machine
end

