-- ==== Sys2Proof/Machine/Dispatch.lean ====
section
/-! DEFINITION. The dispatch of an instruction or an event to its meaning: one arm per row of the operation table. -/

namespace Sys2Proof.Machine

/-- Execute instruction or event `i`: one direct call of its meaning per arm. -/
def exec (i : Instr) (s : State) : Host.Outcome State Fault Refusal :=
  match i with
  | .addi d a imm => Sys2Proof.Machine.execAddi d a imm s
  | .andi d a imm => Sys2Proof.Machine.execAndi d a imm s
  | .ori d a imm => Sys2Proof.Machine.execOri d a imm s
  | .xori d a imm => Sys2Proof.Machine.execXori d a imm s
  | .slti d a imm => Sys2Proof.Machine.execSlti d a imm s
  | .sltiu d a imm => Sys2Proof.Machine.execSltiu d a imm s
  | .slli d a sc => Sys2Proof.Machine.execSlli d a sc s
  | .srli d a sc => Sys2Proof.Machine.execSrli d a sc s
  | .srai d a sc => Sys2Proof.Machine.execSrai d a sc s
  | .lui d imm => Sys2Proof.Machine.execLui d imm s
  | .addpc d imm => Sys2Proof.Machine.execAddpc d imm s
  | .jalr d a imm => Sys2Proof.Machine.execJalr d a imm s
  | .j o => Sys2Proof.Machine.execJ o s
  | .jal o => Sys2Proof.Machine.execJal o s
  | .beq a b o => Sys2Proof.Machine.execBeq a b o s
  | .bne a b o => Sys2Proof.Machine.execBne a b o s
  | .blt a b o => Sys2Proof.Machine.execBlt a b o s
  | .bge a b o => Sys2Proof.Machine.execBge a b o s
  | .bltu a b o => Sys2Proof.Machine.execBltu a b o s
  | .bgeu a b o => Sys2Proof.Machine.execBgeu a b o s
  | .lb d a imm => Sys2Proof.Machine.execLb d a imm s
  | .lbu d a imm => Sys2Proof.Machine.execLbu d a imm s
  | .lh d a imm => Sys2Proof.Machine.execLh d a imm s
  | .lhu d a imm => Sys2Proof.Machine.execLhu d a imm s
  | .lw d a imm => Sys2Proof.Machine.execLw d a imm s
  | .lwu d a imm => Sys2Proof.Machine.execLwu d a imm s
  | .ld d a imm => Sys2Proof.Machine.execLd d a imm s
  | .flw d a imm => Sys2Proof.Machine.execFlw d a imm s
  | .sb d a imm => Sys2Proof.Machine.execSb d a imm s
  | .sh d a imm => Sys2Proof.Machine.execSh d a imm s
  | .sw d a imm => Sys2Proof.Machine.execSw d a imm s
  | .sd d a imm => Sys2Proof.Machine.execSd d a imm s
  | .fsw d a imm => Sys2Proof.Machine.execFsw d a imm s
  | .add d a b => Sys2Proof.Machine.execAdd d a b s
  | .sub d a b => Sys2Proof.Machine.execSub d a b s
  | .and d a b => Sys2Proof.Machine.execAnd d a b s
  | .or d a b => Sys2Proof.Machine.execOr d a b s
  | .xor d a b => Sys2Proof.Machine.execXor d a b s
  | .sll d a b => Sys2Proof.Machine.execSll d a b s
  | .srl d a b => Sys2Proof.Machine.execSrl d a b s
  | .sra d a b => Sys2Proof.Machine.execSra d a b s
  | .slt d a b => Sys2Proof.Machine.execSlt d a b s
  | .sltu d a b => Sys2Proof.Machine.execSltu d a b s
  | .mul d a b => Sys2Proof.Machine.execMul d a b s
  | .mulh d a b => Sys2Proof.Machine.execMulh d a b s
  | .mulhu d a b => Sys2Proof.Machine.execMulhu d a b s
  | .div d a b => Sys2Proof.Machine.execDiv d a b s
  | .divu d a b => Sys2Proof.Machine.execDivu d a b s
  | .rem d a b => Sys2Proof.Machine.execRem d a b s
  | .remu d a b => Sys2Proof.Machine.execRemu d a b s
  | .min d a b => Sys2Proof.Machine.execMin d a b s
  | .max d a b => Sys2Proof.Machine.execMax d a b s
  | .minu d a b => Sys2Proof.Machine.execMinu d a b s
  | .maxu d a b => Sys2Proof.Machine.execMaxu d a b s
  | .clz d a => Sys2Proof.Machine.execClz d a s
  | .ctz d a => Sys2Proof.Machine.execCtz d a s
  | .popc d a => Sys2Proof.Machine.execPopc d a s
  | .fadd d a b r => Sys2Proof.Machine.execFadd d a b r s
  | .fsub d a b r => Sys2Proof.Machine.execFsub d a b r s
  | .fmul d a b r => Sys2Proof.Machine.execFmul d a b r s
  | .fdiv d a b r => Sys2Proof.Machine.execFdiv d a b r s
  | .fsqrt d a r => Sys2Proof.Machine.execFsqrt d a r s
  | .fmin d a b => Sys2Proof.Machine.execFmin d a b s
  | .fmax d a b => Sys2Proof.Machine.execFmax d a b s
  | .feq d a b => Sys2Proof.Machine.execFeq d a b s
  | .flt d a b => Sys2Proof.Machine.execFlt d a b s
  | .fle d a b => Sys2Proof.Machine.execFle d a b s
  | .fcvtGF d a r => Sys2Proof.Machine.execFcvtGF d a r s
  | .fcvtFG d a r => Sys2Proof.Machine.execFcvtFG d a r s
  | .fmvGf d a => Sys2Proof.Machine.execFmvGf d a s
  | .fmvFg d a => Sys2Proof.Machine.execFmvFg d a s
  | .amoadd d a b sc w => Sys2Proof.Machine.execAmoadd d a b sc w s
  | .amoor d a b sc w => Sys2Proof.Machine.execAmoor d a b sc w s
  | .amoand d a b sc w => Sys2Proof.Machine.execAmoand d a b sc w s
  | .amomin d a b sc w => Sys2Proof.Machine.execAmomin d a b sc w s
  | .amomax d a b sc w => Sys2Proof.Machine.execAmomax d a b sc w s
  | .amoswap d a b sc w => Sys2Proof.Machine.execAmoswap d a b sc w s
  | .amocas d a b sc w => Sys2Proof.Machine.execAmocas d a b sc w s
  | .lda d a sc w => Sys2Proof.Machine.execLda d a sc w s
  | .str a b sc w => Sys2Proof.Machine.execStr a b sc w s
  | .fence sc => Sys2Proof.Machine.execFence sc s
  | .lsync => Sys2Proof.Machine.execLsync s
  | .bar sc => Sys2Proof.Machine.execBar sc s
  | .waitw d a b sc => Sys2Proof.Machine.execWaitw d a b sc s
  | .tkpush a => Sys2Proof.Machine.execTkpush a s
  | .tkpop a => Sys2Proof.Machine.execTkpop a s
  | .spawn d a b => Sys2Proof.Machine.execSpawn d a b s
  | .halt => Sys2Proof.Machine.execHalt s
  | .gangJoin d a b => Sys2Proof.Machine.execGangJoin d a b s
  | .gangLeave => Sys2Proof.Machine.execGangLeave s
  | .yield => Sys2Proof.Machine.execYield s
  | .prio d a => Sys2Proof.Machine.execPrio d a s
  | .sysrd d sc => Sys2Proof.Machine.execSysrd d sc s
  | .syswr a sc => Sys2Proof.Machine.execSyswr a sc s
  | .sysswap d a sc => Sys2Proof.Machine.execSysswap d a sc s
  | .trap c => Sys2Proof.Machine.execTrap c s
  | .retT => Sys2Proof.Machine.execRetT s
  | .invpg a => Sys2Proof.Machine.execInvpg a s
  | .invall a => Sys2Proof.Machine.execInvall a s
  | .vframeSave d a => Sys2Proof.Machine.execVframeSave d a s
  | .vframeRestore d a => Sys2Proof.Machine.execVframeRestore d a s
  | .bkpt c => Sys2Proof.Machine.execBkpt c s
  | .vsetvl d a b => Sys2Proof.Machine.execVsetvl d a b s
  | .vcfg d a => Sys2Proof.Machine.execVcfg d a s
  | .vmread d a b => Sys2Proof.Machine.execVmread d a b s
  | .vmpopc d a => Sys2Proof.Machine.execVmpopc d a s
  | .stepBegin d a b => Sys2Proof.Machine.execStepBegin d a b s
  | .stepEnd d => Sys2Proof.Machine.execStepEnd d s
  | .stepQuery d => Sys2Proof.Machine.execStepQuery d s
  | .weirHint d a b => Sys2Proof.Machine.execWeirHint d a b s
  | .weirQuery d a => Sys2Proof.Machine.execWeirQuery d a s
  | .vaddV h d a b => Sys2Proof.Machine.execVaddV h d a b s
  | .vaddVX h d a b => Sys2Proof.Machine.execVaddVX h d a b s
  | .vsubV h d a b => Sys2Proof.Machine.execVsubV h d a b s
  | .vsubVX h d a b => Sys2Proof.Machine.execVsubVX h d a b s
  | .vrsub h d a b => Sys2Proof.Machine.execVrsub h d a b s
  | .vminV h d a b => Sys2Proof.Machine.execVminV h d a b s
  | .vminVX h d a b => Sys2Proof.Machine.execVminVX h d a b s
  | .vmaxV h d a b => Sys2Proof.Machine.execVmaxV h d a b s
  | .vmaxVX h d a b => Sys2Proof.Machine.execVmaxVX h d a b s
  | .vandV h d a b => Sys2Proof.Machine.execVandV h d a b s
  | .vandVX h d a b => Sys2Proof.Machine.execVandVX h d a b s
  | .vorV h d a b => Sys2Proof.Machine.execVorV h d a b s
  | .vorVX h d a b => Sys2Proof.Machine.execVorVX h d a b s
  | .vxorV h d a b => Sys2Proof.Machine.execVxorV h d a b s
  | .vxorVX h d a b => Sys2Proof.Machine.execVxorVX h d a b s
  | .vsllV h d a b => Sys2Proof.Machine.execVsllV h d a b s
  | .vsllVX h d a b => Sys2Proof.Machine.execVsllVX h d a b s
  | .vsrlV h d a b => Sys2Proof.Machine.execVsrlV h d a b s
  | .vsrlVX h d a b => Sys2Proof.Machine.execVsrlVX h d a b s
  | .vsraV h d a b => Sys2Proof.Machine.execVsraV h d a b s
  | .vsraVX h d a b => Sys2Proof.Machine.execVsraVX h d a b s
  | .vsaddV h d a b => Sys2Proof.Machine.execVsaddV h d a b s
  | .vsaddVX h d a b => Sys2Proof.Machine.execVsaddVX h d a b s
  | .vssubV h d a b => Sys2Proof.Machine.execVssubV h d a b s
  | .vssubVX h d a b => Sys2Proof.Machine.execVssubVX h d a b s
  | .vavgV h d a b => Sys2Proof.Machine.execVavgV h d a b s
  | .vavgVX h d a b => Sys2Proof.Machine.execVavgVX h d a b s
  | .vabs h d a => Sys2Proof.Machine.execVabs h d a s
  | .vneg h d a => Sys2Proof.Machine.execVneg h d a s
  | .vseqV h d a b => Sys2Proof.Machine.execVseqV h d a b s
  | .vseqVX h d a b => Sys2Proof.Machine.execVseqVX h d a b s
  | .vsneV h d a b => Sys2Proof.Machine.execVsneV h d a b s
  | .vsneVX h d a b => Sys2Proof.Machine.execVsneVX h d a b s
  | .vsltV h d a b => Sys2Proof.Machine.execVsltV h d a b s
  | .vsltVX h d a b => Sys2Proof.Machine.execVsltVX h d a b s
  | .vsleV h d a b => Sys2Proof.Machine.execVsleV h d a b s
  | .vsleVX h d a b => Sys2Proof.Machine.execVsleVX h d a b s
  | .vsgtV h d a b => Sys2Proof.Machine.execVsgtV h d a b s
  | .vsgtVX h d a b => Sys2Proof.Machine.execVsgtVX h d a b s
  | .vsgeV h d a b => Sys2Proof.Machine.execVsgeV h d a b s
  | .vsgeVX h d a b => Sys2Proof.Machine.execVsgeVX h d a b s
  | .vselV h d a b => Sys2Proof.Machine.execVselV h d a b s
  | .vselVX h d a b => Sys2Proof.Machine.execVselVX h d a b s
  | .vmvV h d a => Sys2Proof.Machine.execVmvV h d a s
  | .vmvVX h d b => Sys2Proof.Machine.execVmvVX h d b s
  | .vcvt h d a b => Sys2Proof.Machine.execVcvt h d a b s
  | .vmulV h d a b => Sys2Proof.Machine.execVmulV h d a b s
  | .vmulVX h d a b => Sys2Proof.Machine.execVmulVX h d a b s
  | .vmulhV h d a b => Sys2Proof.Machine.execVmulhV h d a b s
  | .vmulhVX h d a b => Sys2Proof.Machine.execVmulhVX h d a b s
  | .vmaccV h d a b => Sys2Proof.Machine.execVmaccV h d a b s
  | .vmaccVX h d a b => Sys2Proof.Machine.execVmaccVX h d a b s
  | .vdivV h d a b => Sys2Proof.Machine.execVdivV h d a b s
  | .vdivVX h d a b => Sys2Proof.Machine.execVdivVX h d a b s
  | .vremV h d a b => Sys2Proof.Machine.execVremV h d a b s
  | .vremVX h d a b => Sys2Proof.Machine.execVremVX h d a b s
  | .vsmulV h d a b => Sys2Proof.Machine.execVsmulV h d a b s
  | .vsmulVX h d a b => Sys2Proof.Machine.execVsmulVX h d a b s
  | .vexp2 h d a => Sys2Proof.Machine.execVexp2 h d a s
  | .vlog2 h d a => Sys2Proof.Machine.execVlog2 h d a s
  | .vmand h d a b => Sys2Proof.Machine.execVmand h d a b s
  | .vmor h d a b => Sys2Proof.Machine.execVmor h d a b s
  | .vmxor h d a b => Sys2Proof.Machine.execVmxor h d a b s
  | .vmandn h d a b => Sys2Proof.Machine.execVmandn h d a b s
  | .vmnot h d a => Sys2Proof.Machine.execVmnot h d a s
  | .vslideup h d a b => Sys2Proof.Machine.execVslideup h d a b s
  | .vslidedn h d a b => Sys2Proof.Machine.execVslidedn h d a b s
  | .vperm h d a b => Sys2Proof.Machine.execVperm h d a b s
  | .vcompress h d a => Sys2Proof.Machine.execVcompress h d a s
  | .viota h d a => Sys2Proof.Machine.execViota h d a s
  | .vindex h d => Sys2Proof.Machine.execVindex h d s
  | .vconfl h d a => Sys2Proof.Machine.execVconfl h d a s
  | .vred h d a b => Sys2Proof.Machine.execVred h d a b s
  | .vscan h d a b => Sys2Proof.Machine.execVscan h d a b s
  | .vredoF h d a => Sys2Proof.Machine.execVredoF h d a s
  | .vredx h d a => Sys2Proof.Machine.execVredx h d a s
  | .mxq h d a b => Sys2Proof.Machine.execMxq h d a b s
  | .mxdq h d a b => Sys2Proof.Machine.execMxdq h d a b s
  | .fcvtV h d a b => Sys2Proof.Machine.execFcvtV h d a b s
  | .bsexp h d a b => Sys2Proof.Machine.execBsexp h d a b s
  | .srseed h b => Sys2Proof.Machine.execSrseed h b s
  | .srskip h b => Sys2Proof.Machine.execSrskip h b s
  | .xaccClr h d => Sys2Proof.Machine.execXaccClr h d s
  | .xaccAdd h d a => Sys2Proof.Machine.execXaccAdd h d a s
  | .xaccRd h d a b => Sys2Proof.Machine.execXaccRd h d a b s
  | .xdec h d a => Sys2Proof.Machine.execXdec h d a s
  | .xstateSave h b => Sys2Proof.Machine.execXstateSave h b s
  | .xstateRestore h b => Sys2Proof.Machine.execXstateRestore h b s
  | .vld h d a => Sys2Proof.Machine.execVld h d a s
  | .vlds h d a b => Sys2Proof.Machine.execVlds h d a b s
  | .vldx h d a b => Sys2Proof.Machine.execVldx h d a b s
  | .vldff h d a f => Sys2Proof.Machine.execVldff h d a f s
  | .vlda h d a sc => Sys2Proof.Machine.execVlda h d a sc s
  | .vst h d a => Sys2Proof.Machine.execVst h d a s
  | .vsts h d a b => Sys2Proof.Machine.execVsts h d a b s
  | .vstx h d a b => Sys2Proof.Machine.execVstx h d a b s
  | .vstr h d a sc => Sys2Proof.Machine.execVstr h d a sc s
  | .vamoadd h d a b => Sys2Proof.Machine.execVamoadd h d a b s
  | .vamoor h d a b => Sys2Proof.Machine.execVamoor h d a b s
  | .vamoand h d a b => Sys2Proof.Machine.execVamoand h d a b s
  | .vamomin h d a b => Sys2Proof.Machine.execVamomin h d a b s
  | .vamomax h d a b => Sys2Proof.Machine.execVamomax h d a b s
  | .vamoswap h d a b => Sys2Proof.Machine.execVamoswap h d a b s
  | .vamocas h d a b => Sys2Proof.Machine.execVamocas h d a b s
  | .stripBegin h a => Sys2Proof.Machine.execStripBegin h a s
  | .stripCommit h => Sys2Proof.Machine.execStripCommit h s
  | .stripAbort h => Sys2Proof.Machine.execStripAbort h s
  | .opa x t a b => Sys2Proof.Machine.execOpa x t a b s
  | .opas x t a b => Sys2Proof.Machine.execOpas x t a b s
  | .tzero x t => Sys2Proof.Machine.execTzero x t s
  | .trd x t a b => Sys2Proof.Machine.execTrd x t a b s
  | .twr x t a b => Sys2Proof.Machine.execTwr x t a b s
  | .tshift x t sc => Sys2Proof.Machine.execTshift x t sc s
  | .tmerge x t a => Sys2Proof.Machine.execTmerge x t a s
  | .tmergeAtt x t a => Sys2Proof.Machine.execTmergeAtt x t a s
  | .tflags x t => Sys2Proof.Machine.execTflags x t s
  | .talloc x t => Sys2Proof.Machine.execTalloc x t s
  | .tfree x t => Sys2Proof.Machine.execTfree x t s
  | .sld k q d a b => Sys2Proof.Machine.execSld k q d a b s
  | .sst k q d a b => Sys2Proof.Machine.execSst k q d a b s
  | .scpy k q d a b => Sys2Proof.Machine.execScpy k q d a b s
  | .spln k q d a b => Sys2Proof.Machine.execSpln k q d a b s
  | .sldG k q d a b => Sys2Proof.Machine.execSldG k q d a b s
  | .sind k q d a b => Sys2Proof.Machine.execSind k q d a b s
  | .spat k q d a => Sys2Proof.Machine.execSpat k q d a s
  | .sbind k q d a b => Sys2Proof.Machine.execSbind k q d a b s
  | .sunbind k q => Sys2Proof.Machine.execSunbind k q s
  | .ssend k q d a b => Sys2Proof.Machine.execSsend k q d a b s
  | .swait q b => Sys2Proof.Machine.execSwait q b s
  | .savail q d => Sys2Proof.Machine.execSavail q d s
  | .sstat q d b => Sys2Proof.Machine.execSstat q d b s
  | .illegalEncoding w => Sys2Proof.Machine.execIllegalEncoding w s
  | .queueEntryFree h q => Sys2Proof.Machine.execQueueEntryFree h q s
  | .convoyStart h => Sys2Proof.Machine.execConvoyStart h s
  | .elementGroup core => Sys2Proof.Machine.execElementGroup core s
  | .starvationGrant core h => Sys2Proof.Machine.execStarvationGrant core h s
  | .redeal h => Sys2Proof.Machine.execRedeal h s
  | .groupRefill h => Sys2Proof.Machine.execGroupRefill h s
  | .parking h => Sys2Proof.Machine.execParking h s
  | .gangJoinRetry h => Sys2Proof.Machine.execGangJoinRetry h s
  | .takeEngineFault h => Sys2Proof.Machine.execTakeEngineFault h s
  | .takeInterrupt h => Sys2Proof.Machine.execTakeInterrupt h s
  | .preempt h => Sys2Proof.Machine.execPreempt h s
  | .waitwWake h => Sys2Proof.Machine.execWaitwWake h s
  | .tkpopWake h => Sys2Proof.Machine.execTkpopWake h s
  | .swaitWake h => Sys2Proof.Machine.execSwaitWake h s
  | .tileGrant core t => Sys2Proof.Machine.execTileGrant core t s
  | .streamBurst h q => Sys2Proof.Machine.execStreamBurst h q s
  | .sldGMulticast ctx die num => Sys2Proof.Machine.execSldGMulticast ctx die num s
  | .ssendBurstArrival h q => Sys2Proof.Machine.execSsendBurstArrival h q s
  | .expanderBlock h => Sys2Proof.Machine.execExpanderBlock h s
  | .xdecWriteStep h => Sys2Proof.Machine.execXdecWriteStep h s
  | .admitHeldWrite die pool => Sys2Proof.Machine.execAdmitHeldWrite die pool s
  | .recompress die pool => Sys2Proof.Machine.execRecompress die pool s
  | .migrate die pool => Sys2Proof.Machine.execMigrate die pool s
  | .balloon die pool => Sys2Proof.Machine.execBalloon die pool s
  | .weirboundExpiry die id => Sys2Proof.Machine.execWeirboundExpiry die id s
  | .woosrecRead die d => Sys2Proof.Machine.execWoosrecRead die d s
  | .replay die w => Sys2Proof.Machine.execReplay die w s
  | .cancel die w => Sys2Proof.Machine.execCancel die w s
  | .discard die fr => Sys2Proof.Machine.execDiscard die fr s
  | .setnone die fr => Sys2Proof.Machine.execSetnone die fr s
  | .setlossless die fr => Sys2Proof.Machine.execSetlossless die fr s
  | .weirRecall die fr => Sys2Proof.Machine.execWeirRecall die fr s
  | .wcmdInvalid die => Sys2Proof.Machine.execWcmdInvalid die s
  | .weirCommandDone die => Sys2Proof.Machine.execWeirCommandDone die s
  | .poolEnable die pool => Sys2Proof.Machine.execPoolEnable die pool s
  | .deviceRegisterWrite pa w => Sys2Proof.Machine.execDeviceRegisterWrite pa w s
  | .svhSet h => Sys2Proof.Machine.execSvhSet h s
  | .tsliceWrite h w => Sys2Proof.Machine.execTsliceWrite h w s
  | .tkrouteWrite h w => Sys2Proof.Machine.execTkrouteWrite h w s
  | .flush h => Sys2Proof.Machine.execFlush h s
  | .drop h => Sys2Proof.Machine.execDrop h s
  | .unfreeze hd => Sys2Proof.Machine.execUnfreeze hd s
  | .destroy hd => Sys2Proof.Machine.execDestroy hd s
  | .uncorrectableError src die pa h => Sys2Proof.Machine.execUncorrectableError src die pa h s
  | .correctableError src die pa => Sys2Proof.Machine.execCorrectableError src die pa s
  | .governorEvaluation die stn => Sys2Proof.Machine.execGovernorEvaluation die stn s
  | .operatingPointStep die stn => Sys2Proof.Machine.execOperatingPointStep die stn s
  | .powerCapUpdate => Sys2Proof.Machine.execPowerCapUpdate s
  | .budgetShortfall demand => Sys2Proof.Machine.execBudgetShortfall demand s
  | .request port watts rseq => Sys2Proof.Machine.execRequest port watts rseq s
  | .grant port watts ns rseq => Sys2Proof.Machine.execGrant port watts ns rseq s
  | .leaseReclaim => Sys2Proof.Machine.execLeaseReclaim s
  | .leaseWindDown => Sys2Proof.Machine.execLeaseWindDown s
  | .leaseEnd => Sys2Proof.Machine.execLeaseEnd s
  | .thermalWarning die stn temp => Sys2Proof.Machine.execThermalWarning die stn temp s
  | .thermalCapDown die stn => Sys2Proof.Machine.execThermalCapDown die stn s
  | .thermalCapUp die stn => Sys2Proof.Machine.execThermalCapUp die stn s
  | .emergencySave die stn temp => Sys2Proof.Machine.execEmergencySave die stn temp s
  | .trip => Sys2Proof.Machine.execTrip s
  | .powerUp => Sys2Proof.Machine.execPowerUp s
  | .packageReset => Sys2Proof.Machine.execPackageReset s
  | .standbyPowerApplied => Sys2Proof.Machine.execStandbyPowerApplied s
  | .standbyPowerLoss => Sys2Proof.Machine.execStandbyPowerLoss s
  | .stationWake die => Sys2Proof.Machine.execStationWake die s
  | .laneGroupGate core grp => Sys2Proof.Machine.execLaneGroupGate core grp s
  | .droopWithdraw die stn => Sys2Proof.Machine.execDroopWithdraw die stn s
  | .droopRestore die stn => Sys2Proof.Machine.execDroopRestore die stn s
  | .stationCacheWriteback die stn line => Sys2Proof.Machine.execStationCacheWriteback die stn line s
  | .stationCacheFill die stn line => Sys2Proof.Machine.execStationCacheFill die stn line s
  | .inboundMemoryRequest rid wr off len data => Sys2Proof.Machine.execInboundMemoryRequest rid wr off len data s
  | .inboundAtomicop rid => Sys2Proof.Machine.execInboundAtomicop rid s
  | .onwctlWrite w => Sys2Proof.Machine.execOnwctlWrite w s
  | .outboundCompletion req => Sys2Proof.Machine.execOutboundCompletion req s
  | .outboundTimeout req => Sys2Proof.Machine.execOutboundTimeout req s
  | .towpathRetryFailure die link md => Sys2Proof.Machine.execTowpathRetryFailure die link md s
  | .towpathLinkUp die link mds => Sys2Proof.Machine.execTowpathLinkUp die link mds s
  | .draborPortState port st peer => Sys2Proof.Machine.execDraborPortState port st peer s
  | .fpost die w => Sys2Proof.Machine.execFpost die w s
  | .fabricTransferArrival die dst len data cpa inc => Sys2Proof.Machine.execFabricTransferArrival die dst len data cpa inc s
  | .fabricAck id code => Sys2Proof.Machine.execFabricAck id code s
  | .loadimg a0 a1 => Sys2Proof.Machine.execLoadimg a0 a1 s
  | .attest a0 => Sys2Proof.Machine.execAttest a0 s
  | .start a0 a1 a2 => Sys2Proof.Machine.execStart a0 a1 a2 s
  | .drain a0 => Sys2Proof.Machine.execDrain a0 s
  | .swap a0 => Sys2Proof.Machine.execSwap a0 s
  | .undrain a0 => Sys2Proof.Machine.execUndrain a0 s
  | .retire a0 => Sys2Proof.Machine.execRetire a0 s
  | .svcInvalid op => Sys2Proof.Machine.execSvcInvalid op s
  | .svcCommandEnd => Sys2Proof.Machine.execSvcCommandEnd s
  | .stationDrained die stn => Sys2Proof.Machine.execStationDrained die stn s
  | .marchElement die k w => Sys2Proof.Machine.execMarchElement die k w s
  | .marchFinish die k w => Sys2Proof.Machine.execMarchFinish die k w s
  | .glearnClear die stn => Sys2Proof.Machine.execGlearnClear die stn s
  | .arm die => Sys2Proof.Machine.execArm die s
  | .vframeRestoreGrant h => Sys2Proof.Machine.execVframeRestoreGrant h s
  | .fetchFault h => Sys2Proof.Machine.execFetchFault h s
  | .thermalWarningClear die stn => Sys2Proof.Machine.execThermalWarningClear die stn s

end Sys2Proof.Machine
end

