-- ==== Sys2Proof/Machine/Policy.lean ====
section
/-! DEFINITION. What one step of the machine does: a hart at an instruction boundary (R180, R181), the moves of the engines,
the default order in which they come when the agenda is empty, and the passing of time (log 3, log 4). -/

namespace Sys2Proof.Machine

/-! ### A hart at an instruction boundary (R180) -/

/-- Fetch, decode and execute the next instruction of the current hart (R180 item 3). The fetch waits while its walk cannot
reach a table (R407). -/
def runWord (s : State) (h : Hart) : Out :=
  if s.walkAway (h.fetcher s.cur) h.pc.toNat 4 then .next s
  else
  match s.fetchCheck s.cur h with
  | some _ => execFetchFault s.cur s
  | none =>
    match s.fetch s.cur h with
    | (s1, some i) => exec i s1
    | (s1, none) => .next s1

/-- The instruction that waits executes again, or its wait goes on (R72, R80, R105). -/
def runWait (s : State) (h : Hart) (w : Wait) : Out :=
  match w with
  | .waitw w => .next (if s.watching s.cur then s else s.waitwGo s.cur h w)
  | .bar => if s.barOver h then runWord s h else .next s
  | .tkpop _ => if h.tkpopOver then runWord s h else .next s
  | .swait _ _ => if h.swaitOver then runWord s h else .next s
  | .yard _ _ _ _ => execGangJoinRetry s.cur s
  | .restore _ _ => execVframeRestoreGrant s.cur s

/-- The current hart at its next boundary: an engine fault, an interrupt, its wait, or its next instruction (R180). -/
def hartTurn (s : State) : Out :=
  match s.hart? s.cur with
  | none => .next s
  | some h =>
    if h.takes && h.faultDue.isSome then execTakeEngineFault s.cur s
    else if h.takes && h.irq.isSome then execTakeInterrupt s.cur s
    else if h.frozen.isSome || h.held.isSome then .next s
    else
      match h.wait with
      | some w => runWait s h w
      | none => runWord s h

/-! ### The engines -/

/-- The harts of a station whose streams have a burst ready, of the highest level that has one, ascending (R96, R303). -/
def State.strmReady (s : State) (k : Nat) : List (Nat × Nat) :=
  let l := ((s.stationHarts k).filter fun p => (s.burstMove p.1).isSome).map fun p => (p.1, p.2.prio)
  sortBy (fun a b => decide (a.1 ≤ b.1)) (l.filter fun a => l.all fun b => decide (b.2 ≤ a.2))

/-- The hart that a unit serves, with its level: round robin among the ready harts of a level (R96). -/
def served (turns : List (Nat × Nat)) (ready : List (Nat × Nat)) : Option (Nat × Nat) :=
  match ready with
  | [] => none
  | a :: _ => (nextAfter (find? turns a.2) (ready.map Prod.fst)).map fun id => (id, a.2)

/-- The stream engines of a station take one burst (R96, R303). -/
def State.strmServe (s : State) (k : Nat) : Option State :=
  (served (s.stn k).strmTurns (s.strmReady k)).bind fun r =>
    (s.burstMove r.1).map fun t => t.setStn k { t.stn k with strmTurns := put (t.stn k).strmTurns r.2 r.1 }

/-- The next move of a hart's engine, if the unit serves the hart now (R94, R96); an issue to the stream engines is no
burst. -/
def State.engineMove (s : State) (id : Nat) (q : Queue) : Option State :=
  match q with
  | .vector => (stationCores id).findSome? fun k => if (s.pick k).any fun x => x.2 == id then s.serve k else none
  | .matrix =>
    let k := coreOf id
    if (served (s.core k).mtxTurns (s.mtxReady k)).any fun r => r.1 == id then s.mtxServe k else none
  | .stream =>
    (s.streamIssue id).orElse fun _ =>
      if (served (s.stn (stnOf id)).strmTurns (s.strmReady (stnOf id))).any fun r => r.1 == id then s.strmServe (stnOf id)
      else none

/-- The burst of a hart's SSEND that is on its way arrives. -/
def State.arriveMove (s : State) (id : Nat) : Option State :=
  match s.hart? id with
  | none => none
  | some h => (h.sq.find? fun e => !e.inflight.isEmpty && !e.held).map fun e => s.sendArrive id h e

/-- The oldest held write of a pool, when its threshold admits it (R353). -/
def State.admitMove (s : State) (d p : Nat) : Option State :=
  match (s.die d).heldIn p with
  | [] => none
  | w :: _ => (s.permit d w (if w.device then .device else .ordinary)).map State.inboundAll

/-- A move of one hart's units in which no other hart competes: SBCAP, a stream's issue, the arrival of an SSEND burst. -/
def State.hartEngines (s : State) (id : Nat) : Option State :=
  (s.sbMove id).orElse fun _ => (s.streamIssue id).orElse fun _ => s.arriveMove id

/-- Keys, each once. -/
def once (l : List Nat) : List Nat := l.foldl (fun l k => if l.contains k then l else l ++ [k]) []

/-- The cores that have work: those with a lane group that a hart holds, and those of harts with matrix instructions; and
the stations of harts with streams. -/
def State.laneCores (s : State) : List Nat := once (s.harts.flatMap fun p => p.2.groupCores p.1)
def State.tileCores (s : State) : List Nat := once ((s.harts.filter fun p => !p.2.mq.isEmpty).map fun p => coreOf p.1)
def State.burstStations (s : State) : List Nat :=
  once ((s.harts.filter fun p => p.2.slots.toList.any fun t => t.holder.isSome || t.bind.isSome).map fun p => stnOf p.1)

/-- The requests of a requester that nothing holds any longer go on (R354, R361, R407). -/
def State.inboundMove (s : State) : Option State := if s.pkg.requesters.any s.inboundReady then some s.inboundAll else none

/-- The fabric transfers that a path of the Towpath held back go on (R407). -/
def State.fabricMove (s : State) : Option State :=
  if s.dies.all fun x => x.2.owed.isEmpty && x.2.inflight.all fun y => (y.sent && y.code.isNone) || y.adding then none
  else
    let t := s.fabricAll
    if t = s then none else some t

/-! ### What the dies, the stations and the package do by themselves, as soon as it applies (log 3) -/

/-- The next state of an event, or `s`. -/
def eventOr (s : State) (o : Out) : State :=
  match o with
  | .next t => t
  | _ => s

/-- The step of reclaim that applies to a pool (R355): recompress, migrate, balloon. -/
def State.reclaimMove (s : State) (d p : Nat) : Option State :=
  let P := s.pool d p
  if !P.reclaims then none
  else if (s.step1 d p).isSome then some (eventOr s (execRecompress d p s))
  else if (s.step2 d p).isSome then some (eventOr s (execMigrate d p s))
  else if P.lowRaised then none
  else some (eventOr s (execBalloon d p s))

/-- A held write of a die whose WEIRBOUND is over and that the table has room for (R359). -/
def State.expiryMove (s : State) (d : Nat) : Option State :=
  let x := s.die d
  if 256 ≤ (x.held.filter fun w => w.reported.isSome).length then none
  else
    (x.held.find? fun w => w.reported.isNone && decide (w.since + x.wbound ≤ s.now)).map fun w =>
      eventOr s (execWeirboundExpiry d w.id s)

/-- A move of a die: its Weir command ends (R366), reclaim, a WEIRBOUND. -/
def State.dieMove (s : State) (d : Nat) : Option State :=
  if (s.die d).wcmdNext.isSome then some (eventOr s (execWeirCommandDone d s))
  else (s.reclaimMove d 0).orElse fun _ => (s.reclaimMove d 1).orElse fun _ => s.expiryMove d

/-- A move of a station: it is drained once its last hart has gone and its caches are clean (R418), or its domain goes one
point toward TARGET (R371). -/
def State.stationMove (s : State) (k : Nat) : Option State :=
  let t := eventOr s (execStationDrained (k / 64) (k % 64) s)
  if (s.stn k).state = 1 ∧ (t.stn k).state = 2 then some t
  else if (s.stn k).cur = (s.stn k).target then none
  else some (eventOr s (execOperatingPointStep (k / 64) (k % 64) s))

/-- The slice of a hart is over (R108, R109). -/
def State.sliceOver (s : State) (h : Hart) : Bool :=
  let sl := (s.ctx h.ctx).slice
  h.sliced sl && !h.heldBack && decide (h.sliceStart + h.effective.getD sl ≤ s.now)

/-- The service command goes on, or ends (R417). -/
def State.svcMove (s : State) : Option State :=
  if s.pkg.svcst ≠ 1 then none
  else if s.svcBusy then (if s.svcGo = s then none else some s.svcGo)
  else some (eventOr s (execSvcCommandEnd s))

/-- A lease winds down or ends (R389). -/
def State.leaseMove (s : State) : Option State :=
  if s.pkg.leases.any fun l => decide (l.until_ ≤ s.pdrc) then
    some (eventOr s (execLeaseEnd (eventOr s (execLeaseReclaim s))))
  else if s.pkg.leases.any fun l => !l.lent && !l.winding && decide (l.until_ ≤ s.pdrc + 20000) then
    some (eventOr s (execLeaseWindDown s))
  else none

/-- A move of the package: its service command, its leases. -/
def State.packageMove (s : State) : Option State := s.svcMove.orElse fun _ => s.leaseMove

/-- A move that the time or the state of a die, a station, a hart's slice or the package makes due. -/
def State.dueMove (s : State) : Option State :=
  (s.dies.findSome? fun x => s.dieMove x.1).orElse fun _ =>
  (s.stations.findSome? fun x => s.stationMove x.1).orElse fun _ =>
  (s.harts.findSome? fun p => if s.sliceOver p.2 then some (eventOr s (execPreempt p.1 s)) else none).orElse fun _ =>
  s.packageMove

/-- A move of what runs by itself: held writes, inbound requests and fabric transfers behind them, what each hart's units
do, the matrix engine and the sequencer of each core, the stream engines of each station, a multicast, and what is due. -/
def State.unitMove (s : State) : Option State :=
  (s.dies.findSome? fun x => (s.admitMove x.1 0).orElse fun _ => s.admitMove x.1 1).orElse fun _ =>
    s.inboundMove.orElse fun _ => s.fabricMove.orElse fun _ =>
    (s.harts.findSome? fun p => s.hartEngines p.1).orElse fun _ =>
    (s.tileCores.findSome? s.mtxServe).orElse fun _ =>
    (s.burstStations.findSome? s.strmServe).orElse fun _ =>
    (s.laneCores.findSome? s.serve).orElse fun _ =>
    (s.gangs.findSome? fun g => s.multicast g.1).orElse fun _ => s.dueMove

/-! ### The default order (log 3) -/

/-- A hart has something to do at its boundary. -/
def State.canTurn (s : State) (h : Hart) : Bool :=
  (h.takes && (h.faultDue.isSome || h.irq.isSome)) ||
  (h.frozen.isNone && h.held.isNone &&
   (match h.wait with
    | some .bar => s.barOver h
    | some (.tkpop _) => h.tkpopOver
    | some (.swait _ _) => h.swaitOver
    | _ => true))

/-- The first hart, from the current one on and round, that has something to do. -/
def State.nextTurn (s : State) : Option Nat :=
  let ids := (s.harts.filter fun p => s.canTurn p.2).map Prod.fst
  (ids.find? fun i => decide (s.cur ≤ i)).orElse fun _ => ids.head?

/-- The turn of a hart, after which the next hart is current. -/
def turnOf (s : State) (id : Nat) : Out :=
  match hartTurn { s with cur := id } with
  | .next t => .next { t with cur := ((t.harts.find? fun p => decide (id < p.1)).orElse fun _ => t.harts.head?).elim id Prod.fst }
  | .fault f => .fault f
  | .refused r => .refused r

/-- The head of the agenda: a hart's turn, a move of an engine, an event, the drop of a clean line of a station or a lane
cache (R112, R132), a flit repeated by a port or a link (R408, R410). -/
def acts (s : State) (a : Act) : Out :=
  match a with
  | .hart id => hartTurn { s with cur := id }
  | .engine id q => .next ((s.engineMove id q).getD s)
  | .event e => exec e s
  | .dropLine k line => .next (s.setStn k { s.stn k with clean := erase (s.stn k).clean line })
  | .dropLane id idx line =>
    .next (s.modHart id fun h => { h with lcache := h.lcache.filter fun l => !(l.idx == idx && l.line == line) })
  | .flit p => .next (s.flitRetry p)
  | .linkFlit d j => .next (s.linkRetry d j)

/-- One move of the machine: the save of a die that is too hot (R393), the head of the agenda, or else what comes next by
itself. -/
def move (s : State) : Out :=
  match s.hotMove with
  | some t => .next t
  | none =>
    match s.agenda with
    | a :: l => acts { s with agenda := l } a
    | [] =>
      match s.unitMove with
      | some t => .next t
      | none =>
        match s.nextTurn with
        | some id => turnOf s id
        | none => .next s

/-! ### Time (R372, R386; log 4) -/

/-- The energy of a step: each live context's own, context 0's for the host's traffic, and that of each die's own work, to
the EUNATTR of its station 0 (R386). -/
def State.charged (s : State) : State :=
  let c := s.ctxs.map fun x =>
    if x.2.live || x.1 == 0 then (x.1, { x.2 with energy := (x.2.energy + Config.energy s.tick x.1) % 2 ^ 64 }) else x
  allDies.foldl (fun s d =>
    let t := s.stn (64 * d)
    s.setStn (64 * d) { t with eunattr := (t.eunattr + Config.energy s.tick (64 + d)) % 2 ^ 64 }) { s with ctxs := c }

/-- Time passes with a step of the machine. -/
def State.passes (s : State) : State := { s.charged.elapse (Config.elapsed s.tick) with tick := s.tick + 1 }

/-- One step of the machine: a move, and the time it takes. -/
def stepOnce (s : State) : Out :=
  match move s with
  | .next t => .next t.passes
  | .fault f => .fault f
  | .refused r => .refused r

/-! ### An instruction placed where the machine fetches (log 2) -/

/-- A program's first word for hart 0: a supervisor hart of context 0 at `bootPc`, a page table that maps its page and the
word there. -/
def bootPc : Nat := 0x50000

/-- The cells of a context table, three tables and the word (R119 to R124). -/
def bootCells (w : Nat) : List Host.Cell :=
  cellsAt 0x10000 8 0x20001 ++ cellsAt 0x20000 8 0x300C1 ++ cellsAt 0x30000 8 0x400C1 ++ cellsAt 0x40028 8 0x5000F ++
    cellsAt bootPc 4 w

/-- The hart that START creates, at `bootPc` (R417). -/
def State.bootHart (s : State) : Hart :=
  { Hart.spawned 0 0 (w64 bootPc) 0 0 0 7 s.now s.fresh with status := 0x1F11 }

/-- The machine about to fetch the word `w`. -/
def State.placed (s : State) (w : Nat) : State :=
  (({ (s.bump 40).writeMem (bootCells w) with cur := 0, agenda := [], harts := [], cores := [], stations := [] }.setPkg
    { s.pkg with ctxtbase := 0x10000 }).liveCtx 0).setHart 0 s.bootHart

end Sys2Proof.Machine
end

