-- ==== Sys2Proof/Safety.lean ====
section
/-! DEFINITION. What must hold of every state of the machine: the canonical form of memory (log 1), and the alignment of
every PC, in the machine and in the frames it has saved (R29, R104). -/

namespace Sys2Proof.Machine

/-- Bits [1:0] of the PC are 0 (R29). -/
def Hart.pcOk (h : Hart) : Bool := h.pc &&& 3 == 0

/-- Every PC of the machine and of its saved frames is a multiple of 4 (R29). -/
def State.pcOk (s : State) : Bool :=
  (s.harts.all fun (p : Nat × Hart) => p.2.pcOk) && s.frames.all fun (f : SavedFrame) => f.hart.pcOk

/-- The memory of the machine has its canonical form (log 1). -/
def State.memOk (s : State) : Bool := Memory.wf s.mem

/-- The invariant of the machine. -/
def State.Inv (s : State) : Prop := s.memOk = true ∧ s.pcOk = true

end Sys2Proof.Machine
end

