-- ==== Sys2Proof/Certificates/Slice0/Obligations.lean ====
section
/-! DEFINITION. What is claimed of the model: the words in which the statements are made, and the statements. -/

namespace Sys2Proof.Machine

/-! ### The words of the statements -/

/-- The hart that executes is `h`. -/
def Runs (s : State) (h : Hart) : Prop := s.hart? s.cur = some h

/-- `o` is a next state that is `s` but for the executing hart, which is now `h'`: every other hart, every byte of
memory and every other piece of the state is as before. -/
def OnlyHart (s : State) (o : Out) (h' : Hart) : Prop :=
  ∃ t, o = .next t ∧ t.hart? s.cur = some h' ∧ (∀ j, j ≠ s.cur → t.hart? j = s.hart? j) ∧
    (∀ a, Memory.read t.mem a = Memory.read s.mem a) ∧ { t with harts := s.harts } = s

/-- The open step of a hart after a scalar instruction: one element-beat more (R375). -/
def Hart.stepOne (h : Hart) : Option StepRec := h.step.map fun r => { r with done := r.done + 1 }

/-- `h'` is `h` after a scalar instruction that leaves the PC at `pc` and writes `x` to g-register `d`, or discards it
when `d` is g0 (R154); nothing else changes but the count of the open step. -/
def Hart.WroteG (h h' : Hart) (d : Nat) (x pc : W64) : Prop :=
  h'.pc = pc ∧ (∀ n, n < 32 → h'.rg n = if n = d ∧ n ≠ 0 then x else h.rg n) ∧ h'.step = h.stepOne ∧
    { h' with pc := h.pc, g := h.g, step := h.step } = h

/-- A next state in which the executing hart has written `x` to gD and stands at the next word. -/
def WritesG (s : State) (h : Hart) (o : Out) (d : Nat) (x : W64) : Prop :=
  ∃ h', OnlyHart s o h' ∧ h.WroteG h' d x (h.pc + 4)

/-- The same, with the PC at `pc`. -/
def WritesGTo (s : State) (h : Hart) (o : Out) (d : Nat) (x pc : W64) : Prop :=
  ∃ h', OnlyHart s o h' ∧ h.WroteG h' d x pc

/-- A next state in which the executing hart has written `x` to fD, ORed `fl` into FFLAGS (R153) and stands at the next
word. -/
def WritesF (s : State) (h : Hart) (o : Out) (d : Nat) (x : W32) (fl : Nat) : Prop :=
  ∃ h', OnlyHart s o h' ∧ h'.pc = h.pc + 4 ∧ (∀ n, n < 16 → h'.rf n = if n = d then x else h.rf n) ∧
    h'.fflags = h.fflags ||| fl ∧ h'.step = h.stepOne ∧
    { h' with pc := h.pc, f := h.f, fflags := h.fflags, step := h.step } = h

/-- The same for a result in gD. -/
def WritesGF (s : State) (h : Hart) (o : Out) (d : Nat) (x : W64) (fl : Nat) : Prop :=
  ∃ h', OnlyHart s o h' ∧ h'.pc = h.pc + 4 ∧ (∀ n, n < 32 → h'.rg n = if n = d ∧ n ≠ 0 then x else h.rg n) ∧
    h'.fflags = h.fflags ||| fl ∧ h'.step = h.stepOne ∧
    { h' with pc := h.pc, g := h.g, fflags := h.fflags, step := h.step } = h

/-- A precise trap of a hart that may take it (R177): the saved registers, the status and the mode, the PC at the
handler; g-registers, f-registers and flags are as before, and so is everything outside the hart. -/
def Traps (s : State) (h : Hart) (o : Out) (code : Nat) (ret val : W64) : Prop :=
  ∃ h', OnlyHart s o h' ∧ h'.tcInt = false ∧ h'.tcCode = code ∧ h'.trappc = ret &&& 0x007FFFFFFFFFFFFC ∧ h'.trapval = val ∧
    h'.status.getLsbD 0 = true ∧ h'.status.getLsbD 1 = false ∧ h'.status.getLsbD 2 = h.status.getLsbD 0 ∧
    h'.status.getLsbD 3 = h.status.getLsbD 1 ∧ (∀ b, 4 ≤ b → h'.status.getLsbD b = h.status.getLsbD b) ∧
    h'.pc = h.trapvec &&& 0x007FFFFFFFFFFFC0 ∧
    { h' with tcInt := h.tcInt, tcCode := h.tcCode, trappc := h.trappc, trapval := h.trapval, status := h.status, pc := h.pc,
              groups := h.groups, wait := h.wait, step := h.step } = h

/-- The hart may take a trap: it is not in supervisor mode with IE 0 (R177). -/
def Hart.MayTrap (h : Hart) : Prop := h.sup = false ∨ h.ie = true

/-- The 16-bit immediate `i` as sext reads it (R154). -/
def imm16 (i : Nat) : W64 := (BitVec.ofNat 16 i).signExtend 64

/-! ### binary32 patterns (R159, R279) -/

/-- A NaN; a NaN with bit 22 clear. -/
def isNan32 (x : W32) : Bool := decide (0x7F800000 < x.toNat % 2 ^ 31)
def isSNan32 (x : W32) : Bool := isNan32 x && !x.getLsbD 22
def isInf32 (x : W32) : Bool := x.toNat % 2 ^ 31 == 0x7F800000
def isZero32 (x : W32) : Bool := x.toNat % 2 ^ 31 == 0
def isFin32 (x : W32) : Bool := decide (x.toNat % 2 ^ 31 < 0x7F800000)
def isNeg32 (x : W32) : Bool := x.getLsbD 31

/-- The value of a finite pattern: sign, 8-bit exponent with bias 127, 23-bit fraction. -/
def num32 (x : W32) : Rat :=
  let e : Nat := x.toNat / 2 ^ 23 % 2 ^ 8
  let m : Nat := x.toNat % 2 ^ 23
  (if x.getLsbD 31 then -1 else 1) *
    (if e = 0 then (m : Rat) * (2 : Rat) ^ (-149 : Int) else ((2 ^ 23 + m : Nat) : Rat) * (2 : Rat) ^ ((e : Int) - 150))

/-- The place of a pattern that is not NaN in the order of values, with -0 below +0. -/
def ord32 (x : W32) : Int := if x.getLsbD 31 then -((x.toNat % 2 ^ 31 : Nat) : Int) - 1 else ((x.toNat % 2 ^ 31 : Nat) : Int)

/-- The signed infinity, the signed largest finite value and the signed zero. -/
def inf32 (neg : Bool) : W32 := if neg then 0xFF800000 else 0x7F800000
def max32 (neg : Bool) : W32 := if neg then 0xFF7FFFFF else 0x7F7FFFFF
def zero32 (neg : Bool) : W32 := if neg then 0x80000000 else 0

/-- `z` is a finite pattern, and the one to which the rounding mode RM = `r` of R37 takes the number `e`: 0 to nearest,
ties to even; 1 toward zero; 2 down; 3 up; 4 to nearest, ties away from zero. -/
def RoundsTo (r : Nat) (e : Rat) (z : W32) : Prop :=
  isFin32 z ∧ ∀ w, isFin32 w →
    match r with
    | 0 => |num32 z - e| ≤ |num32 w - e| ∧
        (|num32 z - e| = |num32 w - e| → num32 w ≠ num32 z → z.getLsbD 0 = false)
    | 1 => 0 ≤ num32 z * e ∧ |num32 z| ≤ |e| ∧ (|num32 w| ≤ |e| → |num32 w| ≤ |num32 z|)
    | 2 => num32 z ≤ e ∧ (num32 w ≤ e → num32 w ≤ num32 z)
    | 3 => e ≤ num32 z ∧ (e ≤ num32 w → num32 z ≤ num32 w)
    | _ => |num32 z - e| ≤ |num32 w - e| ∧ (|num32 z - e| = |num32 w - e| → |num32 w| ≤ |num32 z|)

/-- The mode RM = `r` takes a number with the sign of `e` away from zero. -/
abbrev Outward (r : Nat) (e : Rat) : Prop := (r = 3 ∧ 0 < e) ∨ (r = 2 ∧ e < 0)

/-- A number other than 0 that, rounded to 24 bits with an unbounded exponent, lies below 2^-126 (R159): the largest such
value below it is 2^-126 - 2^-150. -/
def tiny32 (r : Nat) (e : Rat) : Prop :=
  (Outward r e → |e| ≤ (2 : Rat) ^ (-126 : Int) - (2 : Rat) ^ (-150 : Int)) ∧
  (¬ Outward r e → (r = 0 ∨ r = 4) → |e| < (2 : Rat) ^ (-126 : Int) - (2 : Rat) ^ (-151 : Int)) ∧
  |e| < (2 : Rat) ^ (-126 : Int)

/-- What an arithmetic operation gives for an exact finite result `e` that is not 0 (R159). Up to the largest finite number:
the rounded number, where a zero keeps the sign of `e`; NX exactly when it differs from `e`, and then UF exactly for a tiny
one. Above it, a number that rounds to 2^128 or more gives infinity or the largest finite value, with OF and NX; one that
rounds to the largest finite number gives that with NX alone. -/
def ArithResult (r : Nat) (e : Rat) (z : W32) (fl : Nat) : Prop :=
  let M := num32 (max32 false)
  let top := (2 : Rat) ^ (128 : Int)
  (|e| ≤ M → RoundsTo r e z ∧ (num32 z = 0 → z = zero32 (decide (e < 0))) ∧ (num32 z = e → fl = 0) ∧
    (num32 z ≠ e → (tiny32 r e → fl = 24) ∧ (¬ tiny32 r e → fl = 16))) ∧
  (M < |e| → |e| < top →
    if Outward r e ∨ ((r = 0 ∨ r = 4) ∧ (M + top) / 2 ≤ |e|) then fl = 20 ∧ z = inf32 (decide (e < 0))
    else fl = 16 ∧ z = max32 (decide (e < 0))) ∧
  (top ≤ |e| → fl = 20 ∧
    z = if r = 0 ∨ r = 4 ∨ Outward r e then inf32 (decide (e < 0)) else max32 (decide (e < 0)))

/-! ### Memory (R65, R113, R158) -/

/-- Byte `i` of a number, little-endian (R2). -/
def byteOf (v i : Nat) : Byte := BitVec.ofNat 8 (v / 256 ^ i)
/-- The number of `n` bytes, little-endian (R2). -/
def littleEndian (n : Nat) (f : Nat → Byte) : Nat := ((List.range n).map fun i => (f i).toNat * 256 ^ i).sum

/-- An access of `n` bytes at `va` by the executing hart `h` may be performed through the translation `x`: it waits for no
older access (R25, R138, R248) and for no table of a die that is cut off (R407), it is aligned and passes its probe (R65), its bytes lie in one line of memory that can be
reached (R407) and is not migrated (R357), not in a device register; where the station cache serves it, the slice of the
line has room (R111, R112). -/
def Access (s : State) (h : Hart) (va n : Nat) (k : AKind) (x : Xlat) : Prop :=
  h.accessWaits va n (k != .r) = false ∧ s.walkAway (h.who s.cur) va n = false ∧ s.probe1 (h.who s.cur) { e := 0, va := va, n := n, k := k, al := n } = none ∧
    s.translate (h.who s.cur) va = some x ∧ (pathOf x = .device → h.deviceWaits = false) ∧
    s.cutOff s.cur x.pa = false ∧ (∀ d o, regionOf x.pa ≠ .dev d o) ∧ x.pa % 64 + n ≤ 64 ∧
    (s.frameInfo (x.pa / 65536)).slot = none ∧ (pathOf x = .cached → (s.stn (stnOf s.cur)).full (x.pa / 64) = false)

/-- The same for an access to a device register, at offset `o` of the registers of die `q` (R117, R364, R373). -/
def DeviceAccess (s : State) (h : Hart) (va n : Nat) (k : AKind) (x : Xlat) (q o : Nat) : Prop :=
  h.accessWaits va n (k != .r) = false ∧ s.walkAway (h.who s.cur) va n = false ∧
    s.probe1 (h.who s.cur) { e := 0, va := va, n := n, k := k, al := n } = none ∧
    s.translate (h.who s.cur) va = some x ∧ pathOf x = .device ∧ h.deviceWaits = false ∧ s.cutOff s.cur x.pa = false ∧
    regionOf x.pa = .dev q o ∧ h.stripAt va = none

/-- Byte `i` as the executing hart reads it: from the buffer of its open strip (R248), from the caches of its station, or
at home (R113, R135). -/
def loadByte (s : State) (h : Hart) (va : Nat) (x : Xlat) (i : Nat) : Byte :=
  let b := if pathOf x = .cached then s.stationByte (stnOf s.cur) (x.pa + i) else Memory.read s.mem (x.pa + i)
  match h.stripAt va with
  | some t => (find? t.buf (va + i)).getD b
  | none => b

/-- `o` is a next state in which the executing hart is `h'` and every byte, at home and as any station reads it, is as
before: only clean copies and translations may have been added. -/
def OnlyReads (s : State) (o : Out) (h' : Hart) : Prop :=
  ∃ t, o = .next t ∧ t.hart? s.cur = some h' ∧ (∀ j, j ≠ s.cur → t.hart? j = s.hart? j) ∧
    (∀ a, Memory.read t.mem a = Memory.read s.mem a) ∧ (∀ k a, t.stationByte k a = s.stationByte k a) ∧
    (∀ k, { t.stn k with clean := (s.stn k).clean } = s.stn k) ∧
    { t with harts := s.harts, stations := s.stations, tlb := s.tlb } = s

/-- A load that leaves `v` in gD. -/
def LoadsG (s : State) (h : Hart) (o : Out) (d : Nat) (v : W64) : Prop :=
  ∃ h', OnlyReads s o h' ∧ h.WroteG h' d v (h.pc + 4)

/-- A store of `n` bytes of `v` at `va` through `x`: into the buffer of the open strip, into the caches of the station, or
home. A write ends the watches of its line there (R163). Every other byte is as before, and of the hart only the
PC, the count of its open step and that buffer. `home` is
whether the store is performed at home even when its page is cached (R140). -/
def Stores (s : State) (h : Hart) (o : Out) (va n v : Nat) (x : Xlat) (home : Bool) : Prop :=
  ∃ t h', o = .next t ∧ t.hart? s.cur = some h' ∧ (∀ j, j ≠ s.cur → t.hart? j = s.hart? j) ∧
    h'.pc = h.pc + 4 ∧ h'.step = h.stepOne ∧ { h' with pc := h.pc, step := h.step, strip := h.strip } = h ∧
    { t with harts := s.harts, stations := s.stations, dies := s.dies, mem := s.mem, tlb := s.tlb, watch := s.watch } = s ∧
    match h.stripAt va with
    | some b =>
      t.watch = s.watch ∧ t.mem = s.mem ∧ t.stations = s.stations ∧ t.dies = s.dies ∧
        ∃ b', h'.strip = some b' ∧ b'.base = b.base ∧ b'.seq = b.seq ∧
          ∀ a, find? b'.buf a = if va ≤ a ∧ a < va + n then some (byteOf v (a - va)) else find? b.buf a
    | none =>
      h'.strip = h.strip ∧
      if pathOf x = .cached ∧ home = false then
        t.watch = s.watch ∧ t.mem = s.mem ∧ t.dies = s.dies ∧
          (∀ k, { t.stn k with dirty := (s.stn k).dirty, watch := (s.stn k).watch } = s.stn k) ∧
          (∀ k w, w ∈ (t.stn k).watch ↔ w ∈ (s.stn k).watch ∧ ¬ (k = stnOf s.cur ∧ w.2 = x.pa / 64)) ∧
          ∀ k a, t.stationByte k a =
            if k = stnOf s.cur ∧ x.pa ≤ a ∧ a < x.pa + n then byteOf v (a - x.pa) else s.stationByte k a
      else
        (pathOf x ≠ .cached → t.stations = s.stations) ∧ (∀ w, w ∈ t.watch ↔ w ∈ s.watch ∧ w.2 ≠ x.pa / 64) ∧
          ∀ a, Memory.read t.mem a = if x.pa ≤ a ∧ a < x.pa + n then byteOf v (a - x.pa) else Memory.read s.mem a

/-- A store at home of these bytes is admitted by the Weir (R351, R352); a frame of class none admits every store. -/
def Admitted (s : State) (x : Xlat) (n v : Nat) : Prop :=
  (s.homePart (x.pa / 65536) (cellsAt x.pa n v) [] (thrOf x) false).isSome = true

/-- Each context has at most one supervisor hart (R152). -/
def State.OneSupervisor (s : State) : Prop :=
  ∀ p ∈ s.harts, ∀ q ∈ s.harts, p.2.svh = true → q.2.svh = true → p.2.ctx = q.2.ctx → p.1 = q.1

/-- The accumulators of a tile: positions 128 * m + n below 8192, rising, each value nonzero and of 136 bits (R256). -/
def Tile.Ok (t : Tile) : Prop :=
  t.acc.Pairwise (fun (a b : Nat × Nat) => a.1 < b.1) ∧ ∀ a ∈ t.acc, a.1 < 8192 ∧ 0 < a.2 ∧ a.2 < 2 ^ 136

/-- Every tile of the machine, and of its saved frames, is in that form. -/
def State.TilesOk (s : State) : Prop :=
  (∀ k, ∀ t ∈ (s.core k).tiles.toList, t.Ok) ∧ ∀ f ∈ s.frames, ∀ t ∈ f.tiles, t.2.Ok

/-- `h` after a scalar instruction that changes no register (R29, R375). -/
def Hart.moved (h : Hart) : Hart := { h with pc := h.pc + 4, step := h.stepOne }

/-- A frame of 0x89_8000 bytes at `base` passes the checks of VFRAME.SAVE and VFRAME.RESTORE (R175, R176): its alignment,
its probe, and the class of every page. `pa` gives the device-physical address of each byte. -/
def FrameRange (s : State) (h : Hart) (base : Nat) (k : AKind) (pa : Nat → Nat) : Prop :=
  base % 65536 = 0 ∧ s.probe1 (h.who s.cur) { e := 0, va := base, n := 0x898000, k := k, al := 1 } = none ∧
    ∀ o, o < 0x898000 → ∃ x, s.translate (h.who s.cur) (base + o) = some x ∧ x.pa = pa o ∧ pathOf x ≠ .device ∧
      s.lossless (x.pa / 65536) = false

/-- The outcome `o` with `f` applied to its next state. -/
def After (o : Out) (f : State → State) : Out :=
  match o with
  | .next t => .next (f t)
  | .fault e => .fault e
  | .refused e => .refused e

/-- The word of TMERGE in which the VB field is above 1: R31 fails it, in the third step of R50. -/
def tmergeWord (w : Nat) : Prop :=
  w / 2 ^ 26 = 0x2D ∧ ∃ a b c, decode (w % 2 ^ 32 - w / 2 ^ 14 % 32 * 2 ^ 14) = .ok (.tmerge a b c)

/-- The hart that is current after hart `id`: the next listed one. -/
def State.after (t : State) (id : Nat) : State :=
  { t with cur := ((t.harts.find? fun p => decide (id < p.1)).orElse fun _ => t.harts.head?).elim id Prod.fst }

/-- Bits [lo+n-1:lo] of a register. -/
def fieldOf (x : W64) (lo n : Nat) : Nat := x.toNat / 2 ^ lo % 2 ^ n

/-- The widest of WD, WA and WB of a VTYPE, in bits (R36). -/
def widest (vt : W64) : Nat := max (fieldOf vt 0 6) (max (fieldOf vt 6 6) (fieldOf vt 12 6)) + 1

/-- Elements per lane under a VCFG and a VTYPE (R75, R77). -/
def elementsPerLane (vcfg vt : W64) : Nat :=
  min 64 (fieldOf vcfg 8 5 * 128 * 2 ^ fieldOf vt 22 2 / (8 * 2 ^ fieldOf vcfg 0 2 * widest vt))

/-- The properties for which R38 refuses a requested VTYPE. -/
def RefusedType (vt : W64) : Prop :=
  let kind := fieldOf vt 18 4
  let wd := fieldOf vt 0 6 + 1
  fieldOf vt 36 28 ≠ 0 ∨ 13 ≤ kind ∨ 6 ≤ fieldOf vt 26 3 ∨ fieldOf vt 24 2 = 3 ∨
    32 ≤ fieldOf vt 0 6 ∨ 32 ≤ fieldOf vt 6 6 ∨ 32 ≤ fieldOf vt 12 6 ∨
    ((kind, wd) ∉ ([(4, 32), (5, 16), (6, 16), (7, 8), (8, 8), (9, 6), (10, 6), (11, 4), (12, 8)] : List (Nat × Nat)) ∧ 4 ≤ kind) ∨
    ((kind = 2 ∨ kind = 3) ∧ wd < fieldOf vt 30 6) ∨ (kind ≠ 2 ∧ kind ≠ 3 ∧ fieldOf vt 30 6 ≠ 0)

/-- VLMAX (R77), 0 under VILL. -/
def vlmaxOf (vcfg vt : W64) : Nat := if vt.getLsbD 36 then 0 else 16384 * elementsPerLane vcfg vt

/-- The lanes of a hart are idle: its queues are empty and not stopped, no write to SBCAP is pending, it does not wait and is
not frozen, none of its groups is spilled, and no register is bound. -/
def Hart.LanesIdle (h : Hart) : Prop :=
  h.vq = [] ∧ h.mq = [] ∧ h.sq = [] ∧ h.qstop = false ∧ h.wait = none ∧ h.frozen = none ∧
    (∀ g ∈ h.groups, g.st ≠ .spilled) ∧ h.binds = [] ∧ h.sbpend = []

/-- No other hart of the executing hart's station has work for the lanes. -/
def LanesFree (s : State) : Prop := ∀ p ∈ s.harts, stnOf p.1 = stnOf s.cur → p.1 ≠ s.cur → p.2.vq = []

/-- A vector word with header `hd` may run at once (log 3): the lanes are idle and no other hart of the station wants them,
it begins a convoy, the token that it pops is there and the one that it pushes has room (R20, R21); VTYPE is one that R38
accepts, and VL lies within the grant. -/
def VecReady (s : State) (h : Hart) (hd : VHdr) : Prop :=
  s.eager = true ∧ h.LanesIdle ∧ LanesFree s ∧ (hd.c = 0 ∨ h.convoy = none) ∧ hd.msk < 8 ∧
    (hd.tk.testBit 1 = true → 0 < h.tokens (fifo (fieldOf h.tkroute 2 2) engVector)) ∧
    (hd.tk.testBit 0 = true → h.tokens (fifo engVector (fieldOf h.tkroute 0 2)) < 15) ∧
    ¬ RefusedType h.vtype ∧ 1 ≤ h.gcount ∧ h.vl ≤ 256 * h.gcount * elementsPerLane h.vcfg h.vtype

/-- A register field that R40 accepts, a multiple of GROUP below the register count, whose registers carry one tag: R188
speaks of the tag of an operand, and what unlike tags do is the model's choice alone (log 45). -/
def RegField (h : Hart) (k : Nat) : Prop :=
  k < 8 * 2 ^ fieldOf h.vcfg 0 2 ∧ k % 2 ^ fieldOf h.vtype 22 2 = 0 ∧ fieldOf h.vcfg 0 2 < 3 ∧
    ∀ j, j < 2 ^ fieldOf h.vtype 22 2 → (vreg h.v (k + j)).tag = (vreg h.v k).tag

/-- Element e is active (R191). -/
def Hart.activeElem (h : Hart) (hd : VHdr) (e : Nat) : Prop := e < h.vl ∧ (hd.msk = 0 ∨ maskBit h hd.msk e = true)

/-- The raw integer of element e of the operand at register k, read at width w under VTYPE.KIND (R187, R188, R203). -/
def intElem (h : Hart) (k w e : Nat) : Int :=
  let sgn := kindSigned (fieldOf h.vtype 18 4)
  let x := readInt h k (2 ^ fieldOf h.vtype 22 2) w sgn e
  if sgn then sx w x else (x : Int)

/-- The raw integer of gB[w-1:0] under VTYPE.KIND (R190). -/
def intScalar (h : Hart) (b w : Nat) : Int :=
  let x := (h.rg b).toNat % 2 ^ w
  if kindSigned (fieldOf h.vtype 18 4) then sx w x else (x : Int)

/-- What write() (or clamp(), with `sat`) of R203 stores for the raw integer z, and whether SV rises. -/
def storeInt (vt : W64) (sat : Bool) (z : Int) : Nat × Bool :=
  let wd := fieldOf vt 0 6 + 1
  let sgn := kindSigned (fieldOf vt 18 4)
  let lo : Int := if sgn then -(2 ^ (wd - 1)) else 0
  let hi : Int := if sgn then 2 ^ (wd - 1) - 1 else 2 ^ wd - 1
  let y := if sat then max lo (min hi z) else z
  ((y % 2 ^ wd).toNat, decide (y ≠ z))

/-- `o` is a next state in which the hart is `h'`: the word has run, the lanes are idle again, no g-register, f-register or
byte of memory and no other hart has changed. -/
def VecRan (s : State) (h : Hart) (o : Out) (h' : Hart) : Prop :=
  ∃ t, o = .next t ∧ t.hart? s.cur = some h' ∧ (∀ j, j ≠ s.cur → t.hart? j = s.hart? j) ∧
    { t with harts := s.harts, cores := s.cores, fresh := s.fresh } = s ∧
    h'.pc = h.pc + 4 ∧ h'.vq = [] ∧ h'.g = h.g ∧ h'.f = h.f ∧ h'.vl = h.vl ∧ h'.vtype = h.vtype ∧ h'.status = h.status ∧
    h'.groups = h.groups

/-- The v-registers but those from d on of one operand, the masks and the accumulators are as before. -/
def OnlyV (h h' : Hart) (d : Nat) : Prop :=
  h'.m = h.m ∧ h'.xacc = h.xacc ∧
    ∀ k, k < 32 → ¬ (d ≤ k ∧ k < d + 2 ^ fieldOf h.vtype 22 2) → vreg h'.v k = vreg h.v k

/-- The destination at register d after a write of width WD (R192, R193): each written element holds its result; one that is
not written keeps its bits when the register was untagged or had width WD; a written row leaves the tag WD. -/
def WroteRow (h h' : Hart) (d : Nat) (wrote : Nat → Prop) (res : Nat → Nat) : Prop :=
  let g := 2 ^ fieldOf h.vtype 22 2
  let wd := fieldOf h.vtype 0 6 + 1
  OnlyV h h' d ∧ (h.vl = 0 → h'.v = h.v) ∧
    (0 < h.vl → ∀ k, k < g → (vreg h'.v (d + k)).tag.map Tag.w = some wd) ∧
    ∀ e, e < h.vl →
      (wrote e → readElem h'.v h.geo d g wd e = res e) ∧
      (¬ wrote e → (vreg h.v d).tag = none ∨ (vreg h.v d).tag.map Tag.w = some wd →
        readElem h'.v h.geo d g wd e = readElem h.v h.geo d g wd e)

/-- FFLAGS after a word that may raise the one flag of bit `b`, when `p` holds (R208). -/
def FlagIff (h h' : Hart) (b : Nat) (p : Prop) : Prop :=
  (h'.fflags.testBit b = true ↔ h.fflags.testBit b = true ∨ p) ∧ ∀ k, k ≠ b → h'.fflags.testBit k = h.fflags.testBit k

/-- The mask register at `d` takes `p` in the active elements and keeps its other bits; nothing else is written. -/
def SetsMask (s : State) (h : Hart) (hd : VHdr) (d : Nat) (o : Out) (p : Nat → Prop) : Prop :=
  ∃ h', VecRan s h o h' ∧ h'.v = h.v ∧ h'.xacc = h.xacc ∧ h'.fflags = h.fflags ∧
    (∀ k, k < 8 → k ≠ d → mreg h' k = mreg h k) ∧
    ∀ e, (h.activeElem hd e → (maskBit h' d e = true ↔ p e)) ∧ (¬ h.activeElem hd e → maskBit h' d e = maskBit h d e)

/-- The fold of a list, or `z` when it is empty. -/
def foldFrom {α : Type} (f : α → α → α) (z : α) : List α → α
  | [] => z
  | x :: t => t.foldl f x

/-- `o` is a next state in which the word has been dispatched and its instruction has stopped in its queue (R100, R101) with
this cause, TRAPVAL and ESTART; no byte of memory has changed, and no register that an instruction reads but the
v-registers, of which `P` tells. -/
def EngineFaultsAfter (s : State) (h : Hart) (o : Out) (q : Queue) (c : Cause) (val : W64) (est : Nat) (P : Hart → Prop) :
    Prop :=
  ∃ t h' k, o = .next t ∧ t.hart? s.cur = some h' ∧ (∀ j, j ≠ s.cur → t.hart? j = s.hart? j) ∧ h'.qstop = true ∧
    h'.pc = h.pc + 4 ∧ h'.faults = h.faults ++ [EFault.mk q k h.pc c val est true] ∧ h'.g = h.g ∧ h'.f = h.f ∧
    h'.m = h.m ∧ h'.xacc = h.xacc ∧ h'.vl = h.vl ∧ h'.vtype = h.vtype ∧ h'.status = h.status ∧ t.mem = s.mem ∧ P h'

/-- The same, with nothing performed: the v-registers are as before. -/
def EngineFaults (s : State) (h : Hart) (o : Out) (q : Queue) (c : Cause) (val : W64) (est : Nat) : Prop :=
  EngineFaultsAfter s h o q c val est fun h' => h'.v = h.v

/-- Who translates for an access of the executing hart on a path of its own (R125, R126). -/
def via (s : State) (h : Hart) (p : TlbPort) : Who1 := { h.who s.cur with port := p }

/-- The executing hart reaches the byte at address `a` through `xl a`, on the path p: in memory, not a device, that, like the
tables of the walk, can be reached (R407), and is not migrated (R357). -/
def ReachesByte (s : State) (h : Hart) (p : TlbPort) (xl : Nat → Xlat) (a : Nat) : Prop :=
  s.walkAway (via s h p) a 1 = false ∧ s.translate (via s h p) a = some (xl a) ∧ pathOf (xl a) ≠ .device ∧ s.cutOff s.cur (xl a).pa = false ∧
    (s.frameInfo ((xl a).pa / 65536)).slot = none

/-- The copies in the TLBs agree with the tables (R125, R129), and stores to the places of W leave the tables alone: each of
the copies by itself, or none of them, leads where the walk leads, through tables that can be reached (R407). -/
def TlbsAgree (s : State) (h : Hart) (p : TlbPort) (W : Nat → Prop) : Prop :=
  ∀ l m, (l = [] ∨ ∃ t ∈ s.tlb, l = [t]) → (∀ q, ¬ W q → Memory.read m q = Memory.read s.mem q) → ∀ a,
    let u : State := { s with tlb := l, mem := m }
    u.translate (via s h p) a = s.walk h.ctx (dieOf s.cur) false a ∧ u.walkAway (via s h p) a 1 = false

/-- Every table that a walk on the path p reads can be reached (R407). -/
def WalksReach (s : State) (h : Hart) (p : TlbPort) : Prop := ∀ a, s.walkAway (via s h p) a 1 = false

/-- The slices of the station cache have room for the lines of the cached bytes of P (R111, R112), so that no line has to
leave; its dirty bytes are listed by address. -/
def RoomFor (s : State) (xl : Nat → Xlat) (P : Nat → Prop) : Prop :=
  let t := s.stn (stnOf s.cur)
  t.dirty.Pairwise (fun (a b : Host.Cell) => a.1 < b.1) ∧
    ∃ l : List Nat, (∀ a, P a → pathOf (xl a) = .cached → (xl a).pa / 64 ∈ l) ∧
      ∀ k, k < 16 → (t.sliceDirty k).length + (t.sliceClean k).length + (l.filter fun x => x % 16 == k).length ≤ 2048

/-- A frame of class none, whose other fields mean nothing: it admits every store and is not changed by one. -/
def State.PlainFrame (s : State) (fr : Nat) : Prop :=
  (s.frameInfo fr).lossless = false ∧ (s.frameInfo fr).cold = false ∧ (s.frameInfo fr).maxeff = false ∧
    (s.frameInfo fr).slot = none

/-- The bytes of P can be stored to: each at a place of its own, cached or in a plain frame. -/
def CanStore (s : State) (xl : Nat → Xlat) (P : Nat → Prop) : Prop :=
  (∀ a, P a → pathOf (xl a) = .cached ∨ s.PlainFrame ((xl a).pa / 65536)) ∧
    ∀ a b, P a → P b → (xl a).pa = (xl b).pa → a = b

/-- The byte at address `a` in state `t`: from the caches of the executing hart's station, or at home (R113, R135). -/
def byteAt (s t : State) (xl : Nat → Xlat) (a : Nat) : Byte :=
  if pathOf (xl a) = .cached then t.stationByte (stnOf s.cur) (xl a).pa else Memory.read t.mem (xl a).pa

/-- No byte but those at the addresses of P is changed, at home or as a station reads it. -/
def OnlyBytes (s t : State) (xl : Nat → Xlat) (P : Nat → Prop) : Prop :=
  ∀ p, (∀ a, P a → (xl a).pa ≠ p) →
    Memory.read t.mem p = Memory.read s.mem p ∧ ∀ k, t.stationByte k p = s.stationByte k p

/-- `t` is the next state of a VMU word that has run: of the executing hart, now `h'`, its PC, its row and its caches have
changed, and of the rest of the machine only memory, caches and TLBs. -/
def VmuRan (s : State) (h : Hart) (t : State) (h' : Hart) : Prop :=
  t.hart? s.cur = some h' ∧ (∀ j, j ≠ s.cur → t.hart? j = s.hart? j) ∧
    { t with harts := s.harts, cores := s.cores, stations := s.stations, tlb := s.tlb, mem := s.mem, watch := s.watch,
             fresh := s.fresh } = s ∧
    (∀ k, { t.stn k with dirty := (s.stn k).dirty, clean := (s.stn k).clean, watch := (s.stn k).watch } = s.stn k) ∧
    h'.pc = h.pc + 4 ∧ h'.vq = [] ∧ h'.g = h.g ∧ h'.f = h.f ∧ h'.xacc = h.xacc ∧ h'.fflags = h.fflags ∧ h'.vl = h.vl ∧
    h'.vtype = h.vtype ∧ h'.status = h.status ∧ h'.groups = h.groups ∧ h'.ilk = [] ∧ h'.strip = h.strip

/-- Element e of a VMU access with bit addresses B and width w covers bit number q of memory, and touches byte p (R227). -/
def Covers (B : Nat → Int) (w e : Nat) (q : Int) : Prop := B e ≤ q ∧ q < B e + w
def Touches (B : Nat → Int) (w e p : Nat) : Prop := B e < 8 * (p : Int) + 8 ∧ 8 * (p : Int) < B e + w

/-- The probe of element e (R233) on the path p: its first byte and the bytes that it touches, in an address space that does
not wrap. -/
def probeElem (s : State) (h : Hart) (p : TlbPort) (B : Nat → Int) (w : Nat) (k : AKind) (al e : Nat) : Option (Cause × Nat) :=
  s.probe1 (via s h p) { e := e, va := (B e / 8).toNat, n := ((B e % 8).toNat + w + 7) / 8, k := k, al := al }

/-- The elements that satisfy `act` pass their probe, the hart reaches every byte of theirs, and the station cache has room
for them. -/
def ElemsOk (s : State) (h : Hart) (p : TlbPort) (xl : Nat → Xlat) (B : Nat → Int) (w : Nat) (k : AKind) (al : Nat)
    (act : Nat → Prop) : Prop :=
  (∀ e, act e → 0 ≤ B e ∧ B e + w ≤ 2 ^ 58 ∧ probeElem s h p B w k al e = none ∧
    ∀ a, Touches B w e a → ReachesByte s h p xl a) ∧
  RoomFor s xl fun a => ∃ e, act e ∧ Touches B w e a

/-- The addresses of a strip's buffer rise strictly, in a 55-bit space (R247). -/
def Strip.Sorted (b : Strip) : Prop := b.buf.Pairwise (fun (x y : Host.Cell) => x.1 < y.1) ∧ ∀ x ∈ b.buf, x.1 < 2 ^ 55

/-- Every buffered line of the strip passes the probe of its write on the path p, and every buffered byte is reached and can
be stored to (R246). -/
def StripWritable (s : State) (h : Hart) (p : TlbPort) (xl : Nat → Xlat) (b : Strip) : Prop :=
  (∀ x ∈ b.buf, ∀ y ∈ b.buf, x.1 ≤ y.1 → x.1 / 64 = y.1 / 64 →
    s.probe1 (via s h p) { e := 0, va := x.1, n := y.1 - x.1 + 1, k := .w, al := 1 } = none) ∧
  (∀ x ∈ b.buf, ReachesByte s h p xl x.1) ∧ (RoomFor s xl fun a => ∃ x ∈ b.buf, x.1 = a) ∧
  (TlbsAgree s h p fun q => ∃ x ∈ b.buf, (xl x.1).pa = q) ∧
  CanStore s xl fun a => ∃ x ∈ b.buf, x.1 = a

/-- `t` is `s` with the buffered bytes at their places, the executing hart now `h'`. -/
def StripWritten (s : State) (t : State) (h' : Hart) (xl : Nat → Xlat) (b : Strip) : Prop :=
  t.hart? s.cur = some h' ∧ (∀ j, j ≠ s.cur → t.hart? j = s.hart? j) ∧ (∀ x ∈ b.buf, byteAt s t xl x.1 = x.2) ∧
    OnlyBytes s t xl fun a => ∃ x ∈ b.buf, x.1 = a

/-- A matrix word with TK bits `tk` may run at once (log 3): the queues are empty and not stopped, no other hart of the core
has matrix work, no register is bound, the token that it pops is there and the one that it pushes has room (R20, R21). -/
def MtxReady (s : State) (h : Hart) (tk : Nat) : Prop :=
  s.eager = true ∧ (∀ p ∈ s.harts, coreOf p.1 = coreOf s.cur → p.1 ≠ s.cur → p.2.mq = []) ∧ h.mq = [] ∧ h.vq = [] ∧ h.sq = [] ∧ h.qstop = false ∧ h.binds = [] ∧
    (tk.testBit 1 = true → 0 < h.tokens (fifo (fieldOf h.tkroute 6 2) engMatrix)) ∧
    (tk.testBit 0 = true → h.tokens (fifo engMatrix (fieldOf h.tkroute 4 2)) < 15)

/-- `o` is a next state in which a matrix word has run: the executing hart is now `h'`, tile `td` of its core is `x`, and
tokens have moved as TK says (R21). The engine has served the hart (R96). Of the hart only the PC, tokens, sequence numbers, the step count, v-registers, FFLAGS
and SRCTR may have changed; no other tile, no other hart and no memory has. -/
def MtxRan (s : State) (h : Hart) (o : Out) (tk td : Nat) (x : Tile) (h' : Hart) : Prop :=
  let pop := fifo (fieldOf h.tkroute 6 2) engMatrix
  let push := fifo engMatrix (fieldOf h.tkroute 4 2)
  ∃ t, o = .next t ∧ t.hart? s.cur = some h' ∧ (∀ j, j ≠ s.cur → t.hart? j = s.hart? j) ∧
    { t with harts := s.harts, cores := s.cores, fresh := s.fresh } = s ∧
    (∀ k, { t.core k with tiles := (s.core k).tiles, mtxTurns := (s.core k).mtxTurns } = s.core k) ∧
    (∀ k j, k ≠ coreOf s.cur ∨ j ≠ td → (t.core k).tiles[j]? = (s.core k).tiles[j]?) ∧ t.tile s.cur td = x ∧
    h'.pc = h.pc + 4 ∧
    (∀ f, f < 16 → h'.tokens f = h.tokens f - (if tk.testBit 1 ∧ f = pop then 1 else 0) + (if tk.testBit 0 ∧ f = push then 1 else 0)) ∧
    { h' with pc := h.pc, step := h.step, tok := h.tok, seq := h.seq, ilk := h.ilk, v := h.v, fflags := h.fflags,
              srctr := h.srctr } = h

/-- A tile whose accumulators are, modulo 2^136, the numbers `f`, held as tile `y` is. -/
def TileHolds (x y : Tile) (f : Nat → Nat → Int) : Prop :=
  x.Ok ∧ x.held = y.held ∧ x.last = y.last ∧ ∀ m n, m < 64 → n < 128 → x.sval m n % (2 ^ 136 : Int) = f m n % (2 ^ 136 : Int)

/-- Each tile flag (R257) is set where it was, or where `p` says so; bits 0, 4, 6, 7 are NV, NX, TV, SU. -/
def TileFlags (old new : Nat) (p : Nat → Prop) : Prop := ∀ b, new.testBit b = true ↔ old.testBit b = true ∨ p b

/-- The integer nearest to a number, to even on a tie (R64). -/
def Nearest (q : Rat) (z : Int) : Prop := |(z : Rat) - q| ≤ 1 / 2 ∧ (|(z : Rat) - q| = 1 / 2 → z % 2 = 0)

/-- A value that is a number, and that number. -/
def Val.isNum : Val → Bool
  | .fin _ _ => true
  | _ => false
def Val.num : Val → Rat
  | .fin _ q => q
  | _ => 0

/-- An untagged register, or one with tag width w (R189). -/
def TagFits (h : Hart) (k w : Nat) : Prop := (vreg h.v k).tag = none ∨ (vreg h.v k).tag.map Tag.w = some w

/-- The fields of a word of the stream queue (R307): slot, TK, GA, GB, and the g-register at its third place. -/
def streamFields : Instr → Option (Nat × Nat × Nat × Nat × Nat)
  | .sld k q _ a b => some (q, k, a, b, 0)
  | .sst k q _ a b => some (q, k, a, b, 0)
  | .scpy k q d a b => some (q, k, a, b, d)
  | .spln k q _ a b => some (q, k, a, b, 0)
  | .sldG k q _ a b => some (q, k, a, b, 0)
  | .sind k q _ a b => some (q, k, a, b, 0)
  | .spat k q _ a => some (q, k, a, 0, 0)
  | .sbind k q _ a b => some (q, k, a, b, 0)
  | .sunbind k q => some (q, k, 0, 0, 0)
  | .ssend k q d a b => some (q, k, a, b, d)
  | _ => none

/-- The word names v-register d (R307). -/
def NamesV (i : Instr) (d : Nat) : Prop :=
  ∃ k q a b, i ∈ [Instr.sld k q d a b, .sst k q d a b, .spln k q d a b, .sldG k q d a b, .sind k q d a b, .spat k q d a, .sbind k q d a b]

/-- A stream word with TK bits k may leave its queue at once (log 3): the queues are empty and not stopped, no strip is open and
the Weir holds nothing of the hart's streams; the token that it pops is there and the one that it pushes has room (R20, R21). -/
def StreamIdle (s : State) (h : Hart) (k : Nat) : Prop :=
  s.eager = true ∧ h.sq = [] ∧ h.vq = [] ∧ h.mq = [] ∧ h.qstop = false ∧ h.strip = none ∧
    (∀ x ∈ s.dies, ∀ w ∈ x.2.held, ∀ j, w.master ≠ .engine s.cur .stream j) ∧ s.memOk = true ∧ k < 4 ∧
    (k.testBit 1 = true → 0 < h.tokens (fifo (fieldOf h.tkroute 10 2) engStream)) ∧
    (k.testBit 0 = true → h.tokens (fifo engStream (fieldOf h.tkroute 8 2)) < 15)

/-- And it may take its slot: all slots are empty and no interlock entry is held (R302, R324). -/
def StreamReady (s : State) (h : Hart) (k : Nat) : Prop :=
  StreamIdle s h k ∧ h.ilk = [] ∧ ∀ t ∈ h.slots.toList, t.holder = none ∧ t.bind = none ∧ t.stopped = false

/-- n bytes at `a` that one burst moves (R303, R305): they lie in one page, pass the probe, and are reached. -/
def BurstOk (s : State) (h : Hart) (xl : Nat → Xlat) (a n : Nat) (k : AKind) (al : Nat) : Prop :=
  0 < n ∧ n ≤ 4096 ∧ a % 65536 + n ≤ 65536 ∧ a + n ≤ 2 ^ 55 ∧
    s.probe1 (via s h .stream) { e := 0, va := a, n := n, k := k, al := al } = none ∧
    ∀ p, a ≤ p → p < a + n → ReachesByte s h .stream xl p

/-- The bytes from `a` on, n of them. -/
def Bytes (a n p : Nat) : Prop := a ≤ p ∧ p < a + n

/-- The state `u` is what n bursts of a slot make of `t`. -/
def Bursts (id q : Nat) : Nat → State → State → Prop
  | 0, t, u => t = u
  | n + 1, t, u => ∃ x, exec (.streamBurst id q) t = .next x ∧ Bursts id q n x u

/-- `o` is a next state from which n bursts of slot q, the last of them its retirement, lead to `t`, where the hart is `h'`,
the slot is empty and its counter EA is N. Nothing else of the hart but registers and tokens has changed. -/
def StreamRan (s : State) (h : Hart) (o : Out) (q n N : Nat) (t : State) (h' : Hart) : Prop :=
  ∃ u, o = .next u ∧ Bursts s.cur q n u t ∧ VmuRan s h t h' ∧ h'.sq = [] ∧ h'.mq = [] ∧ h'.binds = h.binds ∧
    (vat h'.slots q Slot.reset).holder = none ∧ (vat h'.slots q Slot.reset).ea = N

/-- The outcome of `f` at the next state of `o`. -/
def Then (o : Out) (f : State → Out) : Out :=
  match o with
  | .next t => f t
  | x => x

/-- `o` is a next state that is `s` but for dies, memory, and what `keep` leaves open: pool p of die d has F free sectors, frame
fr the state `f`, and every other frame and pool is as before. -/
def FrameNow (s : State) (o : Out) (d p fr : Nat) (f : FrameInfo) (F : Nat) (t : State) : Prop :=
  o = .next t ∧ t.harts = s.harts ∧ t.frameInfo fr = f ∧ (∀ x, x ≠ fr → t.frameInfo x = s.frameInfo x) ∧ (t.pool d p).free = F ∧
    (∀ e q, e ≠ d ∨ q ≠ p → t.pool e q = s.pool e q) ∧ { t with dies := s.dies, mem := s.mem, watch := s.watch } = s

/-- Every byte of a frame is zero. -/
def FrameZero (s : State) (fr : Nat) : Prop := ∀ o, o < 65536 → Memory.read s.mem (fr * 65536 + o) = 0

/-- The watches of `s` on the lines of p have ended in `t` (R163), and no other. -/
def Woken (s t : State) (p : Nat → Prop) : Prop := ∀ w, w ∈ t.watch ↔ w ∈ s.watch ∧ ¬ p w.2

/-- `o` is a next state that differs from `s` in station k only, which is now `x`, in watches that have ended, and in the
number of free values drawn. -/
def StationNow (s : State) (o : Out) (k : Nat) (x : Station) : Prop :=
  ∃ t, o = .next t ∧ t.stn k = x ∧ (∀ j, j ≠ k → t.stn j = s.stn j) ∧ (∀ w ∈ t.watch, w ∈ s.watch) ∧
    { t with stations := s.stations, watch := s.watch, fresh := s.fresh } = s

/-- `o` is a next state that differs from `s` in the package's registers, which are now `p`, in what has been sent to the
outside, which is `sent` more, in watches that have ended, and in the number of free values drawn. -/
def PackageNow (s : State) (o : Out) (p : Pkg) (sent : List Sent) : Prop :=
  ∃ t, o = .next t ∧ t.pkg = p ∧ t.out = s.out ++ sent ∧ (∀ w ∈ t.watch, w ∈ s.watch) ∧
    { t with pkg := s.pkg, out := s.out, watch := s.watch, fresh := s.fresh } = s

/-- The package's registers in `t` are `p` but for host event b, which has been set since `s` (R405): a message on its
vector is sent when the event is enabled and was not pending. -/
def HostEvent (s t : State) (b : Nat) (p : Pkg) : Prop :=
  t.pkg = { p with hevt := s.pkg.hevt ||| 2 ^ b } ∧
    t.out = s.out ++ if s.pkg.hevten.testBit b = true ∧ s.pkg.hevt.testBit b = false then [Sent.msix b] else []

/-- Hart `h'` is `h` frozen with this REASON (R182): it waits no longer, its groups park, and FROZEN may be raised on it. -/
def Hart.FrozenAs (h h' : Hart) (reason : Nat) : Prop :=
  h'.frozen.isSome = true ∧ h'.frozenReason = reason ∧
    { h' with frozen := h.frozen, frozenReason := h.frozenReason, wait := h.wait, groups := h.groups, ipend := h.ipend,
              ipval := h.ipval } = h

/-- `o` is a next state that differs from `s` in link j of die d, which is now `l`, and in the event that its change of STATE
sets (R405, R408). -/
def LinkNow (s : State) (o : Out) (d j : Nat) (l : Link) : Prop :=
  ∃ t, o = .next t ∧ t.link d j = l ∧ (∀ i, i ≠ j → t.link d i = s.link d i) ∧ { t.die d with links := (s.die d).links } = s.die d ∧
    (∀ e, e ≠ d → t.die e = s.die e) ∧ { t with dies := s.dies, pkg := s.pkg, out := s.out } = s ∧
    (l.state = (s.link d j).state → t.pkg = s.pkg ∧ t.out = s.out) ∧ (l.state ≠ (s.link d j).state → HostEvent s t 8 s.pkg)

/-- `o` is the next state `t`, which differs from `s` in die d, which is now `x`, in bytes of memory, in what has been sent,
which is `sent` more, and in the number of free values drawn. -/
def DieNow (s : State) (o : Out) (d : Nat) (x : Die) (sent : List Sent) (t : State) : Prop :=
  o = .next t ∧ t.die d = x ∧ (∀ e, e ≠ d → t.die e = s.die e) ∧ t.out = s.out ++ sent ∧
    { t with dies := s.dies, mem := s.mem, watch := s.watch, out := s.out, fresh := s.fresh } = s

/-- A byte of memory whose frame is plain: not of the device region. -/
def PlainByte (s : State) (a : Nat) : Prop :=
  s.exists? a = true ∧ s.PlainFrame (a / 65536) ∧ ∀ d o, regionOf a ≠ .dev d o

/-- A completion word that die d can add to (R411): aligned, in memory of class none that it reaches (R407); 0 names none. -/
def PlainWord (s : State) (d a : Nat) : Prop := a = 0 ∨ a % 8 = 0 ∧ PlainByte s a ∧ s.reaches d (homeDie a) = true

/-- No frame of the package is migrated to a host slot (R357). -/
def State.NoneMigrated (s : State) : Prop := ∀ x ∈ s.dies, ∀ f ∈ x.2.frames, f.2.slot = none

/-- `v` has been added to the 8-byte word at `a`, modulo 2^64, and every other byte is as before; nothing has when `a` is 0. -/
def WordPlus (s t : State) (a v : Nat) : Prop :=
  (a = 0 → ∀ b, Memory.read t.mem b = Memory.read s.mem b) ∧
    (a ≠ 0 → ∀ b, Memory.read t.mem b =
      if a ≤ b ∧ b < a + 8 then byteOf (Memory.num s.mem a 8 + v) (b - a) else Memory.read s.mem b)

/-- `o` is a next state that differs from `s` in core `k` only, which is now `c`. -/
def CoreNow (s : State) (o : Out) (k : Nat) (c : Core) : Prop :=
  ∃ t, o = .next t ∧ t.core k = c ∧ (∀ j, j ≠ k → t.core j = s.core j) ∧ { t with cores := s.cores } = s

/-- A die whose standby power has gone or has first been applied: the registers that it keeps are at reset (R397). -/
def Die.noStandby (x : Die) : Die := { x with esbase := 0, essize := 0, arm := false, egen := 0, esstate := 0 }

/-- Hart `h'` is `h` just after it has taken a trap (R177): the saved registers, the status and the mode, the PC at the
handler. -/
def Hart.TookTrap (h h' : Hart) (int : Bool) (code : Nat) (val : W64) : Prop :=
  h'.tcInt = int ∧ h'.tcCode = code ∧ h'.trappc = h.pc &&& 0x007FFFFFFFFFFFFC ∧ h'.trapval = val ∧
    h'.status.getLsbD 0 = true ∧ h'.status.getLsbD 1 = false ∧ h'.status.getLsbD 2 = h.status.getLsbD 0 ∧
    h'.status.getLsbD 3 = h.status.getLsbD 1 ∧ (∀ b, 4 ≤ b → h'.status.getLsbD b = h.status.getLsbD b) ∧
    h'.pc = h.trapvec &&& 0x007FFFFFFFFFFFC0 ∧ h'.wait = none ∧ h'.g = h.g ∧ h'.f = h.f ∧ h'.v = h.v ∧ h'.m = h.m

/-- The value of a sysreg as SYSRD gives it (R53, R171): whole registers, and those put together from their fields. VCP and
ESTART are those of the fault being delivered in a trap, and else of the oldest instruction of the vector queue (R98, R99);
EFFECTIVE, the upper half of TSLICE, is SLICE until the first restore (log 32). -/
def sysValue (s : State) (h : Hart) (n : Nat) : Nat :=
  let slice := (s.ctx h.ctx).slice % 2 ^ 32
  match n with
  | 0x000 => h.vl
  | 0x001 => h.vtype.toNat
  | 0x002 => h.vcfg.toNat
  | 0x003 => h.vgrant.toNat
  | 0x004 =>
    if h.inTrap then h.vcp.toNat
    else match h.vq with
      | [] => 0
      | v :: _ => v.e.slot * 2 ^ 56 + 2 ^ 55 + v.e.pc.toNat % 2 ^ 55 / 4 * 4
  | 0x005 =>
    if h.inTrap then h.estart
    else match h.vq with
      | [] => 0
      | v :: _ => v.e.progress
  | 0x006 => h.tshape.toNat
  | 0x010 => h.srseed.toNat
  | 0x011 => h.srctr
  | 0x012 =>
    match h.xdecStopped with
    | none => 0
    | some e => e.xd.mode * 2 ^ 62 + 2 ^ 48 + e.xd.off
  | 0x020 => h.tkroute.toNat
  | 0x021 => (s.stn (s.cur / 16)).chperm
  | 0x030 => h.fflags
  | 0x031 => h.status.toNat
  | 0x040 => (if h.tcInt then 2 ^ 63 else 0) + h.ipend % 32 * 2 ^ 16 + h.tcCode % 256
  | 0x041 => h.trappc.toNat
  | 0x042 => h.trapval.toNat
  | 0x043 => h.trapvec.toNat
  | 0x050 => s.cur
  | 0x051 => h.ctx
  | 0x052 => h.prio
  | 0x053 => h.effective.getD slice % 2 ^ 32 * 2 ^ 32 + slice
  | 0x054 => h.fstat * 2 ^ 60 + h.sbcap * 64
  | 0x060 => h.stepid.toNat
  | 0x061 => h.dlslack.toNat
  | 0x062 => (s.ctx h.ctx).energy
  | _ => 0

/-- The sysregs that R53 marks S, and those whose access waits for the queues (R153). -/
def sysSupervisor : List Nat := [0x012, 0x031, 0x040, 0x041, 0x042, 0x043, 0x052, 0x053, 0x054]
def sysWaiting : List Nat := [0x010, 0x011, 0x012, 0x030]

/-! ### Float and storage kinds 4 to 11 (R61, R205, R279) -/

/-- Exponent bits, fraction bits and width of a kind; its bias and least normal exponent. -/
def expBits (k : Nat) : Nat := ([8, 8, 5, 4, 5, 3, 2, 2] : List Nat).getD (k - 4) 0
def fracBits (k : Nat) : Nat := ([23, 7, 10, 3, 2, 2, 3, 1] : List Nat).getD (k - 4) 0
def bitsK (k : Nat) : Nat := 1 + expBits k + fracBits k
def biasK (k : Nat) : Int := 2 ^ (expBits k - 1) - 1
def eminK (k : Nat) : Int := 1 - biasK k

/-- The kind has infinities: fp32, bf16, fp16 and e5m2. -/
def infinite (k : Nat) : Bool := k == 4 || k == 5 || k == 6 || k == 8

/-- The sign of a pattern, its bits below the sign, and what they encode. -/
def signK (k x : Nat) : Bool := x.testBit (bitsK k - 1)
def lowK (k x : Nat) : Nat := x % 2 ^ (bitsK k - 1)
def allOnes (k : Nat) : Nat := 2 ^ fracBits k * (2 ^ expBits k - 1)
def nanK (k x : Nat) : Bool := if infinite k then decide (allOnes k < lowK k x) else k == 7 && lowK k x == 0x7F
def snanK (k x : Nat) : Bool := nanK k x && k != 7 && !x.testBit (fracBits k - 1)
def infK (k x : Nat) : Bool := infinite k && lowK k x == allOnes k
def finK (k x : Nat) : Bool := !nanK k x && !infK k x

/-- The value of a finite pattern. -/
def numK (k x : Nat) : Rat :=
  let e := lowK k x / 2 ^ fracBits k
  let m := lowK k x % 2 ^ fracBits k
  (if signK k x then -1 else 1) *
    (if e = 0 then (m : Rat) * (2 : Rat) ^ (eminK k - fracBits k)
     else ((2 ^ fracBits k + m : Nat) : Rat) * (2 : Rat) ^ ((e : Int) - biasK k - fracBits k))

/-- The signed zero, largest finite value and infinity; the canonical NaN. -/
def zeroK (k : Nat) (neg : Bool) : Nat := if neg then 2 ^ (bitsK k - 1) else 0
def maxK (k : Nat) (neg : Bool) : Nat :=
  zeroK k neg + ([0x7F7FFFFF, 0x7F7F, 0x7BFF, 0x7E, 0x7B, 0x1F, 0x1F, 0x7] : List Nat).getD (k - 4) 0
def infinityK (k : Nat) (neg : Bool) : Nat := zeroK k neg + allOnes k
def quietK (k : Nat) : Nat := ([0x7FC00000, 0x7FC0, 0x7E00, 0x7F, 0x7E] : List Nat).getD (k - 4) 0

/-! ### Plane-run coded blocks (R328 to R332, R336, R338) -/

/-- The k bits of a stream from bit t are the number x, most significant first (R329). -/
def Msb (bit : Nat → Bool) (t k x : Nat) : Prop := x < 2 ^ k ∧ ∀ i, i < k → x.testBit (k - 1 - i) = bit (t + i)

/-- The Rice code with parameter k at stream bit t codes r and ends before bit u (R331). -/
def RiceAt (bit : Nat → Bool) (k t r u : Nat) : Prop :=
  ∃ q m, q ≤ 4096 ∧ (∀ i, i < q → bit (t + i) = true) ∧ bit (t + q) = false ∧ Msb bit (t + q + 1) k m ∧
    r = q * 2 ^ k + m ∧ u = t + q + 1 + k

/-- The first `c` codes of a RUN body that begins at stream bit t: code j is at bit `y j`, and the next position after its one
is `pos (j + 1)`, at most n (R330). -/
def RunTo (bit : Nat → Bool) (n k t c : Nat) (y pos : Nat → Nat) : Prop :=
  y 0 = t ∧ pos 0 = 0 ∧ ∀ j, j < c → ∃ r, RiceAt bit k (y j) r (y (j + 1)) ∧ pos (j + 1) = pos j + r + 1 ∧ pos (j + 1) ≤ n

/-- The plane at stream bit t, `first` when it is the first coded one, has the bits p and ends before bit u; `prev` are the
bits of the coded plane before it (R330). -/
def PlaneCoded (bit : Nat → Bool) (n k : Nat) (first : Prop) (prev : Nat → Bool) (t : Nat) (p : Nat → Bool) (u : Nat) : Prop :=
  ∃ m, Msb bit t 2 m ∧
    ((m = 0 ∧ u = t + 2 ∧ ∀ e, e < n → p e = false) ∨
     (m = 1 ∧ u = t + 2 + n ∧ ∀ e, e < n → p e = bit (t + 2 + e)) ∨
     (2 ≤ m ∧ ¬ (m = 3 ∧ first) ∧ ∃ c y pos, Msb bit (t + 2) 13 c ∧ c ≤ n ∧ RunTo bit n k (t + 15) c y pos ∧ u = y c ∧
       ∀ e, e < n → (p e = true ↔ ((∃ j, j < c ∧ pos (j + 1) = e + 1) ↔ ¬ (m = 3 ∧ prev e = true)))))

/-- The read of the plane at stream bit t of L fails with cause c (R338, steps 4 and 5, in stream order). -/
def PlaneFails (bit : Nat → Bool) (L n k : Nat) (first : Prop) (t : Nat) (c : Cause) : Prop :=
  (L < t + 2 ∧ c = .xlen) ∨
  (t + 2 ≤ L ∧ ∃ m, Msb bit t 2 m ∧
    ((m = 3 ∧ first ∧ c = .xfmt) ∨
     (m = 1 ∧ L < t + 2 + n ∧ c = .xlen) ∨
     (2 ≤ m ∧ ¬ (m = 3 ∧ first) ∧ L < t + 15 ∧ c = .xlen) ∨
     (2 ≤ m ∧ ¬ (m = 3 ∧ first) ∧ t + 15 ≤ L ∧ ∃ x, Msb bit (t + 2) 13 x ∧
       ((n < x ∧ c = .xlen) ∨
        (x ≤ n ∧ ∃ j y pos, j < x ∧ RunTo bit n k (t + 15) j y pos ∧ y j ≤ L ∧
          (((∀ i, i < 4097 → bit (y j + i) = true) ∧ y j + 4097 ≤ L ∧ c = .xfmt) ∨
           (∃ q, q ≤ 4096 ∧ (∀ i, i < q → bit (y j + i) = true) ∧ y j + q = L ∧ c = .xlen) ∨
           (∃ r u, RiceAt bit k (y j) r u ∧ (L < u ∨ n < pos j + r + 1) ∧ c = .xlen)))))))

/-- The header whose field of n bytes at offset o is `f o n` passes step 2 of R338 (R328, R336), and step 3. -/
def HeaderLegal (f : Nat → Nat → Nat) (kind wd : Nat) : Prop :=
  f 0 2 = 0x4C58 ∧ f 2 1 = 1 ∧ 1 ≤ f 3 1 ∧ f 3 1 ≤ 16 ∧ 1 ≤ f 4 1 ∧ f 4 1 ≤ f 3 1 ∧ f 5 1 = 0 ∧ 1 ≤ f 6 2 ∧ f 6 2 ≤ 4096 ∧
    f 8 8 < 16 ^ f 4 1 ∧ f 0x10 4 % 32 = 0 ∧ f 0x10 4 ≤ 0xFFE0 ∧ f 0x1C 4 = 0 ∧
    (if kind < 4 ∨ kind = 12 then f 3 1 ≤ wd else kind < 12 ∧ f 3 1 = bitsK kind)
def HeaderLength (f : Nat → Nat → Nat) : Prop := f 0x14 4 = (f 6 2 * f 3 1 + 7) / 8

/-- The first i planes of a block are read: plane j is at stream bit `z j` and has the bits `p j`. -/
def PlanesTo (f : Nat → Nat → Nat) (bit : Nat → Bool) (z : Nat → Nat) (p : Nat → Nat → Bool) (i : Nat) : Prop :=
  z 0 = 0 ∧ ∀ j, j < i →
    PlaneCoded bit (f 6 2) (f 8 8 / 16 ^ j % 16) (j = 0) (p (j - 1)) (z j) (p j) (z (j + 1)) ∧ z (j + 1) ≤ 8 * f 0x10 4

/-- Element e of the planes (R332). -/
def planesElem (f : Nat → Nat → Nat) (p : Nat → Nat → Bool) (e : Nat) : Nat :=
  ((List.range (f 4 1)).map fun j => if p j e then 2 ^ (f 3 1 - 1 - j) else 0).sum

/-- The CRC of the expanded data of elements x is the header's (R332). -/
def CrcHolds (f : Nat → Nat → Nat) (x : Nat → Nat) : Prop :=
  ∃ l : List Byte, l.length = f 0x14 4 ∧ crc32c l = f 0x18 4 ∧ ∀ t, t < 8 * f 0x14 4 →
    (l.getD (t / 8) 0).getLsbD (t % 8) = (decide (t / f 3 1 < f 6 2) && (x (t / f 3 1)).testBit (t % f 3 1))

/-- The plane data decode to the elements x, with the right length, padding and CRC (R338, steps 4 to 8). -/
def BlockGood (f : Nat → Nat → Nat) (bit : Nat → Bool) (x : Nat → Nat) : Prop :=
  ∃ z p, PlanesTo f bit z p (f 4 1) ∧ f 0x10 4 < (z (f 4 1) + 7) / 8 + 32 ∧
    (∀ t, z (f 4 1) ≤ t → t < 8 * f 0x10 4 → bit t = false) ∧ (∀ e, e < f 6 2 → x e = planesElem f p e) ∧ CrcHolds f x

/-- The plane data fail a check of R338, steps 4 to 8, and the first one that they fail has cause c. -/
def BlockBad (f : Nat → Nat → Nat) (bit : Nat → Bool) (c : Cause) : Prop :=
  ∃ z p,
    (∃ i, i < f 4 1 ∧ PlanesTo f bit z p i ∧ PlaneFails bit (8 * f 0x10 4) (f 6 2) (f 8 8 / 16 ^ i % 16) (i = 0) (z i) c) ∨
    (PlanesTo f bit z p (f 4 1) ∧
      ((z (f 4 1) + 7) / 8 + 32 ≤ f 0x10 4 ∧ c = .xlen ∨
       f 0x10 4 < (z (f 4 1) + 7) / 8 + 32 ∧
        (((∃ t, z (f 4 1) ≤ t ∧ t < 8 * f 0x10 4 ∧ bit t = true) ∧ c = .xfmt) ∨
         ((∀ t, z (f 4 1) ≤ t → t < 8 * f 0x10 4 → bit t = false) ∧ ¬ CrcHolds f (planesElem f p) ∧ c = .xchk))))

/-- The multiple of the quantum q to which the mode takes `e` (R61); `r` are the random bits of RM 5. -/
def roundAt (q : Rat) (rm r : Nat) (e : Rat) : Rat :=
  let lo := (⌊e / q⌋ : Rat) * q
  let hi := lo + q
  let m := (⌊(|e| + r * q / 65536) / q⌋ : Rat) * q
  if lo = e then e
  else match rm with
    | 0 => if e - lo < hi - e ∨ (e - lo = hi - e ∧ ⌊e / q⌋ % 2 = 0) then lo else hi
    | 1 => if 0 < e then lo else hi
    | 2 => lo
    | 3 => hi
    | 4 => if e - lo < hi - e ∨ (e - lo = hi - e ∧ e < 0) then lo else hi
    | _ => if 0 < e then m else -m

/-- `e` rounded to p bits, with a least exponent or none (R61). -/
def roundPrec (p : Nat) (least : Option Int) (rm r : Nat) (e : Rat) : Rat :=
  let x := Int.log 2 |e|
  roundAt ((2 : Rat) ^ ((match least with
    | some m => max x m
    | none => x) - ((p : Int) - 1))) rm r e

/-- FloatResult (R205) of an exact finite result `e` that is not 0, under kind k: the encoding and the flags. -/
def FloatOut (k rm r : Nat) (sat : Bool) (e : Rat) (z fl : Nat) : Prop :=
  let p := fracBits k + 1
  let y := roundPrec p (some (eminK k)) rm r e
  let neg := decide (e < 0)
  if |y| ≤ numK k (maxK k false) then
    z < 2 ^ bitsK k ∧ finK k z = true ∧ numK k z = y ∧ signK k z = neg ∧
      fl = if y = e then 0 else if |roundPrec p none rm r e| < (2 : Rat) ^ eminK k then 24 else 16
  else
    fl = 20 ∧ z = if infinite k = true ∧ sat = false ∧ (rm = 0 ∨ rm = 4 ∨ rm = 5 ∨ (rm = 3 ∧ 0 < e) ∨ (rm = 2 ∧ e < 0))
      then infinityK k neg else maxK k neg

/-- The same where the exact result may be 0, whose sign is then `zs`. -/
def FloatOrZero (k rm r : Nat) (sat : Bool) (e : Rat) (zs : Bool) (z fl : Nat) : Prop :=
  (e ≠ 0 → FloatOut k rm r sat e z fl) ∧ (e = 0 → z = zeroK k zs ∧ fl = 0)

/-- An infinite result (R205). -/
def InfOut (k : Nat) (sat neg : Bool) (z fl : Nat) : Prop :=
  if infinite k = true ∧ sat = false then z = infinityK k neg ∧ fl = 0 else z = maxK k neg ∧ fl = 4

/-- A conversion to a float or storage kind k of the pattern x of kind ks (R212, R288). -/
def ConvertOut (ks k rm r : Nat) (sat : Bool) (x z fl : Nat) : Prop :=
  (nanK ks x = true → if k < 9 then z = quietK k ∧ fl = (snanK ks x).toNat else z = 0 ∧ fl = 1) ∧
  (infK ks x = true → InfOut k sat (signK ks x) z fl) ∧
  (finK ks x = true → FloatOrZero k rm r sat (numK ks x) (signK ks x) z fl)

/-- `o` is a next state in which the word has written a row at register d: each active element that `ok` admits has the result
and flags of `out`, the others keep theirs, and when `ok` admits every active element FFLAGS takes just those flags (R208).
Under RM 5 the word takes the next count of SRCTR (R207, R283). -/
def FloatRow (s : State) (h : Hart) (hd : VHdr) (d : Nat) (o : Out) (ok : Nat → Prop) (out : Nat → Nat → Nat → Prop) : Prop :=
  let g := 2 ^ fieldOf h.vtype 22 2
  let wd := fieldOf h.vtype 0 6 + 1
  ∃ (h' : Hart) (fl : Nat → Nat), VecRan s h o h' ∧ OnlyV h h' d ∧
    h'.srctr = (if fieldOf h.vtype 26 3 = 5 then (h.srctr + 1) % 2 ^ 32 else h.srctr) ∧
    (∀ e, h.activeElem hd e → ok e → out e (readElem h'.v h.geo d g wd e) (fl e)) ∧
    (∀ e, e < h.vl → ¬ h.activeElem hd e → (vreg h.v d).tag = none ∨ (vreg h.v d).tag.map Tag.w = some wd →
      readElem h'.v h.geo d g wd e = readElem h.v h.geo d g wd e) ∧
    ((∀ e, h.activeElem hd e → ok e) → ∀ b, h'.fflags.testBit b = true ↔
      h.fflags.testBit b = true ∨ ∃ e, h.activeElem hd e ∧ (fl e).testBit b = true)

/-- The active elements of block b of a row under BLK (R286). -/
def blockOf (h : Hart) (hd : VHdr) (b : Nat) : List Nat :=
  let B := if fieldOf h.vtype 24 2 = 1 then 24 else 32
  (List.range h.vl).filter fun e => e / B == b && (hd.msk == 0 || maskBit h hd.msk e)

/-- The largest magnitude of the finite patterns of a list; the largest exponent of an element kind. -/
def largest (k : Nat) (l : List Nat) : Rat := ((l.filter fun x => finK k x).map fun x => |numK k x|).foldl max 0
def emaxK (k : Nat) : Int := ([8, 15, 4, 2, 2, 0] : List Int).getD (k - 7) 0

/-- The groups of a hart whose wait ends, or begins: parked groups are granted again (R85), granted ones park (R72). -/
def Hart.awake (h : Hart) : List Grp := h.groups.map fun g => if g.st = .parked then { g with st := .granted } else g
def Hart.parked (h : Hart) : List Grp := h.groups.map fun g => if g.st = .granted then { g with st := .parked } else g

end Sys2Proof.Machine

section Statements

open Sys2Proof Sys2Proof.Machine

/-! ### Scalar integer instructions (R155 to R157) -/

/-- The integer operations on g-registers (R155, R156): each writes gD. A logical immediate is zero-extended and an
arithmetic one sign-extended; SLTIU compares with the zero-extended immediate; a shift takes gB[5:0]; MULH and MULHU give
bits [127:64] of the product; CLZ and CTZ count to the first set bit from the top and the bottom, 64 when there is none. A
quotient rounds toward zero and the remainder has the sign of gA; a quotient without a 64-bit representation clamps to the
nearer bound, and its remainder is 0. -/
def Obligations.ScalarIntegerOperations : Prop :=
  -- immediates (R155)
  (∀ (s : State) (h : Hart) (d a i n : Nat), Runs s h → d < 32 → a < 32 → i < 65536 → n < 64 →
    WritesG s h (exec (.addi d a i) s) d (h.rg a + imm16 i) ∧
    WritesG s h (exec (.andi d a i) s) d (h.rg a &&& BitVec.ofNat 64 i) ∧
    WritesG s h (exec (.ori d a i) s) d (h.rg a ||| BitVec.ofNat 64 i) ∧
    WritesG s h (exec (.xori d a i) s) d (h.rg a ^^^ BitVec.ofNat 64 i) ∧
    WritesG s h (exec (.slti d a i) s) d (if (h.rg a).toInt < (imm16 i).toInt then 1 else 0) ∧
    WritesG s h (exec (.sltiu d a i) s) d (if (h.rg a).toNat < i then 1 else 0) ∧
    WritesG s h (exec (.slli d a n) s) d (h.rg a <<< n) ∧
    WritesG s h (exec (.srli d a n) s) d (h.rg a >>> n) ∧
    WritesG s h (exec (.srai d a n) s) d ((h.rg a).sshiftRight n) ∧
    WritesG s h (exec (.lui d i) s) d (imm16 i * 65536) ∧
    WritesG s h (exec (.addpc d i) s) d (h.pc + imm16 i * 65536)) ∧
  -- registers (R156)
  (∀ (s : State) (h : Hart) (d a b : Nat), Runs s h → d < 32 → a < 32 → b < 32 →
    let x := h.rg a
    let y := h.rg b
    WritesG s h (exec (.add d a b) s) d (x + y) ∧ WritesG s h (exec (.sub d a b) s) d (x - y) ∧
    WritesG s h (exec (.and d a b) s) d (x &&& y) ∧ WritesG s h (exec (.or d a b) s) d (x ||| y) ∧
    WritesG s h (exec (.xor d a b) s) d (x ^^^ y) ∧
    WritesG s h (exec (.sll d a b) s) d (x <<< (y.toNat % 64)) ∧
    WritesG s h (exec (.srl d a b) s) d (x >>> (y.toNat % 64)) ∧
    WritesG s h (exec (.sra d a b) s) d (x.sshiftRight (y.toNat % 64)) ∧
    WritesG s h (exec (.slt d a b) s) d (if x.toInt < y.toInt then 1 else 0) ∧
    WritesG s h (exec (.sltu d a b) s) d (if x.toNat < y.toNat then 1 else 0) ∧
    WritesG s h (exec (.mul d a b) s) d (x * y) ∧
    WritesG s h (exec (.mulh d a b) s) d ((x.signExtend 128 * y.signExtend 128).extractLsb' 64 64) ∧
    WritesG s h (exec (.mulhu d a b) s) d ((x.setWidth 128 * y.setWidth 128).extractLsb' 64 64) ∧
    WritesG s h (exec (.min d a b) s) d (if x.toInt ≤ y.toInt then x else y) ∧
    WritesG s h (exec (.max d a b) s) d (if x.toInt ≤ y.toInt then y else x) ∧
    WritesG s h (exec (.minu d a b) s) d (if x.toNat ≤ y.toNat then x else y) ∧
    WritesG s h (exec (.maxu d a b) s) d (if x.toNat ≤ y.toNat then y else x) ∧
    (∃ n : Nat, WritesG s h (exec (.clz d a) s) d (BitVec.ofNat 64 n) ∧ n ≤ 64 ∧ (∀ k, k < n → x.getLsbD (63 - k) = false) ∧
      (n < 64 → x.getLsbD (63 - n) = true)) ∧
    (∃ n : Nat, WritesG s h (exec (.ctz d a) s) d (BitVec.ofNat 64 n) ∧ n ≤ 64 ∧ (∀ k, k < n → x.getLsbD k = false) ∧
      (n < 64 → x.getLsbD n = true)) ∧
    WritesG s h (exec (.popc d a) s) d (BitVec.ofNat 64 (((List.range 64).map fun k => (x.getLsbD k).toNat).sum))) ∧
  -- division (R156)
  (∀ (s : State) (h : Hart) (d a b : Nat), Runs s h → d < 32 → a < 32 → b < 32 →
    ∃ q r qu ru : W64,
      WritesG s h (exec (.div d a b) s) d q ∧ WritesG s h (exec (.rem d a b) s) d r ∧
      WritesG s h (exec (.divu d a b) s) d qu ∧ WritesG s h (exec (.remu d a b) s) d ru ∧
      (h.rg b = 0 → r = 0 ∧ ru = 0 ∧
        q = (if 0 < (h.rg a).toInt then 0x7FFFFFFFFFFFFFFF else if h.rg a = 0 then 0 else 0x8000000000000000) ∧
        qu = (if h.rg a = 0 then 0 else 0xFFFFFFFFFFFFFFFF)) ∧
      ((h.rg a).toInt = -(2 ^ 63) → (h.rg b).toInt = -1 → q = 0x7FFFFFFFFFFFFFFF ∧ r = 0) ∧
      (h.rg b ≠ 0 → ¬ ((h.rg a).toInt = -(2 ^ 63) ∧ (h.rg b).toInt = -1) →
        (h.rg a).toInt = q.toInt * (h.rg b).toInt + r.toInt ∧ r.toInt.natAbs < (h.rg b).toInt.natAbs ∧
        0 ≤ r.toInt * (h.rg a).toInt) ∧
      (h.rg b ≠ 0 → (h.rg a).toNat = qu.toNat * (h.rg b).toNat + ru.toNat ∧ ru.toNat < (h.rg b).toNat))

/-- Branches and jumps (R157): the target is the PC plus the signed word offset times 4, a JALR target has bits [1:0]
cleared, JAL and JALR write PC + 4; no register changes otherwise, and no transfer traps. -/
def Obligations.ControlTransfer : Prop :=
  ∀ (s : State) (h : Hart) (d a b o i : Nat), Runs s h → h.pcOk = true → d < 32 → a < 32 → b < 32 → o < 65536 → i < 2 ^ 26 →
    let go : Bool → W64 := fun c => if c then h.pc + imm16 o * 4 else h.pc + 4
    let far : W64 := h.pc + (BitVec.ofNat 26 i).signExtend 64 * 4
    WritesGTo s h (exec (.beq a b o) s) 0 0 (go (decide (h.rg a = h.rg b))) ∧
    WritesGTo s h (exec (.bne a b o) s) 0 0 (go (decide (h.rg a ≠ h.rg b))) ∧
    WritesGTo s h (exec (.blt a b o) s) 0 0 (go (decide ((h.rg a).toInt < (h.rg b).toInt))) ∧
    WritesGTo s h (exec (.bge a b o) s) 0 0 (go (decide ((h.rg b).toInt ≤ (h.rg a).toInt))) ∧
    WritesGTo s h (exec (.bltu a b o) s) 0 0 (go (decide ((h.rg a).toNat < (h.rg b).toNat))) ∧
    WritesGTo s h (exec (.bgeu a b o) s) 0 0 (go (decide ((h.rg b).toNat ≤ (h.rg a).toNat))) ∧
    WritesGTo s h (exec (.j i) s) 0 0 far ∧
    WritesGTo s h (exec (.jal i) s) 31 (h.pc + 4) far ∧
    WritesGTo s h (exec (.jalr d a o) s) d (h.pc + 4) ((h.rg a + imm16 o) &&& ~~~3)

/-! ### Scalar floating point (R159) -/

/-- FADD, FSUB, FMUL, FDIV and FSQRT, every case but a finite exact result: NaN operands give 0x7FC00000, with NV for a
signalling one; the invalid operations give it with NV; a finite number over zero gives infinity with DZ; operations on
infinities that are valid are exact. -/
def Obligations.FloatSpecialOperands : Prop :=
  ∀ (s : State) (h : Hart) (d a b r : Nat), Runs s h → d < 16 → a < 16 → b < 16 → r < 5 →
    let A := h.rf a
    let B := h.rf b
    let nan := fun (o : Out) (fl : Nat) => WritesF s h o d 0x7FC00000 fl
    let add := exec (.fadd d a b r) s
    let sub := exec (.fsub d a b r) s
    let mul := exec (.fmul d a b r) s
    let div := exec (.fdiv d a b r) s
    let sqrt := exec (.fsqrt d a r) s
    let opp := A.getLsbD 31 ^^ B.getLsbD 31
    (isNan32 A ∨ isNan32 B → ∃ fl, (fl = 1 ↔ isSNan32 A ∨ isSNan32 B) ∧ fl ≤ 1 ∧ nan add fl ∧ nan sub fl ∧ nan mul fl ∧ nan div fl) ∧
    (isNan32 A → ∃ fl, (fl = 1 ↔ isSNan32 A) ∧ fl ≤ 1 ∧ nan sqrt fl) ∧
    (isInf32 A → isInf32 B →
      (if opp then nan add 1 else WritesF s h add d A 0) ∧ (if opp then WritesF s h sub d A 0 else nan sub 1) ∧
      WritesF s h mul d (inf32 opp) 0 ∧ nan div 1) ∧
    (isInf32 A → isFin32 B →
      WritesF s h add d A 0 ∧ WritesF s h sub d A 0 ∧ WritesF s h div d (inf32 opp) 0 ∧
      (isZero32 B → nan mul 1) ∧ (¬ isZero32 B → WritesF s h mul d (inf32 opp) 0)) ∧
    (isFin32 A → isInf32 B →
      WritesF s h add d B 0 ∧ WritesF s h sub d (inf32 (!B.getLsbD 31)) 0 ∧ WritesF s h div d (zero32 opp) 0 ∧
      (isZero32 A → nan mul 1) ∧ (¬ isZero32 A → WritesF s h mul d (inf32 opp) 0)) ∧
    (isFin32 A → isZero32 B → (isZero32 A → nan div 1) ∧ (¬ isZero32 A → WritesF s h div d (inf32 opp) 2)) ∧
    (isInf32 A → ¬ isNeg32 A → WritesF s h sqrt d A 0) ∧
    (isNeg32 A → ¬ isNan32 A → ¬ isZero32 A → nan sqrt 1) ∧ (isZero32 A → WritesF s h sqrt d A 0)

/-- FADD, FSUB, FMUL, FDIV of finite operands: the exact result rounded under RM with its flags; a zero sum or product
has the sign that R159 gives it. FSQRT of a positive finite number: the pattern next to the root that RM asks for, and NX
exactly when its square is not the operand. -/
def Obligations.FloatFiniteArithmetic : Prop :=
  ∀ (s : State) (h : Hart) (d a b r : Nat), Runs s h → d < 16 → a < 16 → b < 16 → r < 5 →
    isFin32 (h.rf a) → isFin32 (h.rf b) →
    let A := h.rf a
    let B := h.rf b
    let opp := A.getLsbD 31 ^^ B.getLsbD 31
    (∃ z fl, WritesF s h (exec (.fadd d a b r) s) d z fl ∧
      (num32 A + num32 B ≠ 0 → ArithResult r (num32 A + num32 B) z fl) ∧
      (num32 A + num32 B = 0 → fl = 0 ∧ z = zero32 (if isZero32 A && !opp then A.getLsbD 31 else r = 2))) ∧
    (∃ z fl, WritesF s h (exec (.fsub d a b r) s) d z fl ∧
      (num32 A - num32 B ≠ 0 → ArithResult r (num32 A - num32 B) z fl) ∧
      (num32 A - num32 B = 0 → fl = 0 ∧ z = zero32 (if isZero32 A && opp then A.getLsbD 31 else r = 2))) ∧
    (∃ z fl, WritesF s h (exec (.fmul d a b r) s) d z fl ∧
      (num32 A * num32 B ≠ 0 → ArithResult r (num32 A * num32 B) z fl) ∧
      (num32 A * num32 B = 0 → fl = 0 ∧ z = zero32 opp)) ∧
    (¬ isZero32 B → ∃ z fl, WritesF s h (exec (.fdiv d a b r) s) d z fl ∧
      (¬ isZero32 A → ArithResult r (num32 A / num32 B) z fl) ∧ (isZero32 A → fl = 0 ∧ z = zero32 opp)) ∧
    (¬ isNeg32 A → ¬ isZero32 A →
      ∃ z fl, WritesF s h (exec (.fsqrt d a r) s) d z fl ∧ isFin32 z ∧ ¬ isNeg32 z ∧
        fl = (if num32 z * num32 z = num32 A then 0 else 16) ∧
        ∀ w, isFin32 w → ¬ isNeg32 w →
          if r = 1 ∨ r = 2 then num32 z * num32 z ≤ num32 A ∧ (num32 w * num32 w ≤ num32 A → num32 w ≤ num32 z)
          else if r = 3 then num32 A ≤ num32 z * num32 z ∧ (num32 A ≤ num32 w * num32 w → num32 z ≤ num32 w)
          else
            let mid := (num32 z + num32 w) / 2
            (num32 z < num32 w → num32 A ≤ mid * mid) ∧ (num32 w < num32 z → mid * mid ≤ num32 A))

/-- FMIN, FMAX, FEQ, FLT and FLE: -0 counts below +0 for the minimum and maximum and equals it for the compares; NaN
operands and the flag NV as R159 says. -/
def Obligations.FloatCompare : Prop :=
  ∀ (s : State) (h : Hart) (d a b : Nat), Runs s h → d < 16 → a < 16 → b < 16 →
    let A := h.rf a
    let B := h.rf b
    let both0 := isZero32 A && isZero32 B
    ∃ mn mx : W32, ∃ q l e : W64, ∃ sg an : Nat,
      WritesF s h (exec (.fmin d a b) s) d mn sg ∧ WritesF s h (exec (.fmax d a b) s) d mx sg ∧
      WritesGF s h (exec (.feq d a b) s) d q sg ∧ WritesGF s h (exec (.flt d a b) s) d l an ∧
      WritesGF s h (exec (.fle d a b) s) d e an ∧
      (sg = 1 ↔ isSNan32 A ∨ isSNan32 B) ∧ sg ≤ 1 ∧ (an = 1 ↔ isNan32 A ∨ isNan32 B) ∧ an ≤ 1 ∧
      (isNan32 A → isNan32 B → mn = 0x7FC00000 ∧ mx = 0x7FC00000) ∧
      (isNan32 A → ¬ isNan32 B → mn = B ∧ mx = B) ∧ (¬ isNan32 A → isNan32 B → mn = A ∧ mx = A) ∧
      (isNan32 A ∨ isNan32 B → q = 0 ∧ l = 0 ∧ e = 0) ∧
      (¬ isNan32 A → ¬ isNan32 B →
        mn = (if ord32 A ≤ ord32 B then A else B) ∧ mx = (if ord32 A ≤ ord32 B then B else A) ∧
        q = (if A = B ∨ both0 then 1 else 0) ∧
        l = (if ord32 A < ord32 B ∧ ¬ both0 then 1 else 0) ∧ e = (if ord32 A ≤ ord32 B ∨ both0 then 1 else 0))

/-- FCVT and FMV: the nearest integer under RM, clamped with NV outside the 64-bit range and 0 with NV for NaN; the
rounded value of a signed integer; the bits as they are. -/
def Obligations.FloatConversions : Prop :=
  ∀ (s : State) (h : Hart) (d a r : Nat), Runs s h → d < 16 → a < 16 → r < 5 →
    let A := h.rf a
    let x := num32 A
    let n := (h.rg a).toInt
    (∃ (k : W64) (fl : Nat), WritesGF s h (exec (.fcvtGF d a r) s) d k fl ∧
      (isNan32 A → k = 0 ∧ fl = 1) ∧
      (isInf32 A → k = (if A.getLsbD 31 then 0x8000000000000000 else 0x7FFFFFFFFFFFFFFF) ∧ fl = 1) ∧
      (isFin32 A → ∃ z : Int,
        (match r with
         | 0 => |x - z| ≤ 1 / 2 ∧ (|x - z| = 1 / 2 → z % 2 = 0)
         | 1 => |x - z| < 1 ∧ |(z : Rat)| ≤ |x|
         | 2 => (z : Rat) ≤ x ∧ x < z + 1
         | 3 => x ≤ z ∧ (z : Rat) - 1 < x
         | _ => |x - z| ≤ 1 / 2 ∧ (|x - z| = 1 / 2 → |x| ≤ |(z : Rat)|)) ∧
        (z < -(2 ^ 63) → k = 0x8000000000000000 ∧ fl = 1) ∧ (2 ^ 63 ≤ z → k = 0x7FFFFFFFFFFFFFFF ∧ fl = 1) ∧
        (-(2 ^ 63) ≤ z → z < 2 ^ 63 → k.toInt = z ∧ fl = if (z : Rat) = x then 0 else 16))) ∧
    (∃ z fl, WritesF s h (exec (.fcvtFG d a r) s) d z fl ∧ (n = 0 → z = 0) ∧
      (n ≠ 0 → RoundsTo r n z) ∧ fl = if num32 z = n then 0 else 16) ∧
    WritesGF s h (exec (.fmvGf d a) s) d (A.setWidth 64) 0 ∧
    WritesF s h (exec (.fmvFg d a) s) d ((h.rg a).setWidth 32) 0

/-! ### Scalar memory instructions (R158, R160) -/

/-- LB to LD and FLW: the bytes at gA + sext(IMM16), extended, in gD or fD; no byte of memory changes. Of a device register an
LD gives the value, here for those of a governor block, and a narrower load gives 0 (R373). -/
def Obligations.ScalarLoads : Prop :=
  ∀ (s : State) (h : Hart) (d a i : Nat) (x : Xlat), Runs s h → d < 32 → a < 32 → i < 65536 →
    let va := (h.rg a + imm16 i).toNat
    let v := fun n => littleEndian n (loadByte s h va x)
    (Access s h va 1 .r x →
      LoadsG s h (exec (.lb d a i) s) d ((BitVec.ofNat 8 (v 1)).signExtend 64) ∧
      LoadsG s h (exec (.lbu d a i) s) d (BitVec.ofNat 64 (v 1))) ∧
    (Access s h va 2 .r x →
      LoadsG s h (exec (.lh d a i) s) d ((BitVec.ofNat 16 (v 2)).signExtend 64) ∧
      LoadsG s h (exec (.lhu d a i) s) d (BitVec.ofNat 64 (v 2))) ∧
    (Access s h va 4 .r x →
      LoadsG s h (exec (.lw d a i) s) d ((BitVec.ofNat 32 (v 4)).signExtend 64) ∧
      LoadsG s h (exec (.lwu d a i) s) d (BitVec.ofNat 64 (v 4)) ∧
      (d < 16 → ∃ h', OnlyReads s (exec (.flw d a i) s) h' ∧ h'.pc = h.pc + 4 ∧ h'.step = h.stepOne ∧
        (∀ k, k < 16 → h'.rf k = if k = d then BitVec.ofNat 32 (v 4) else h.rf k) ∧
        { h' with pc := h.pc, step := h.step, f := h.f } = h)) ∧
    (Access s h va 8 .r x → LoadsG s h (exec (.ld d a i) s) d (BitVec.ofNat 64 (v 8))) ∧
    ∀ q o, (DeviceAccess s h va 1 .r x q o → LoadsG s h (exec (.lb d a i) s) d 0 ∧ LoadsG s h (exec (.lbu d a i) s) d 0) ∧
      (DeviceAccess s h va 2 .r x q o → LoadsG s h (exec (.lh d a i) s) d 0 ∧ LoadsG s h (exec (.lhu d a i) s) d 0) ∧
      (DeviceAccess s h va 4 .r x q o → LoadsG s h (exec (.lw d a i) s) d 0 ∧ LoadsG s h (exec (.lwu d a i) s) d 0) ∧
      ∀ k r, k < 36 → r < 0x1000 → o = 0x200000 + k * 0x1000 + r → DeviceAccess s h va 8 .r x q o →
        let t := s.stn (64 * q + k)
        let open_ := (s.harts.filter fun p => decide (stnOf p.1 = 64 * q + k) && p.2.step.isSome).length
        LoadsG s h (exec (.ld d a i) s) d (BitVec.ofNat 64 (
          if r = 0 then s.drc (64 * q + k)
          else if r = 8 then t.margin * 2 ^ 40 + t.guardNs * 2 ^ 24 + t.interval * 2 ^ 8 + t.idlept * 2 ^ 4
          else if r = 0x10 then
            open_ * 2 ^ 24 + (if t.throt then 2 ^ 16 else 0) + min 15 (min t.thermalCap t.power) * 2 ^ 8 + t.target * 2 ^ 4 + t.cur
          else if r = 0x20 then t.eunattr
          else if r = 0x28 then t.temp else 0))

/-- SB, SH, SW, SD and FSW: the low bytes of gD or fD go to gA + sext(IMM16), and nowhere else. Memory in its canonical
form is the model's invariant (log 1). -/
def Obligations.ScalarStores : Prop :=
  ∀ (s : State) (h : Hart) (d a i : Nat) (x : Xlat), Runs s h → s.memOk = true → d < 32 → a < 32 → i < 65536 →
    let va := (h.rg a + imm16 i).toNat
    let ok := fun n v => Access s h va n .w x ∧ (pathOf x = .cached ∨ Admitted s x n v)
    (ok 1 (h.rg d).toNat → Stores s h (exec (.sb d a i) s) va 1 (h.rg d).toNat x false) ∧
    (ok 2 (h.rg d).toNat → Stores s h (exec (.sh d a i) s) va 2 (h.rg d).toNat x false) ∧
    (ok 4 (h.rg d).toNat → Stores s h (exec (.sw d a i) s) va 4 (h.rg d).toNat x false) ∧
    (ok 8 (h.rg d).toNat → Stores s h (exec (.sd d a i) s) va 8 (h.rg d).toNat x false) ∧
    (d < 16 → ok 4 (h.rf d).toNat → Stores s h (exec (.fsw d a i) s) va 4 (h.rf d).toNat x false)

/-- An access that fails its probe traps precisely (R158, R160, R163): TRAPVAL is the probe's address, and a misaligned
address fails it with ALIGN. An AMO on a device register traps with PGFLT.W, and so does AMOOR, AMOAND, AMOMIN or AMOMAX
in the host region (R160). -/
def Obligations.FailedProbesTrap : Prop :=
  ∀ (s : State) (h : Hart) (d a b i sc : Nat) (c : Cause) (u : Nat), Runs s h → h.MayTrap → i < 65536 →
    let fails := fun (va n : Nat) (k : AKind) => h.accessWaits va n (k != .r) = false ∧ s.walkAway (h.who s.cur) va n = false ∧
      s.probe1 (h.who s.cur) { e := 0, va := va, n := n, k := k, al := n } = some (c, u)
    let traps := fun (j : Instr) => Traps s h (exec j s) c.code h.pc (BitVec.ofNat 64 u)
    let va := (h.rg a + imm16 i).toNat
    let ga := (h.rg a).toNat
    (fails va 1 .r → traps (.lb d a i) ∧ traps (.lbu d a i)) ∧ (fails va 2 .r → traps (.lh d a i) ∧ traps (.lhu d a i)) ∧
    (fails va 4 .r → traps (.lw d a i) ∧ traps (.lwu d a i) ∧ traps (.flw d a i)) ∧ (fails va 8 .r → traps (.ld d a i)) ∧
    (fails va 1 .w → traps (.sb d a i)) ∧ (fails va 2 .w → traps (.sh d a i)) ∧
    (fails va 4 .w → traps (.sw d a i) ∧ traps (.fsw d a i)) ∧ (fails va 8 .w → traps (.sd d a i)) ∧
    (∀ w n, w < 2 → n = (if w = 0 then 4 else 8) →
      (fails ga n .rw → traps (.amoadd d a b sc w) ∧ traps (.amoor d a b sc w) ∧ traps (.amoand d a b sc w) ∧
        traps (.amomin d a b sc w) ∧ traps (.amomax d a b sc w) ∧ traps (.amoswap d a b sc w) ∧ traps (.amocas d a b sc w)) ∧
      (fails ga n .r → traps (.lda d a sc w)) ∧ (fails ga n .w → traps (.str a b sc w))) ∧
    (fails ga 8 .r → traps (.waitw d a b sc)) ∧
    (∀ va n k, va % n ≠ 0 → s.probe1 (h.who s.cur) { e := 0, va := va, n := n, k := k, al := n } = some (.align, va)) ∧
    ∀ (w : Nat) (x : Xlat), w < 2 →
      let n := if w = 0 then 4 else 8
      let away := fun (j : Instr) => ∃ t h', exec j s = .next t ∧ t.hart? s.cur = some h' ∧ h'.tcCode = 0x06 ∧ h'.tcInt = false ∧
        h'.trappc = h.pc &&& 0x007FFFFFFFFFFFFC ∧ h'.trapval = h.rg a ∧ h'.g = h.g ∧ t.mem = s.mem
      h.accessWaits ga n true = false → s.walkAway (h.who s.cur) ga n = false →
      s.probe1 (h.who s.cur) { e := 0, va := ga, n := n, k := .rw, al := n } = none →
      s.translate (h.who s.cur) ga = some x → h.deviceWaits = false → s.cutOff s.cur x.pa = false → h.stripAt ga = none →
      ((∃ q o, regionOf x.pa = .dev q o) → away (.amoadd d a b sc w) ∧ away (.amoswap d a b sc w) ∧ away (.amocas d a b sc w)) ∧
      ((∃ q o, regionOf x.pa = .dev q o) ∨ regionOf x.pa = .host →
        away (.amoor d a b sc w) ∧ away (.amoand d a b sc w) ∧ away (.amomin d a b sc w) ∧ away (.amomax d a b sc w))

/-- The scalar AMOs (R160, R146) on memory that no open strip buffers and of which the station holds no dirty copy when they
are performed at home: gD receives the old value, sign-extended, and the bytes hold the new one, at the station for a cached
page below scope .gang and else at home. AMOCAS leaves the bytes as they are when the comparison fails. In the host region
AMOADD, AMOSWAP and AMOCAS act on host memory, as the FetchAdd, Swap and CAS that they become there. -/
def Obligations.ScalarAtomics : Prop :=
  ∀ (s : State) (h : Hart) (d a b sc w : Nat) (x : Xlat), Runs s h → s.memOk = true → d < 32 → a < 32 → b < 32 → sc < 8 →
    w < 2 →
    let n := if w = 0 then 4 else 8
    let M := 2 ^ (8 * n)
    let va := (h.rg a).toNat
    Access s h va n .rw x → h.stripAt va = none → s.lossless (x.pa / 65536) = false →
    let here := decide (pathOf x = .cached) && decide (sc < 4) && decide (regionOf x.pa ≠ .host)
    (here = false → ∀ j, j < n → find? (s.stn (stnOf s.cur)).dirty (x.pa + j) = none) →
    let old := littleEndian n fun j =>
      if here then s.stationByte (stnOf s.cur) (x.pa + j) else Memory.read s.mem (x.pa + j)
    let y := (h.rg b).toNat % M
    let sgn := fun v : Nat => if v < M / 2 then (v : Int) else (v : Int) - M
    ∀ p ∈ [(Instr.amoadd d a b sc w, (old + y) % M), (.amoor d a b sc w, old ||| y), (.amoand d a b sc w, old &&& y),
        (.amomin d a b sc w, if sgn y < sgn old then y else old), (.amomax d a b sc w, if sgn old < sgn y then y else old),
        (.amoswap d a b sc w, y), (.amocas d a b sc w, if old = (h.rg d).toNat % M then y else old)],
      (regionOf x.pa = .host → p.1 ∈ [.amoadd d a b sc w, .amoswap d a b sc w, .amocas d a b sc w]) →
      ∃ t h', exec p.1 s = .next t ∧ t.hart? s.cur = some h' ∧ (∀ j, j ≠ s.cur → t.hart? j = s.hart? j) ∧
        h.WroteG h' d (BitVec.ofInt 64 (sgn old)) (h.pc + 4) ∧
        (if here then t.mem = s.mem ∧ ∀ k q, t.stationByte k q =
            if k = stnOf s.cur ∧ x.pa ≤ q ∧ q < x.pa + n then byteOf p.2 (q - x.pa) else s.stationByte k q
         else (∀ k, k ≠ stnOf s.cur → t.stn k = s.stn k) ∧ (∀ q, Memory.read t.mem q = if x.pa ≤ q ∧ q < x.pa + n then byteOf p.2 (q - x.pa) else Memory.read s.mem q) ∧
           ∀ j, j < n → find? (s.stn (stnOf s.cur)).clean ((x.pa + j) / 64) = none →
             t.stationByte (stnOf s.cur) (x.pa + j) = byteOf p.2 j) ∧
        (∀ w, w ∈ t.watch → w ∈ s.watch) ∧ (∀ w, w ∈ s.watch → w.2 ≠ x.pa / 64 → w ∈ t.watch) ∧
        { t with harts := s.harts, stations := s.stations, dies := s.dies, mem := s.mem, tlb := s.tlb, watch := s.watch } = s

/-- LDA is a load and an acquire at its scope (R160, R141): the lane caches of the hart are dropped, and at .gang and wider
also the clean lines of its station; the value is then that at home. STR is a release and a store (R160, R140): it waits while
an access of the hart is pending; at .gang and wider every dirty byte of the station is at home before it, here bytes of plain
frames that can be reached (R407), so that the Weir admits each, and the store itself is performed at home. -/
def Obligations.AcquireLoadReleaseStore : Prop :=
  ∀ (s : State) (h : Hart) (d a b sc w : Nat) (x : Xlat), Runs s h → s.memOk = true → d < 32 → a < 32 → b < 32 → sc < 8 →
    w < 2 →
    let n := if w = 0 then 4 else 8
    let va := (h.rg a).toNat
    let k := stnOf s.cur
    h.stripAt va = none →
    (Access s h va n .r x → (4 ≤ sc → pathOf x = .cached → ∀ j, j < n → find? (s.stn k).dirty (x.pa + j) = none) →
      let v := littleEndian n fun j => if sc < 4 then loadByte s h va x j else Memory.read s.mem (x.pa + j)
      ∃ t h', exec (.lda d a sc w) s = .next t ∧ t.hart? s.cur = some h' ∧ (∀ j, j ≠ s.cur → t.hart? j = s.hart? j) ∧
        h'.lcache = [] ∧ h.WroteG { h' with lcache := h.lcache } d
          (if w = 0 then (BitVec.ofNat 32 v).signExtend 64 else BitVec.ofNat 64 v) (h.pc + 4) ∧
        t.mem = s.mem ∧ (∀ j, (t.stn j).dirty = (s.stn j).dirty) ∧ (4 ≤ sc → (t.stn k).clean = []) ∧
        { t with harts := s.harts, stations := s.stations, tlb := s.tlb } = s) ∧
    (Access s h va n .w x → h.memPending = true → ∃ t, exec (.str a b sc w) s = .next t ∧ { t with tlb := s.tlb } = s) ∧
    (Access s h va n .w x → h.memPending = false → (sc = 7 → s.posted s.cur = false) →
      (pathOf x = .cached ∧ sc < 4 ∨ Admitted s x n (h.rg b).toNat) →
      (sc < 4 ∨ (s.stn k).dirty = [] → Stores s h (exec (.str a b sc w) s) va n (h.rg b).toNat x (decide (4 ≤ sc))) ∧
      (4 ≤ sc → ((s.stn k).dirty.map Prod.fst).Nodup →
        (∀ c ∈ (s.stn k).dirty, s.PlainFrame (c.1 / 65536) ∧ s.reaches (k / 64) (homeDie c.1) = true) →
        ∃ t h', exec (.str a b sc w) s = .next t ∧ t.hart? s.cur = some h' ∧ (∀ j, j ≠ s.cur → t.hart? j = s.hart? j) ∧
          h'.pc = h.pc + 4 ∧ h'.step = h.stepOne ∧ { h' with pc := h.pc, step := h.step } = h ∧
          (t.stn k).dirty = [] ∧ (∀ j, j ≠ k → t.stn j = s.stn j) ∧
          (∀ q, Memory.read t.mem q = if x.pa ≤ q ∧ q < x.pa + n then byteOf (h.rg b).toNat (q - x.pa)
            else (find? (s.stn k).dirty q).getD (Memory.read s.mem q)) ∧
          { t with harts := s.harts, stations := s.stations, dies := s.dies, mem := s.mem, tlb := s.tlb, watch := s.watch } = s))

/-! ### Ordering and synchronisation (R140 to R144, R161 to R168) -/

/-- FENCE once no older access is pending (R142, R140, R141, R116): .slice advances the PC alone; a wider scope drops the
lane caches, from .core on also the instruction cache of the core; .gang and wider write every dirty byte of the station
home, so that home holds what the station held, and drop its clean lines. The frames of the dirty bytes are here plain and
can be reached (R407), so that the Weir admits each; a hart watches no longer (R163) the lines that it writes home. LSYNC waits for the stores of the VMU and
does nothing else (R143). -/
def Obligations.FenceWritesBackAndDrops : Prop :=
  ∀ (s : State) (h : Hart) (sc : Nat), Runs s h → s.memOk = true → sc < 8 →
    let k := stnOf s.cur
    let dirty := (s.stn k).dirty
    WritesG s h (exec (.fence 0) s) 0 0 ∧
    (h.storesPending = false → WritesG s h (exec .lsync s) 0 0) ∧ (h.storesPending = true → exec .lsync s = .next s) ∧
    (0 < sc → h.memPending = true → exec (.fence sc) s = .next s) ∧
    (0 < sc → h.memPending = false → (sc = 7 → s.posted s.cur = false) →
      (4 ≤ sc → (dirty.map Prod.fst).Nodup ∧
        ∀ c ∈ dirty, s.PlainFrame (c.1 / 65536) ∧ s.reaches (k / 64) (homeDie c.1) = true) →
      ∃ t h', exec (.fence sc) s = .next t ∧ t.hart? s.cur = some h' ∧ (∀ j, j ≠ s.cur → t.hart? j = s.hart? j) ∧
        h'.pc = h.pc + 4 ∧ h'.lcache = [] ∧ h'.step = h.stepOne ∧
        { h' with pc := h.pc, step := h.step, lcache := h.lcache } = h ∧
        (2 ≤ sc → (t.core (coreOf s.cur)).icache = []) ∧ (sc < 2 → t.cores = s.cores) ∧
        (sc < 4 → t.mem = s.mem ∧ t.stations = s.stations) ∧
        (4 ≤ sc → (t.stn k).dirty = [] ∧ (t.stn k).clean = [] ∧ (∀ j, j ≠ k → t.stn j = s.stn j) ∧
          ∀ a, Memory.read t.mem a = (find? dirty a).getD (Memory.read s.mem a)) ∧
        (∀ w, w ∈ t.watch ↔ w ∈ s.watch ∧ (4 ≤ sc → ∀ c ∈ dirty, c.1 / 64 ≠ w.2)) ∧
        { t with harts := s.harts, cores := s.cores, stations := s.stations, mem := s.mem, watch := s.watch } = s)

/-- BAR after its release (R162): alone (.hart, or .gang in no gang) the hart goes on; a waiting hart whose generation has
ended goes on; the last participant ends the generation and goes on; an earlier one remembers its arrival and waits. Going on,
it forgets its arrival and drops its lane caches (R141). That a BAR which executes again after RET.T goes on too where its
generation has ended meanwhile is the model's choice (log 46); any other BAR arrives anew, whatever arrival is remembered. -/
def Obligations.BarrierCompletes : Prop :=
  ∀ (s : State) (h : Hart) (sc : Nat), Runs s h → 1 ≤ sc → sc < 5 → h.memPending = false →
    (sc = 4 → (s.stn (stnOf s.cur)).dirty = []) →
    let goes := fun (t : State) (f : List (Nat × Nat)) => ∃ h', t.hart? s.cur = some h' ∧ h'.pc = h.pc + 4 ∧ h'.lcache = [] ∧
      h'.g = h.g ∧ h'.status = h.status ∧ (h.wait.isSome = true → h'.wait = none) ∧ h'.bar = f ∧ t.mem = s.mem
    (barKey s.cur h sc = none → ∃ t, exec (.bar sc) s = .next t ∧ goes t h.bar ∧ t.barriers = s.barriers) ∧
    ∀ key, barKey s.cur h sc = some key →
      let b := s.barrier key
      let again := h.wait = some .bar ∨ h.barPc = some (h.pc, h.sup)
      let left := h.bar.filter fun x => x.1 != key
      (∀ g, find? h.bar key = some g → g < b.gen → again →
        ∃ t, exec (.bar sc) s = .next t ∧ goes t left ∧ t.barrier key = b) ∧
      ((find? h.bar key = none ∨ ∃ g, find? h.bar key = some g ∧ g < b.gen ∧ ¬ again) → s.barGen s.cur key = b.gen → .hart s.cur ∈ s.barPeople key → s.barForming key = false →
        ((∀ w ∈ s.barPeople key, w = .hart s.cur ∨ w ∈ b.arrived) →
          ∃ t, exec (.bar sc) s = .next t ∧ goes t left ∧ (t.barrier key).gen = b.gen + 1) ∧
        ((∃ w ∈ s.barPeople key, w ≠ .hart s.cur ∧ w ∉ b.arrived) →
          ∃ t h', exec (.bar sc) s = .next t ∧ t.hart? s.cur = some h' ∧ h'.wait = some .bar ∧ h'.pc = h.pc ∧
            find? h'.bar key = some b.gen ∧ h'.g = h.g ∧ (t.barrier key).gen = b.gen ∧ .hart s.cur ∈ (t.barrier key).arrived))

/-- WAITW (R163): a word that differs from gB is the result, read as an acquire; an equal word leaves the hart waiting at
the instruction, and watching the line of the word for a write at its scope. In the host region WAITW traps with PGFLT.R. -/
def Obligations.WaitForWord : Prop :=
  ∀ (s : State) (h : Hart) (d a b sc : Nat) (x : Xlat), Runs s h → d < 32 → a < 32 → b < 32 → 3 ≤ sc → sc < 8 →
    let va := (h.rg a).toNat
    let k := stnOf s.cur
    Access s h va 8 .r x → h.stripAt va = none →
    (4 ≤ sc → pathOf x = .cached → ∀ j, j < 8 → find? (s.stn k).dirty (x.pa + j) = none) →
    let v := BitVec.ofNat 64 (littleEndian 8 fun j => if sc = 3 then loadByte s h va x j else Memory.read s.mem (x.pa + j))
    (regionOf x.pa = .host → h.MayTrap → ∃ t h', exec (.waitw d a b sc) s = .next t ∧ t.hart? s.cur = some h' ∧
      h'.tcCode = 0x05 ∧ h'.trapval = h.rg a ∧ h'.g = h.g) ∧
    (regionOf x.pa ≠ .host → v ≠ h.rg b →
      ∃ t h', exec (.waitw d a b sc) s = .next t ∧ t.hart? s.cur = some h' ∧ h'.lcache = [] ∧ h'.wait = none ∧
        h.WroteG { h' with lcache := h.lcache, wait := h.wait, groups := h.groups } d v (h.pc + 4) ∧
        (4 ≤ sc → (t.stn k).clean = []) ∧ t.mem = s.mem ∧ (∀ j, (t.stn j).dirty = (s.stn j).dirty) ∧
        (∀ w, w ∈ t.watch ↔ w ∈ s.watch ∧ w.1 ≠ s.cur) ∧
        { t with harts := s.harts, stations := s.stations, tlb := s.tlb, watch := s.watch } = s) ∧
    (regionOf x.pa ≠ .host → v = h.rg b →
      ∃ t h', exec (.waitw d a b sc) s = .next t ∧ t.hart? s.cur = some h' ∧
        h'.wait = some (.waitw { d := d, b := h.rg b, sc := sc, va := va, x := some x }) ∧ h'.pc = h.pc ∧ h'.g = h.g ∧
        (sc = 3 → (s.cur, x.pa / 64) ∈ (t.stn k).watch) ∧ (4 ≤ sc → (s.cur, x.pa / 64) ∈ t.watch) ∧ t.mem = s.mem)

/-- TKPUSH and TKPOP (R164): partner code 0 does nothing; a push into a count that with its reservations is 15 traps with
TKOVF; a pop of a count 0 waits. YIELD leaves the hart with credit 0 in the sequencers of its station's cores and has no
other effect; PRIO gives the old level in gD and takes gA[2:0], which user mode may not raise (R168). -/
def Obligations.TokensYieldPrio : Prop :=
  ∀ (s : State) (h : Hart) (d a : Nat), Runs s h → d < 32 → a < 32 →
    let p := (h.rg a).toNat % 4
    let moves := fun (o : Out) (f n : Nat) => ∃ h', OnlyHart s o h' ∧ h'.pc = h.pc + 4 ∧ h'.step = h.stepOne ∧ h'.tokens f = n ∧
      (∀ q, q ≠ f → h'.tokens q = h.tokens q) ∧
      { h' with pc := h.pc, step := h.step, tok := h.tok, wait := h.wait, groups := h.groups } = h
    (p = 0 → WritesG s h (exec (.tkpush a) s) 0 0 ∧ WritesG s h (exec (.tkpop a) s) 0 0) ∧
    (p ≠ 0 →
      let push := fifo engScalar p
      let pop := fifo p engScalar
      (h.tokens push + h.reservedIn push < 15 → moves (exec (.tkpush a) s) push (h.tokens push + 1)) ∧
      (h.tokens push + h.reservedIn push = 15 → h.MayTrap →
        Traps s h (exec (.tkpush a) s) 0x10 h.pc (BitVec.ofNat 64 p)) ∧
      (1 ≤ h.tokens pop → moves (exec (.tkpop a) s) pop (h.tokens pop - 1)) ∧
      (h.tokens pop = 0 → ∃ h', OnlyHart s (exec (.tkpop a) s) h' ∧ h'.wait = some (.tkpop p) ∧ h'.pc = h.pc ∧
        { h' with wait := h.wait, waitSince := h.waitSince, deficit := h.deficit, groups := h.groups } = h)) ∧
    (∃ t h', exec .yield s = .next t ∧ t.hart? s.cur = some h' ∧ h.WroteG h' 0 0 (h.pc + 4) ∧
      (∀ j, j ≠ s.cur → t.hart? j = s.hart? j) ∧
      (∀ k, (t.core k) = if k / 4 = stnOf s.cur then { s.core k with credit := put (s.core k).credit s.cur 0 } else s.core k) ∧
      { t with harts := s.harts, cores := s.cores } = s) ∧
    ∃ h', OnlyHart s (exec (.prio d a) s) h' ∧
      h'.prio = (if h.sup = true ∨ (h.rg a).toNat % 8 ≤ h.prio then (h.rg a).toNat % 8 else h.prio) ∧
      h.WroteG { h' with prio := h.prio } d (BitVec.ofNat 64 h.prio) (h.pc + 4)

/-- SPAWN (R165, R69, R152), when its release is complete and the block can be read: the failure codes in their order, and
else a hart in the lowest free slot of the core, in the state of R69, with SVH exactly when its context has no supervisor
hart; gD is its identifier. -/
def Obligations.SpawnCreatesHart : Prop :=
  ∀ (s : State) (h : Hart) (d a b : Nat) (xs : Nat → Xlat), Runs s h → d < 32 → a < 32 → b < 32 →
    let blk := (h.rg b).toNat
    let tg := (h.rg a).toNat
    let core := tg / 4 % 2048
    h.accessWaits blk 32 false = false → s.walkAway (h.who s.cur) blk 32 = false → h.memPending = false → blk % 8 = 0 → (s.stn (stnOf s.cur)).dirty = [] →
    s.probe1 (h.who s.cur) { e := 0, va := blk, n := 32, k := .r, al := 8 } = none →
    (∀ n, n < 4 → s.translate (h.who s.cur) (blk + 8 * n) = some (xs n) ∧ (∀ q o, regionOf (xs n).pa ≠ .dev q o) ∧
      (s.frameInfo ((xs n).pa / 65536)).slot = none ∧ (xs n).pa % 8 = 0) →
    RoomFor s (fun p => xs ((p - blk) / 8)) (Bytes blk 32) →
    let w := fun n => littleEndian 8 (loadByte s h (blk + 8 * n) (xs n))
    let fails := fun k : Nat => ∃ t h', exec (.spawn d a b) s = .next t ∧ t.hart? s.cur = some h' ∧
      h.WroteG h' d (BitVec.ofNat 64 (2 ^ 63 + k)) (h.pc + 4) ∧ (∀ j, j ≠ s.cur → t.hart? j = s.hart? j) ∧ t.mem = s.mem
    let newCtx := tg.testBit 22
    let badBlock := w 3 ≠ 0 ∨ w 2 % 65536 ≠ 0
    let full := ∀ j, j / 4 = core → (s.hart? j).isSome = true
    if newCtx = true ∧ h.sup = false then fails 5
    else if 36 ≤ tg / 16 % 64 then fails 2
    else (badBlock → fails 4) ∧ (¬ badBlock → (s.stn (core / 4)).state ≠ 0 → fails 3) ∧
      (¬ badBlock → (s.stn (core / 4)).state = 0 → full → fails 1) ∧
      (¬ badBlock → (s.stn (core / 4)).state = 0 → ¬ full → (s.stn (core / 4)).dirty = [] →
        ∃ t h' new q, exec (.spawn d a b) s = .next t ∧ t.hart? s.cur = some h' ∧ t.hart? new = some q ∧
          h.WroteG h' d (BitVec.ofNat 64 new) (h.pc + 4) ∧ new / 4 = core ∧ s.hart? new = none ∧
          (∀ j, j / 4 = core → j < new → (s.hart? j).isSome = true) ∧ (∀ j, j ≠ s.cur → j ≠ new → t.hart? j = s.hart? j) ∧
          t.mem = s.mem ∧
          q.ctx = (if newCtx then tg / 2 ^ 16 % 64 else h.ctx) ∧ q.pc = (h.rg d) &&& ~~~3 ∧
          (∀ n, n < 32 → q.rg n = if n = 1 then BitVec.ofNat 64 (w 0) else if n = 2 then BitVec.ofNat 64 (w 1) else 0) ∧
          (∀ n, n < 16 → q.rf n = 0) ∧ (∀ n, n < 32 → (vreg q.v n).tag = none) ∧ q.xacc = Vector.replicate 4 0 ∧
          q.sup = false ∧ q.ie = false ∧ q.svh = (s.supHart q.ctx).isNone ∧ q.vtype = 0x1000000000 ∧
          q.tshape = 0x8000000000000000 ∧ q.vl = 0 ∧ q.vcfg = 0x802 ∧ q.prio = h.prio ∧ q.spill = w 2 ∧
          q.groups = [{ idx := 0, core := new / 4 % 4, grp := new % 4, st := .granted }] ∧
          q.tok = Vector.replicate 16 0 ∧ q.vq = [] ∧ q.mq = [] ∧ q.sq = [])

/-- HALT with empty queues and nothing of the hart outstanding (R70, R166): the slot is free, no tile of the core is held by
the hart, no gang counts it; every other hart and memory are as before. The barrier generation of its core or station ends
when the hart is the only participant that has not arrived, and does not when another has not (R162); the harts that wait in
it go on by moves of their own. With work in a queue it waits. -/
def Obligations.HaltFreesHart : Prop :=
  ∀ (s : State) (h : Hart), Runs s h →
    (h.idleQueues = false → exec .halt s = .next s) ∧
    (h.idleQueues = true → h.memPending = false → h.held = none → (s.stn (stnOf s.cur)).dirty = [] → s.posted s.cur = false →
      ∃ t, exec .halt s = .next t ∧ t.hart? s.cur = none ∧ t.mem = s.mem ∧
        (∀ k, k < 4 → (t.tile s.cur k).held ≠ some s.cur) ∧
        (∀ key i, h.gang = some (key, i) → ∀ g, t.gang? key = some g → ∀ m ∈ g.members, m.who ≠ .hart s.cur) ∧
        (∀ j, j ≠ s.cur → t.hart? j = s.hart? j) ∧
        (h.ctx < 64 → s.cur < 8192 → ∀ key ∈ [2 ^ 32 + h.ctx * 2 ^ 16 + coreOf s.cur, 2 * 2 ^ 32 + h.ctx * 2 ^ 16 + stnOf s.cur],
          let rest := (s.barPeople key).filter fun w => w != .hart s.cur
          ((∃ w ∈ rest, w ∉ (s.barrier key).arrived) → (t.barrier key).gen = (s.barrier key).gen) ∧
          (rest ≠ [] → (∀ w ∈ rest, w ∈ (s.barrier key).arrived) → (t.barrier key).gen = (s.barrier key).gen + 1)))

/-- GANG.JOIN and GANG.LEAVE (R71, R167): the hart is a member from its request on, at the lowest free index; with the
grant GG its registers are undefined, VL is 0 and gD is the index, and while the Yard has too few groups it waits. GG outside
1 to 64, NEXP outside 1 to 576, a member already, other values than the gang's, a full gang, more than 240 groups on the
station beside the reserved ones, an open strip (R252) or an open binding (R318) traps with GANGERR. Leaving keeps the grant
and VL. That GANG.JOIN waits while an older instruction that names a v- or m-register is unretired is the model's reading
(log 34). -/
def Obligations.GangMembership : Prop :=
  ∀ (s : State) (h : Hart) (d a b : Nat), Runs s h → d < 32 → a < 32 → b < 32 →
    let num := (h.rg a).toNat % 256
    let gg := (h.rg b).toNat % 128
    let nexp := (h.rg b).toNat / 2 ^ 16 % 1024
    let key := gangKey h.ctx (dieOf s.cur) num
    let before := ((s.gang? key).map fun g => g.members).getD []
    let here := fun (g : Gang) => (g.members.filter fun m => match m.who with
      | .hart i => decide (stnOf i = stnOf s.cur)
      | .saved _ => false).length
    let refused := ¬ (1 ≤ gg ∧ gg ≤ 64) ∨ ¬ (1 ≤ nexp ∧ nexp ≤ 576) ∨ h.gang ≠ none ∨ h.stripOpen = true ∨ h.bindingOpen = true ∨
      (∃ g, s.gang? key = some g ∧
        (g.gg ≠ gg ∨ g.nexp ≠ nexp ∨ g.members.length = nexp ∨ 240 < (here g + 1) * (gg - 1)))
    (h.regsBusy = false → refused → h.MayTrap →
      Traps s h (exec (.gangJoin d a b) s) 0x11 h.pc (BitVec.ofNat 64 num)) ∧
    (h.regsBusy = true → exec (.gangJoin d a b) s = .next s) ∧
    (h.regsBusy = false → ¬ refused →
      ∃ t h' idx g m, exec (.gangJoin d a b) s = .next t ∧ t.hart? s.cur = some h' ∧ h'.gang = some (key, idx) ∧
        t.gang? key = some g ∧ g.gg = gg ∧ g.nexp = nexp ∧ g.members = before ++ [m] ∧ m.who = .hart s.cur ∧ m.idx = idx ∧
        (∀ x ∈ before, x.idx ≠ idx) ∧ (∀ i, i < idx → ∃ x ∈ before, x.idx = i) ∧
        ∀ hg, ((s.joinGang s.cur h num gg nexp).yardGrant s.cur gg).1.hart? s.cur = some hg →
          if hg.heldGroups.length = gg ∧ hg.groups.length = gg then
            h'.pc = h.pc + 4 ∧ h'.vl = 0 ∧ h'.gcount = gg ∧ h'.wait = none ∧ (∀ n, n < 32 → (vreg h'.v n).tag = none) ∧
              ∀ n, n < 32 → h'.rg n = if n = d ∧ n ≠ 0 then BitVec.ofNat 64 idx else h.rg n
          else h'.wait = some (.yard d num gg nexp) ∧ h'.pc = h.pc ∧ h'.g = h.g) ∧
    (h.gang = none → h.MayTrap → Traps s h (exec .gangLeave s) 0x11 h.pc 0) ∧
    (∀ k i g, h.gang = some (k, i) → h.mcastPending = false → s.gang? k = some g →
      ∃ t h', exec .gangLeave s = .next t ∧ t.hart? s.cur = some h' ∧ h'.pc = h.pc + 4 ∧ h'.gang = none ∧ h'.vl = h.vl ∧
        h'.vgrant = h.vgrant ∧ h'.groups = h.groups ∧ h'.g = h.g ∧ t.mem = s.mem ∧
        (t.gang? k = none ∨ ∃ g', t.gang? k = some g' ∧ g'.members = g.members.filter fun m => m.who != .hart s.cur))

/-! ### Sysregs and system instructions (R150 to R183) -/

/-- SYSRD (R171): gD receives the sysreg, whose fields are those of the register maps. A sysreg that R53 marks S is read in
supervisor mode; FFLAGS, SRSEED, SRCTR and XRIX are read with the queues empty, or in the trap of a fault that stopped
them (R153), and else the instruction waits. That EFFECTIVE reads SLICE until the first restore is the model's reading
(log 32). -/
def Obligations.SysregValues : Prop :=
  ∀ (s : State) (h : Hart) (d : Nat), Runs s h → d < 32 →
    let quiet := h.idleQueues = true ∨ h.inTrap = true
    ∀ n, (n ∈ sysSupervisor → h.sup = true) →
      ((n ∈ sysWaiting → quiet) → WritesG s h (exec (.sysrd d n) s) d (BitVec.ofNat 64 (sysValue s h n))) ∧
      (n ∈ sysWaiting → ¬ quiet → exec (.sysrd d n) s = .next s)

/-- SYSWR and SYSSWAP (R171, R5): RW fields take the bits of gA, RO fields keep their values; SYSSWAP gives in gD the old
value, as SYSRD does. Read-only registers do not change (R171); TSHAPE recomputes TILL (R39); a field of TKROUTE keeps its value
when given its own engine's code (R23); IPEND bits clear where gA has ones (R178); SLICE is the context's (R107); CAP of
SBCAP changes at once when no older vector word and no older write to it waits (R251); a write to STATUS with SVH set takes
SVH from the other harts of the context (R152). -/
def Obligations.SysregWrites : Prop :=
  ∀ (s : State) (h : Hart) (a : Nat), Runs s h → a < 32 →
    let x := h.rg a
    let old := fun (n d : Nat) => h.moved.setG d (BitVec.ofNat 64 (sysValue s h n))
    let wr := fun (n : Nat) (f : Hart → Hart) => OnlyHart s (exec (.syswr a n) s) (f h.moved) ∧
      ∀ d, d < 32 → OnlyHart s (exec (.sysswap d a n) s) (f (old n d))
    let both := fun (n : Nat) (P : Instr → Hart → Prop) => P (.syswr a n) h.moved ∧ ∀ d, d < 32 → P (.sysswap d a n) (old n d)
    let quiet := h.idleQueues = true ∨ h.inTrap = true
    let field := fun (v : W64) (lo n : Nat) => v.toNat / 2 ^ lo % 2 ^ n
    (∀ n ∈ [0x000, 0x001, 0x002, 0x003, 0x004, 0x005, 0x021, 0x050, 0x051, 0x060, 0x061, 0x062], wr n fun q => q) ∧
    (∃ T : W64, wr 0x006 (fun q => { q with tshape := T }) ∧ field T 0 27 = field x 0 27 ∧ field T 27 36 = 0 ∧
      (T.getLsbD 63 = true ↔
        (¬ (5 ≤ field x 0 4 ∧ field x 0 4 ≤ 12) ∨ ¬ (5 ≤ field x 4 4 ∧ field x 4 4 ≤ 12) ∨ field x 8 2 = 3 ∨
          (field x 8 2 = 0 ∧ (9 ≤ field x 0 4 ∨ 9 ≤ field x 4 4)) ∨
          (field x 8 2 ≠ 0 ∧ (field x 0 4 = 5 ∨ field x 0 4 = 6 ∨ field x 4 4 = 5 ∨ field x 4 4 = 6)) ∨
          field x 27 36 ≠ 0))) ∧
    (∃ T : W64, wr 0x020 (fun q => { q with tkroute := T }) ∧ T.toNat < 2 ^ 12 ∧
      ∀ p ∈ [(0, 1), (2, 1), (4, 2), (6, 2), (8, 3), (10, 3)],
        field T p.1 2 = if field x p.1 2 = p.2 then field h.tkroute p.1 2 else field x p.1 2) ∧
    (quiet →
      wr 0x010 (fun q => { q with srseed := x }) ∧ wr 0x011 (fun q => { q with srctr := field x 0 32 }) ∧
      wr 0x030 (fun q => { q with fflags := field x 0 8 }) ∧
      (h.sup = true → h.xdecStopped = none → wr 0x012 fun q => q)) ∧
    (h.sup = true →
      wr 0x041 (fun q => { q with trappc := x &&& 0x007FFFFFFFFFFFFC }) ∧ wr 0x042 (fun q => { q with trapval := x }) ∧
      wr 0x043 (fun q => { q with trapvec := x &&& 0x007FFFFFFFFFFFC0 }) ∧
      wr 0x052 (fun q => { q with prio := field x 0 3 }) ∧
      (field x 8 2 ≠ 1 → field x 8 2 ≠ 2 → ∃ p, wr 0x040 (fun q => { q with ipend := p }) ∧
        ∀ b, p.testBit b = (h.ipend.testBit b && !(decide (b < 5) && x.getLsbD (16 + b)))) ∧
      (h.sbpend = [] → (h.qstop = true ∨ h.vq = []) → field x 62 2 = 0 →
        wr 0x054 fun q => { q with sbcap := field x 6 26 }) ∧
      (both 0x053 fun i q => ∃ t, exec i s = .next t ∧ t.hart? s.cur = some q ∧ (∀ j, j ≠ s.cur → t.hart? j = s.hart? j) ∧
        (∀ c, t.ctx c = if c = h.ctx then { s.ctx c with slice := field x 0 32 } else s.ctx c) ∧
        { t with harts := s.harts, ctxs := s.ctxs } = s) ∧
      (both 0x031 fun i q => ∃ t h', exec i s = .next t ∧ t.hart? s.cur = some h' ∧ { h' with status := h.status } = q ∧
        (∀ b, b < 64 → h'.status.getLsbD b =
          if b ∈ [1, 2, 3, 4, 8, 9, 10, 11, 12] then x.getLsbD b else h.status.getLsbD b) ∧
        (∀ j, j ≠ s.cur → t.hart? j = (s.hart? j).map fun q =>
          if x.getLsbD 4 = true ∧ q.ctx = h.ctx then { q with status := q.status &&& ~~~0x10 } else q) ∧
        { t with harts := s.harts } = s))

/-- In user mode a sysreg that R53 marks S, and an instruction marked supervisor-only, trap with ILLINS: TRAPVAL is the
word (R50, R51, R53, R170). -/
def Obligations.SupervisorOnlyTraps : Prop :=
  ∀ (s : State) (h : Hart) (d a n : Nat), Runs s h → h.sup = false → d < 32 → a < 32 →
    let ill := fun (i : Instr) (w : Nat) => Traps s h (exec i s) 0x01 h.pc (BitVec.ofNat 64 w)
    let y := fun (fn d a n : Nat) => 0x34 * 2 ^ 26 + d * 2 ^ 21 + a * 2 ^ 16 + n * 16 + fn
    (n ∈ [0x012, 0x031, 0x040, 0x041, 0x042, 0x043, 0x052, 0x053, 0x054] →
      ill (.sysrd d n) (y 0 d 0 n) ∧ ill (.syswr a n) (y 1 0 a n) ∧ ill (.sysswap d a n) (y 2 d a n)) ∧
    ill .retT (y 4 0 0 0) ∧ ill (.invpg a) (y 5 0 a 0) ∧ ill (.invall a) (y 6 0 a 0) ∧
    ill (.vframeSave d a) (y 7 d a 0) ∧ ill (.vframeRestore d a) (y 8 d a 0)

/-- TRAP raises SYSCALL and BKPT raises BKPT; both are precise, TRAPVAL holds the code, and TRAPPC the address of the
following word or of the BKPT (R172). -/
def Obligations.TrapAndBreakpoint : Prop :=
  ∀ (s : State) (h : Hart) (c : Nat), Runs s h → h.MayTrap → c < 4096 →
    Traps s h (exec (.trap c) s) 0x14 (h.pc + 4) (BitVec.ofNat 64 c) ∧
    Traps s h (exec (.bkpt c) s) 0x15 h.pc (BitVec.ofNat 64 c)

/-- A precise trap in supervisor mode with IE 0 freezes the hart with reason 0x01 and writes no trap register (R177, R182):
FROZEN waits on the supervisor hart of its context or of context 0, with the master handle; the host has it when there is
none, or when that hart is frozen itself. That a context has one supervisor hart at most is R152; that a report to a hart whose FROZEN
bit is still pending replaces the handle is the model's choice (log 46). The receiver (reportTo) is the supervisor hart
of the context, or where it has none that of context 0 (R152). -/
def Obligations.DoubleTrapFreezes : Prop :=
  ∀ (s : State) (h : Hart) (c : Nat), Runs s h → s.OneSupervisor → h.sup = true → h.ie = false → h.frozen = none →
    let hd : Nat := h.ctx * 2 ^ 56 + 2 ^ 48 + s.cur
    ∀ j ∈ [Instr.trap c, .bkpt c], ∃ t h', exec j s = .next t ∧ t.hart? s.cur = some h' ∧ h'.frozen.isSome = true ∧
      h'.frozenReason = 1 ∧ h'.pc = h.pc ∧ h'.status = h.status ∧ h'.tcCode = h.tcCode ∧ h'.tcInt = h.tcInt ∧
      h'.trappc = h.trappc ∧ h'.trapval = h.trapval ∧ h'.g = h.g ∧ t.mem = s.mem ∧
      (s.reportTo h.ctx = none → t.pkg.hfrozen = BitVec.ofNat 64 hd ∧ t.pkg.hevt.testBit 2 = true) ∧
      (∀ k q, s.reportTo h.ctx = some k → s.hart? k = some q →
        ∃ q', t.hart? k = some q' ∧ q'.ipend = q.ipend ||| 16 ∧ vat q'.ipval 4 0 = BitVec.ofNat 64 hd) ∧
      (s.reportTo h.ctx = some s.cur → t.pkg.hfrozen = BitVec.ofNat 64 hd ∧ t.pkg.hevt.testBit 2 = true)

/-- RET.T (R173): MODE := PMODE, IE := PIE, PC := TRAPPC. With nothing stopped, no fault waiting and no probe to be made
again it restores nothing else. -/
def Obligations.ReturnFromTrap : Prop :=
  ∀ (s : State) (h : Hart), Runs s h → h.sup = true →
    ∃ h', OnlyHart s (exec .retT s) h' ∧ h'.pc = h.trappc &&& 0x007FFFFFFFFFFFFC ∧
      h'.status.getLsbD 0 = h.status.getLsbD 2 ∧ h'.status.getLsbD 1 = h.status.getLsbD 3 ∧
      (∀ b, 2 ≤ b → h'.status.getLsbD b = h.status.getLsbD b) ∧ h'.inTrap = false ∧ h'.g = h.g ∧ h'.f = h.f ∧
      (h.faults = [] → h'.qstop = false ∧ ∀ e ∈ h'.allEntries, e.frozen = none → e.stopped = false) ∧
      (h.faults = [] → (∀ e ∈ h.allEntries, e.stopped = false) → (∀ q : Fin 8, (h.slots.get q).stopped = false) →
        (h.qstop = true → ∀ e ∈ h.allEntries, e.started = false → e.unprobed = e) →
        { h' with pc := h.pc, status := h.status, step := h.step, inTrap := h.inTrap, qstop := h.qstop } = h)

/-- INVPG removes the translations of one 64 KiB page of one context, INVALL those of a context or of all (R174, R129),
after its release and once no instruction that passed its probe with such a translation still runs and no access that was
translated through one is held; then the hart goes on, no lane cache holds a line, and a WAITW that waits with such a
translation probes again before it reads. The station has no dirty byte here, so that the release writes none back. -/
def Obligations.InvalidateRemovesTranslations : Prop :=
  ∀ (s : State) (h : Hart) (a : Nat), Runs s h → h.sup = true → a < 32 → h.memPending = false →
    (s.stn (stnOf s.cur)).dirty = [] →
    let x := (h.rg a).toNat
    let page := x / 2 ^ 16 % 2 ^ 39
    let ctx := x / 2 ^ 58
    let removes := fun (i : Instr) (p : TlbEntry → Bool) => s.probedIn p = false →
      ∃ t h', exec i s = .next t ∧ t.hart? s.cur = some h' ∧ h'.lcache = [] ∧ { h' with lcache := h.lcache } = h.moved.forget s.cur p ∧
        t.tlb = s.tlb.filter (fun e => !p e) ∧ t.mem = s.mem ∧
        (∀ j, j ≠ s.cur → t.hart? j = (s.hart? j).map fun q => { q.forget j p with lcache := [] }) ∧
        { t with harts := s.harts, tlb := s.tlb } = s
    removes (.invpg a) (fun e => e.ctx == ctx && e.page == page * 2 ^ 16 / 2 ^ e.size) ∧
    (x < 2 ^ 63 → removes (.invall a) (fun e => e.ctx == x % 64)) ∧
    (2 ^ 63 ≤ x → removes (.invall a) (fun _ => true))

/-- VFRAME.SAVE (R175, R103, R104) of a hart whose instructions hold nothing back, with no strip open and no group
spilled: the frame's record keeps the vector state, its header stands at the base with the number of bytes written, the banks
of each group stand in its grant-index region, no byte outside the frame's range changes; then the vector state is that of
SPAWN, the queues are empty and grant index 0 alone is kept; gD is the number of bytes written. A bad address traps
precisely with its cause. The instruction waits while a stream holds bytes of the frame in the interlock (R25), or its walk
cannot reach a table (R407). The record of a frame is the model's (log 6), and so is the order of the bytes of a bank (log 7). -/
def Obligations.FrameSave : Prop :=
  ∀ (s : State) (h : Hart) (d a : Nat) (pa : Nat → Nat), Runs s h → h.sup = true → d < 32 → a < 32 →
    let base := (h.rg a).toNat
    let waits := h.ilkHit h.seq base (base + 0x898000) true [] = true ∨ s.walkAway (h.who s.cur) base 0x898000 = true
    (waits → exec (.vframeSave d a) s = .next s) ∧
    (¬ waits → base % 65536 ≠ 0 → h.MayTrap → Traps s h (exec (.vframeSave d a) s) 0x09 h.pc (h.rg a)) ∧
    (∀ c u, ¬ waits → base % 65536 = 0 → h.MayTrap →
      s.probe1 (h.who s.cur) { e := 0, va := base, n := 0x898000, k := .w, al := 1 } = some (c, u) →
      Traps s h (exec (.vframeSave d a) s) c.code h.pc (BitVec.ofNat 64 u)) ∧
    (¬ waits → FrameRange s h base .w pa → s.memOk = true → (∀ o o', o < 0x898000 → o' < 0x898000 → pa o = pa o' → o = o') →
      (∀ v ∈ h.vq, v.e.midDevice = false) → (∀ x ∈ s.dies, x.2.held = []) → (s.stn (stnOf s.cur)).dirty = [] →
      h.strip = none → (∀ g ∈ h.groups, g.st ≠ .spilled) → (∀ v ∈ h.vq, ∀ r, v.redeal = some r → r.spilled = []) →
      ∃ t h' f size, size = frameWritten f ∧ exec (.vframeSave d a) s = .next t ∧ t.hart? s.cur = some h' ∧ t.frames = s.frames ++ [f] ∧
        (∀ j, j ≠ s.cur → (t.hart? j).isSome = (s.hart? j).isSome) ∧
        h'.pc = h.pc + 4 ∧ (∀ n, n < 32 → h'.rg n = if n = d ∧ n ≠ 0 then BitVec.ofNat 64 size else h.rg n) ∧
        h'.f = h.f ∧ h'.status = h.status ∧ h'.fflags = h.fflags ∧ h'.ctx = h.ctx ∧ h'.tkroute = h.tkroute ∧
        h'.trappc = h.trappc ∧ h'.trapval = h.trapval ∧ h'.prio = h.prio ∧
        h'.vl = 0 ∧ h'.vtype = 0x1000000000 ∧ h'.vcfg = 0x802 ∧ h'.vgrant = 0x10001 ∧ h'.tshape = 0x8000000000000000 ∧
        h'.idleQueues = true ∧ h'.gang = none ∧ h'.ilk = [] ∧ (∀ g ∈ h'.groups, g.idx = 0 ∧ g.st = .granted) ∧
        (∀ n, n < 32 → (vreg h'.v n).tag = none) ∧ h'.dlslack = 0x7FFFFFFFFFFFFFFF ∧ h'.stepid.getLsbD 63 = false ∧
        (∀ b, b < 62 → h'.stepid.getLsbD b = h.stepid.getLsbD b) ∧
        f.ctx = h.ctx ∧ f.svh = h.svh ∧ f.saver = s.cur ∧ f.consumed = false ∧
        f.hart.vl = h.vl ∧ f.hart.vtype = h.vtype ∧ f.hart.vcfg = h.vcfg ∧ f.hart.vgrant = h.vgrant ∧
        f.hart.tshape = h.tshape ∧ f.hart.v = h.v ∧ f.hart.m = h.m ∧ f.hart.xacc = h.xacc ∧ f.hart.tok = h.tok ∧
        f.hart.gang = h.gang ∧ (f.hart.step.map fun r => { r with c := 0 }) = (h.step.map fun r => { r with c := 0 }) ∧ (f.hart.vq.map fun v => v.e.seq) = (h.vq.map fun v => v.e.seq) ∧
        littleEndian 16 (fun k => Memory.read t.mem (pa k)) =
          0x4C584652 + 2 ^ 32 + s.cur % 65536 * 2 ^ 48 + size * 2 ^ 64 ∧
        (∀ j o, j < min 64 h.gcount → o < fieldOf h.vcfg 8 5 * 0x1000 →
          some (Memory.read t.mem (pa (0x10000 + j * 0x20000 + o))) = (h.bankBytes j)[o]?) ∧
        ∀ q, (∀ o, o < 0x898000 → pa o ≠ q) → Memory.read t.mem q = Memory.read s.mem q)

/-- VFRAME.RESTORE (R176, R105, R108): the checks in their order; then the executing hart takes the context, the vector
state and the queues of the frame, its registers as the frame's memory holds them, TSLICE.EFFECTIVE is set within its 32
bits, and the frame is gone. The frame here asks for one group, holds no tile and no gang membership, and lies in memory of
which the station holds no dirty byte. The instruction waits as VFRAME.SAVE does, for streams that write the frame. That the
generation stands at frame offset 0x10 under an opaque mask is the model's choice (log 6), and so are the cut of EFFECTIVE to
0xFFFFFFFF (log 32) and the layout of the bytes of banks and masks (log 7). -/
def Obligations.FrameRestore : Prop :=
  ∀ (s : State) (h : Hart) (d a : Nat) (pa : Nat → Nat), Runs s h → h.sup = true → d < 32 → a < 32 →
    let base := (h.rg a).toNat
    let word := fun o n => littleEndian n fun k => Memory.read s.mem (pa (o + k))
    let gen := genOf ((List.range' 0x10 8).map fun k => Memory.read s.mem (pa k))
    let traps := fun (c : Nat) (v : Nat) => ∃ t h', exec (.vframeRestore d a) s = .next t ∧ t.hart? s.cur = some h' ∧
      h'.tcCode = c ∧ h'.tcInt = false ∧ h'.trapval = BitVec.ofNat 64 v ∧ h'.trappc = h.pc &&& 0x007FFFFFFFFFFFFC ∧
      h'.g = h.g ∧ h'.v = h.v ∧ h'.vl = h.vl ∧ h'.ctx = h.ctx ∧ t.mem = s.mem ∧ t.frames = s.frames
    let waits := h.rangeWaits h.seq (base, base + 0x898000, false) = true ∨ s.walkAway (h.who s.cur) base 0x898000 = true
    (waits → exec (.vframeRestore d a) s = .next s) ∧
    (¬ waits → base % 65536 ≠ 0 → h.MayTrap → traps 0x09 base) ∧
    (∀ c u, ¬ waits → base % 65536 = 0 → h.MayTrap →
      s.probe1 (h.who s.cur) { e := 0, va := base, n := 0x898000, k := .r, al := 1 } = some (c, u) → traps c.code u) ∧
    (¬ waits → FrameRange s h base .r pa → (s.stn (stnOf s.cur)).dirty = [] → (∀ q o, regionOf (pa 0) ≠ .dev q o) →
      (s.frameInfo (pa 0 / 65536)).slot = none →
      (h.MayTrap → word 0 4 ≠ 0x4C584652 ∨ word 4 2 ≠ 1 ∨ (∀ f ∈ s.frames, f.gen = gen → f.consumed = true) →
        traps 0x12 base) ∧
      ∀ f ∈ s.frames, (∀ q ∈ s.frames, q.gen = f.gen → q = f) → word 0 4 = 0x4C584652 → word 4 2 = 1 →
        f.gen = gen → f.consumed = false → f.saver = word 6 2 → (s.ctx f.ctx).live = true → (s.ctx f.ctx).gen = f.ctxGen →
        (∀ k i, f.hart.gang = some (k, i) → k / 256 % 256 ≠ dieOf s.cur → h.MayTrap → traps 0x11 (k % 256)) ∧
        (f.hart.gang = none → h.idleQueues = false → ∃ t, exec (.vframeRestore d a) s = .next t ∧ t.frames = s.frames ∧
          ∃ h', t.hart? s.cur = some h' ∧ h'.pc = h.pc ∧ h'.g = h.g ∧ h'.ctx = h.ctx) ∧
        (f.hart.gang = none → h.idleQueues = true → f.tiles = [] → f.hart.gcount ≤ 1 → f.hart.gneed ≤ 1 →
          f.hart.frozen = none → (∃ g, h.groups.filter (fun g => g.idx == 0) = [g]) →
          ∃ t h', exec (.vframeRestore d a) s = .next t ∧ t.hart? s.cur = some h' ∧ h'.pc = h.pc + 4 ∧
            (∀ n, n < 32 → h'.rg n = if n = d ∧ n ≠ 0 then 1 else h.rg n) ∧ h'.f = h.f ∧ h'.trappc = h.trappc ∧
            h'.ctx = f.ctx ∧ h'.svh = f.svh ∧ h'.sup = true ∧ h'.vl = f.hart.vl ∧ h'.vtype = f.hart.vtype ∧
            h'.vcfg = f.hart.vcfg ∧ h'.tshape = f.hart.tshape ∧ h'.tkroute = f.hart.tkroute ∧ h'.srseed = f.hart.srseed ∧
            h'.srctr = f.hart.srctr ∧ h'.fflags = f.hart.fflags ∧ h'.prio = f.hart.prio ∧ h'.sbcap = f.hart.sbcap ∧
            h'.xacc = f.hart.xacc ∧ h'.tok = f.hart.tok ∧ h'.ilk = f.hart.ilk ∧ h'.mq = f.hart.mq ∧ h'.sq = f.hart.sq ∧
            (h'.vq.map fun v => v.e) = (f.hart.vq.map fun v => v.e) ∧
            (f.hart.lanes = 256 →
              (∀ o, o < (f.hart.bankBytes 0).length → some (Memory.read s.mem (pa (0x10000 + o))) = (f.hart.bankBytes 0)[o]?) →
              (∀ o, o < (f.hart.maskBytes 0).length → some (Memory.read s.mem (pa (0x20000 + o))) = (f.hart.maskBytes 0)[o]?) →
              h'.v = f.hart.v ∧ h'.m = f.hart.m) ∧ h'.gcount = 1 ∧
            h'.effective =
              some (min 0xFFFFFFFF (max (s.ctx f.ctx).slice (2 * (f.duration + Config.duration s.tick)))) ∧
            (∀ q ∈ t.frames, q.gen ≠ f.gen) ∧ t.mem = s.mem))

/-! ### Encoding (R29 to R51) -/

/-- Words of the encoding tables and of the manual's examples decode to the instructions they stand for. -/
def Obligations.WordsDecode : Prop :=
  decodeTableWord 32 0xD0800400 = some (.sysrd 4 0x040) ∧ decodeTableWord 32 0xD0000013 = some (.trap 1) ∧
  decodeTableWord 32 0xD4490001 = some (.vcfg 2 9) ∧ decodeTableWord 32 0xA0003051 = some (.xstateSave { av := 0, tk := 0, c := 0, msk := 0 } 12) ∧
  decodeTableWord 32 (0b000001 * 2 ^ 26 + 5 * 2 ^ 21 + 6 * 2 ^ 16 + 0xFFFF) = some (.addi 5 6 0xFFFF) ∧
  decodeTableWord 32 0 = none ∧ decodeTableWord 32 (0x2F * 2 ^ 26) = none ∧ decodeTableWord 32 0xFFFFFFFF = none

/-- Every well-formed instruction that has a word is what its word decodes to. -/
def Obligations.DecodeOfEncode : Prop :=
  ∀ i : Instr, i.wf = true → i.encodable = true → decodeTableWord 32 (encode i) = some i

/-- Every word that decodes is the word of the instruction it decodes to, which is well-formed: no bit of a word is
ignored, so reserved and unused fields are 0 (R50). -/
def Obligations.EncodeOfDecode : Prop :=
  ∀ (w : Nat) (i : Instr), decodeTableWord 32 w = some i → i.wf = true ∧ i.encodable = true ∧ encode i = w

/-- The majors 0x00, 0x2F and 0x38 to 0x3F hold no instruction, and a word that is none traps precisely: TRAPVAL is the
word (R50, R51). It is ILLINS, but VILL for a TMERGE with VB above 1 while TSHAPE.TILL is 1, which R50 checks before the
register fields. -/
def Obligations.IllegalWordsTrap : Prop :=
  (∀ w, w < 2 ^ 32 → (w / 2 ^ 26 = 0 ∨ w / 2 ^ 26 = 0x2F ∨ 0x38 ≤ w / 2 ^ 26) → decodeTableWord 32 w = none) ∧
  ∀ (s : State) (h : Hart) (w : Nat), Runs s h → h.MayTrap → w < 2 ^ 32 →
    let traps := fun c => Traps s h (exec (.illegalEncoding w) s) c h.pc (BitVec.ofNat 64 w)
    (tmergeWord w → h.tshape.getLsbD 63 = true → traps 0x04) ∧
    (¬ tmergeWord w ∨ h.tshape.getLsbD 63 = false → traps 0x01)

/-! ### The step of the machine -/

/-- At an instruction boundary with nothing to deliver, a hart that neither waits nor is frozen or held executes the
instruction to which the bytes at its PC decode (R29, R116, R180): `step` is `exec` of it, with caches and TLBs filled,
and the passing of time after it (log 4). Its turn comes from the agenda or in the default order (log 3), unless a die must save
itself first (R393). Its page, and the tables that lead to it, can be reached (R407), the page is not migrated (R357), and a
line that has to be filled finds room in the station cache (R112). Of the caches only copies change: clean lines of the station,
instruction lines of the core, and translations, of which only those of the PC are new. -/
def Obligations.StepRunsDecodedWord : Prop :=
  ∀ (s : State) (id : Nat) (h : Hart) (x : Xlat) (i : Instr), s.hart? id = some h →
    s.hotMove = none →
    (h.takes = true → h.faultDue = none ∧ h.irq = none) → h.frozen = none → h.held = none → h.wait = none →
    s.walkAway (h.fetcher id) h.pc.toNat 4 = false →
    s.probe1 (h.fetcher id) { e := 0, va := h.pc.toNat, n := 4, k := .x, al := 4 } = none →
    s.translate (h.fetcher id) h.pc.toNat = some x → x.pa % 4 = 0 → (s.frameInfo (x.pa / 65536)).slot = none →
    s.reaches (dieOf id) (homeDie x.pa) = true → (s.stn (stnOf id)).full (x.pa / 64) = false →
    decode (littleEndian 4 fun k =>
      match find? (s.core (coreOf id)).icache (x.pa / 64) with
      | some bs => bs.getD (x.pa % 64 + k) 0
      | none => if pathOf x = .cached then s.stationByte (stnOf id) (x.pa + k) else Memory.read s.mem (x.pa + k)) = .ok i →
    ∃ cs st tl, ∀ s1 : State, s1 = { s with cur := id, cores := cs, stations := st, tlb := tl } →
      (∀ k a, s1.stationByte k a = s.stationByte k a) ∧
      (∀ k, { s1.core k with icache := (s.core k).icache } = s.core k) ∧
      (∀ k, { s1.stn k with clean := (s.stn k).clean } = s.stn k) ∧
      (∀ e ∈ tl, e ∈ s.tlb ∨ (e.ctx = h.ctx ∧ e.page = h.pc.toNat / 2 ^ e.size)) ∧
      (∀ l, s.agenda = .hart id :: l → step s = After (exec i { s1 with agenda := l }) State.passes) ∧
      (s.agenda = [] → s.unitMove = none → s.nextTurn = some id →
        step s = After (exec i s1) fun t => (t.after id).passes)

/-- The rest of a step (log 3): an event of the agenda is executed as it stands, a fetch that fails its probe traps with its
cause and address (R180, R65), an engine fault comes before an interrupt and both before the word (R180), and a frozen or
held hart stays where it is; all this while no die must save itself (R393). -/
def Obligations.StepAtBoundary : Prop :=
  ∀ (s : State) (l : List Act), s.hotMove = none →
    (∀ e, s.agenda = .event e :: l → step s = After (exec e { s with agenda := l }) State.passes) ∧
    ∀ (id : Nat) (h : Hart), s.agenda = .hart id :: l → s.hart? id = some h →
      let s1 : State := { s with cur := id, agenda := l }
      (h.takes = true → h.faultDue ≠ none → step s = After (exec (.takeEngineFault id) s1) State.passes) ∧
      (h.takes = true → h.faultDue = none → h.irq ≠ none → step s = After (exec (.takeInterrupt id) s1) State.passes) ∧
      ((h.takes = true → h.faultDue = none ∧ h.irq = none) → h.frozen ≠ none ∨ h.held ≠ none → step s = .next s1.passes) ∧
      (∀ c u, (h.takes = true → h.faultDue = none ∧ h.irq = none) → h.frozen = none → h.held = none → h.wait = none →
        s.walkAway (h.fetcher id) h.pc.toNat 4 = false →
        s.probe1 (h.fetcher id) { e := 0, va := h.pc.toNat, n := 4, k := .x, al := 4 } = some (c, u) → h.MayTrap →
        ∃ t, step s = .next t.passes ∧ Traps s1 h (.next t) c.code h.pc (BitVec.ofNat 64 u))

/-- What the manual gives the package at reset (R27, R365, R373, R408, R410, R414, R418): no hart, no live context, stations
on with all groups ungated, pools disabled, links and ports training; and a register of each map. The invariants of the model hold. -/
def Obligations.ResetValues : Prop :=
  let s := State.reset
  (∀ id, s.hart? id = none) ∧ (∀ c, (s.ctx c).live = false) ∧
  (∀ k, (s.stn k).state = 0 ∧ (s.stn k).chperm = 0xFF ∧ (s.stn k).margin = 16 ∧ (s.stn k).guardNs = 2000 ∧
    (s.stn k).interval = 1000 ∧ (s.stn k).dirty = [] ∧ (s.stn k).clean = [] ∧
    (s.stn k).awake = true ∧ (s.stn k).gated = []) ∧
  (∀ d j, j < 2 → (s.link d j).state = 1 ∧ (s.link d j).modup = 0) ∧ (∀ p, (s.port p).state = 1) ∧
  (∀ d p, p < 2 → (s.pool d p).enabled = false ∧ (s.pool d p).ratio = 16 ∧ (s.pool d p).wlow = 0x40000 ∧
    (s.pool d p).wcrit = 0x10000) ∧
  (∀ k t, t < 4 → ∃ T : Tile, (s.core k).tiles[t]? = some T ∧ T.held = none ∧ T.acc = []) ∧
  s.pkg.boot = 0 ∧ s.pkg.hevt = 0 ∧ s.pkg.hevten = 0 ∧ s.pkg.svcst = 0 ∧ (∀ d, (s.die d).wcmdst = 0 ∧ (s.die d).held = []) ∧
  s.Inv ∧ s.OneSupervisor ∧ s.TilesOk

/-- Every step keeps the invariant: memory in its canonical form (log 1), and bits [1:0] of every PC 0 (R29: every write
of the PC clears them). -/
def Obligations.StepKeepsInv : Prop := ∀ s t : State, s.Inv → step s = .next t → t.Inv

/-- Every step keeps the rule of R152 that a context has at most one supervisor hart: SYSWR to STATUS, SPAWN, START and
VFRAME.RESTORE are what gives a hart SVH. -/
def Obligations.StepKeepsOneSupervisor : Prop := ∀ s t : State, s.OneSupervisor → step s = .next t → t.OneSupervisor

/-- Every step keeps the form of the tiles (log 20): accumulators that are not 0, by position, each of 136 bits (R256). -/
def Obligations.StepKeepsTiles : Prop := ∀ s t : State, s.TilesOk → step s = .next t → t.TilesOk

/-! ### Vector configuration, steps, hints (R75 to R84, R169, R374 to R379, R367, R368) -/

/-- VSETVL (R81, R38): a refused type, or one with no element in a lane, leaves VTYPE illegal, VL 0 and gD 0; a length 0
gives VL 0 and keeps the grant; a gang member keeps its groups, and a hart alone on its station is given all the groups
that its length needs, up to 64. Beside other harts, also after a spill, the Yard's cap is that of R80: 1 while a hart of a
higher priority lacks groups, a share of the pool while one of the same priority does, and else 64; a larger grant shrinks to it
at once, but keeps every group while a strip is open (R252), and a smaller one grows to it where enough groups are free and no
refill claims them. VL is then the shorter of the length asked for and the capacity, and gD is VL. Registers stay as they are
when the grant is unchanged, no group awaits refill and no older re-deal is pending. -/
def Obligations.VsetvlGrants : Prop :=
  ∀ (s : State) (h : Hart) (d a b : Nat), Runs s h → d < 32 → a < 32 → b < 32 →
    let vt := h.rg b
    let rl := fieldOf (h.rg a) 0 32
    let e := elementsPerLane h.vcfg vt
    let o := exec (.vsetvl d a b) s
    let set := fun (n : Nat) (t : W64) (q : Hart) => { (q.setG d (BitVec.ofNat 64 n)).moved with vl := n, vtype := t }
    (RefusedType vt ∨ e = 0 → OnlyHart s o (set 0 0x1000000000 h)) ∧
    (¬ RefusedType vt → e ≠ 0 → rl = 0 → OnlyHart s o { set 0 vt h with deficit := 0 }) ∧
    (¬ RefusedType vt → e ≠ 0 → rl ≠ 0 → h.gang = none → h.vq.length < 64 →
      let here := s.harts.filter fun p => decide (stnOf p.1 = stnOf s.cur)
      let lacking := here.filter fun p => p.1 != s.cur && p.2.active && decide (0 < p.2.deficit)
      let above := ((here.filter fun p => decide (h.prio < p.2.prio)).map fun p => p.2.heldGroups.length).sum
      let absent := 16 - (here.filter fun p => decide (h.prio ≤ p.2.prio)).length
      let peers := (here.filter fun p => (p.2.active || p.1 == s.cur) && p.2.prio == h.prio).length
      let cap := if lacking.any fun p => decide (h.prio < p.2.prio) then 1
        else if lacking.any fun p => p.2.prio == h.prio then max 1 ((256 - above - absent) / peers) else 64
      let want := min 64 ((rl + 256 * e - 1) / (256 * e))
      let held := (h.groups.filter fun g => g.st != .spilled).length
      let target := min want cap
      let free := ((List.range 256).filter fun n => decide (4 ≤ n % 64) && !(here.any fun p => p.2.groups.any fun g =>
        g.st != .spilled && 64 * g.core + g.grp == n)).length
      ∀ G, (if target < held then G = if h.stripOpen then held else target
            else G = target ∧ target - held ≤ free ∧ ∀ p ∈ here, p.1 ≠ s.cur → p.2.refilling = false) →
        ∃ t h', o = .next t ∧ t.hart? s.cur = some h' ∧ (∀ j, j ≠ s.cur → t.hart? j = s.hart? j) ∧
          h'.vl = min rl (256 * G * e) ∧ h'.vtype = vt ∧ h'.vgrant = vgrantOf G (want - G) ∧ h'.deficit = want - G ∧
          h'.groups.length = G ∧ h'.pc = h.pc + 4 ∧
          (∀ n, n < 32 → h'.rg n = if n = d ∧ n ≠ 0 then BitVec.ofNat 64 h'.vl else h.rg n) ∧ t.mem = s.mem) ∧
    (¬ RefusedType vt → e ≠ 0 → rl ≠ 0 → (∀ g ∈ h.groups, g.st ≠ .spilled) → (∀ v ∈ h.vq, v.redeal = none) →
      (h.gang ≠ none → OnlyHart s o { set (min rl (256 * h.gcount * e)) vt h with vgrant := vgrantOf h.gcount h.deficit }) ∧
      (h.gang = none → h.stripOpen = false → (∀ p ∈ s.harts, stnOf p.1 = stnOf s.cur → p = (s.cur, h)) →
        let G := min 64 ((rl + 256 * e - 1) / (256 * e))
        (h.gcount ≠ G → h.vq.length = 64 → o = .next s) ∧
        (h.gcount = G ∨ h.vq.length < 64 →
          ∃ t h', o = .next t ∧ t.hart? s.cur = some h' ∧ h'.vl = min rl (256 * G * e) ∧ h'.vtype = vt ∧
            h'.vgrant = vgrantOf G 0 ∧ h'.groups.length = G ∧ h'.pc = h.pc + 4 ∧
            (∀ n, n < 32 → h'.rg n = if n = d ∧ n ≠ 0 then BitVec.ofNat 64 h'.vl else h.rg n) ∧
            (h.gcount = G → h'.v = h.v ∧ h'.m = h.m ∧ h'.vq = h.vq) ∧ t.mem = s.mem)))

/-- VCFG (R76, R317): ILLINS in an open strip, and with a binding open when VCFG would change; a refused value leaves VTYPE
illegal; the present value gives VLMAX; a new value makes VL 0 and every register untagged, and drops the clean lane lines of the banks that pass to the
register file, no other. It waits for older users of the registers. -/
def Obligations.VcfgSets : Prop :=
  ∀ (s : State) (h : Hart) (d a : Nat), Runs s h → d < 32 → a < 32 →
    let x := h.rg a
    let o := exec (.vcfg d a) s
    let w : Nat := 0x35 * 2 ^ 26 + d * 2 ^ 21 + a * 2 ^ 16 + 1
    let bad := fieldOf x 13 51 ≠ 0 ∨ fieldOf x 2 6 ≠ 0 ∨ fieldOf x 0 2 = 3 ∨ fieldOf x 8 5 < 4 ∨ 16 < fieldOf x 8 5
    let illegal := Traps s h o 0x01 h.pc (BitVec.ofNat 64 w)
    (h.stripOpen = true → h.MayTrap → illegal) ∧
    (h.stripOpen = false →
      (bad → OnlyHart s o { (h.setG d 0).moved with vtype := 0x1000000000, vl := 0 }) ∧
      (¬ bad → x = h.vcfg → WritesG s h o d (BitVec.ofNat 64 (vlmaxOf x h.vtype))) ∧
      (¬ bad → x ≠ h.vcfg →
        (h.bindingOpen = true → h.MayTrap → illegal) ∧ (h.bindingOpen = false → h.regsBusy = true → o = .next s) ∧
        (h.bindingOpen = false → h.regsBusy = false →
          ∃ t h', o = .next t ∧ t.hart? s.cur = some h' ∧ h'.vcfg = x ∧ h'.vl = 0 ∧
            (∀ l, l ∈ h'.lcache ↔ l ∈ h.lcache ∧ l.pos < (16 - fieldOf x 8 5) * 64) ∧
            (∀ n, n < 32 → (vreg h'.v n).tag = none) ∧ h'.vtype = h.vtype ∧ h'.vgrant = h.vgrant ∧ h'.groups = h.groups ∧
            h.WroteG { h' with v := h.v, m := h.m, vcfg := h.vcfg, vl := h.vl, lcache := h.lcache } d
              (BitVec.ofNat 64 (vlmaxOf x h.vtype)) (h.pc + 4) ∧
            { t with harts := s.harts, fresh := s.fresh } = s)))

/-- VMREAD gives the mask elements gB to gB + 63, those below VL, and VMPOPC the number of true ones below VL, once the
older instructions that write the mask have retired (R169). -/
def Obligations.MaskReads : Prop :=
  ∀ (s : State) (h : Hart) (d m b : Nat), Runs s h → d < 32 → m < 8 → b < 32 →
    (h.maskBusy m = true → exec (.vmread d m b) s = .next s ∧ exec (.vmpopc d m) s = .next s) ∧
    (h.maskBusy m = false →
      (∃ v : W64, WritesG s h (exec (.vmread d m b) s) d v ∧
        ∀ k, k < 64 → v.getLsbD k = (decide ((h.rg b).toNat + k < h.vl) && maskBit h m ((h.rg b).toNat + k))) ∧
      WritesG s h (exec (.vmpopc d m) s) d (BitVec.ofNat 64 (((List.range h.vl).map fun e => bitOf (maskBit h m e)).sum)))

/-- STEP.BEGIN, STEP.END and STEP.QUERY (R377 to R379): the refusals in their order, the opening of a step with the learned
work and rate, its end with LATE and the entry written first into the table of 64, and the time that remains. That STEP.BEGIN
itself counts as the first element-beat of its step, so that `done` is 1 after it where the pseudocode sets 0, is the model's
reading of R375 (log 19). -/
def Obligations.StepInstructions : Prop :=
  ∀ (s : State) (h : Hart) (d a b : Nat), Runs s h → d < 32 → a < 32 → b < 32 →
    let x := h.rg a
    let y := h.rg b
    let T := s.stn (stnOf s.cur)
    let drc : Int := s.drc (stnOf s.cur)
    let tag := fieldOf (h.rg d) 0 32
    let begin_ := exec (.stepBegin d a b) s
    let opened := h.stepid.getLsbD 63 = true
    (opened → WritesG s h begin_ d 0x8000000000000001) ∧
    (¬ opened → fieldOf x 40 24 ≠ 0 → WritesG s h begin_ d 0x8000000000000002) ∧
    (¬ opened → fieldOf x 40 24 = 0 → fieldOf y 48 16 ≠ 0 → WritesG s h begin_ d 0x8000000000000003) ∧
    (¬ opened → fieldOf x 40 24 = 0 → fieldOf y 48 16 = 0 →
      let e := T.learn.find? fun l => l.ctx == h.ctx && l.tag == tag
      let id : W64 := BitVec.ofNat 64 (2 ^ 63 + (fieldOf h.stepid 32 16 + 1) % 2 ^ 16 * 2 ^ 32 + tag)
      ∃ h', OnlyHart s begin_ h' ∧ h'.stepid = id ∧ h'.dlslack = BitVec.ofInt 64 ((x.toNat : Int) - (T.guardNs : Int)) ∧
        h'.step = some (StepRec.mk (drc + x.toNat) (if y = 0 then e.map Learn.work else some y.toNat)
          ((e.map Learn.rate).getD (256 * h.gcount)) 1 0) ∧
        h.WroteG { h' with stepid := h.stepid, dlslack := h.dlslack, step := h.stepOne } d id (h.pc + 4)) ∧
    (h.idleQueues = false → exec (.stepEnd d) s = .next s) ∧
    (h.idleQueues = true → h.step = none → WritesG s h (exec (.stepEnd d) s) d 0x8000000000000000) ∧
    (∀ r, h.idleQueues = true → h.step = some r →
      ∃ t h', exec (.stepEnd d) s = .next t ∧ t.hart? s.cur = some h' ∧ h'.step = none ∧
        h'.dlslack = 0x7FFFFFFFFFFFFFFF ∧ h'.stepid.getLsbD 63 = false ∧
        h'.stepid.getLsbD 61 = decide (r.d < drc) ∧ h'.stepid.getLsbD 62 = h.stepid.getLsbD 62 ∧
        fieldOf h'.stepid 0 48 = fieldOf h.stepid 0 48 ∧
        h.WroteG { h' with stepid := h.stepid, dlslack := h.dlslack, step := h.stepOne } d (BitVec.ofInt 64 (r.d - drc)) (h.pc + 4) ∧
        (t.stn (stnOf s.cur)).learn.head? =
          some (Learn.mk h.ctx (fieldOf h.stepid 0 32) r.done (max 1 (min 0xFFFF (256 * r.done / max r.c 1)))) ∧
        (t.stn (stnOf s.cur)).learn.length ≤ 64 ∧
        (∀ j, j ≠ s.cur → t.hart? j = s.hart? j) ∧ { t with harts := s.harts, stations := s.stations } = s) ∧
    WritesG s h (exec (.stepQuery d) s) d (match h.step with
      | some r => BitVec.ofInt 64 (r.d - drc)
      | none => 0x8000000000000000)

/-- WEIR.HINT and WEIR.QUERY (R367, R368): COLD of each lossless frame of an enabled pool that the run of pages reaches
becomes gB[32], and gD counts them; the report of the frame behind one address, or bit 63 alone when there is none. Neither
traps; a walk that cannot reach a table makes them wait (R407). -/
def Obligations.WeirHintAndQuery : Prop :=
  ∀ (s : State) (h : Hart) (d a b : Nat), Runs s h → d < 32 → a < 32 → b < 32 →
    let frame := fun va : Nat =>
      match s.walk h.ctx (dieOf s.cur) false va with
      | some x => if x.pte.testBit 1 ∧ (h.sup = true ∨ x.pte.testBit 4) then some (x.pa / 65536) else none
      | none => none
    let inPool := fun fr : Nat => match regionOf (fr * 65536) with
      | .pool q p => if s.exists? (fr * 65536) = true ∧ (s.pool q p).enabled = true then some (q, p) else none
      | _ => none
    let cnt := min (fieldOf (h.rg b) 0 32) 65536
    let base := (h.rg a).toNat / 65536 * 65536
    let hit := fun i : Nat => (frame ((base + i * 65536) % 2 ^ 64)).bind fun fr =>
      if (inPool fr).isSome = true ∧ (s.frameInfo fr).lossless = true then some fr else none
    ((∃ i, i < cnt ∧ s.rootAway h.ctx (dieOf s.cur) ((base + i * 65536) % 2 ^ 64) = true) → exec (.weirHint d a b) s = .next s) ∧
    (s.rootAway h.ctx (dieOf s.cur) (h.rg a).toNat = true → exec (.weirQuery d a) s = .next s) ∧
    ((∀ i, i < cnt → s.rootAway h.ctx (dieOf s.cur) ((base + i * 65536) % 2 ^ 64) = false) →
      ∃ t h', exec (.weirHint d a b) s = .next t ∧ t.hart? s.cur = some h' ∧ (∀ j, j ≠ s.cur → t.hart? j = s.hart? j) ∧
      h.WroteG h' d (BitVec.ofNat 64 ((List.range cnt).filter fun i => (hit i).isSome).length) (h.pc + 4) ∧
      t.mem = s.mem ∧ { t with harts := s.harts, dies := s.dies } = s ∧
      ∀ fr, ((∃ i, i < cnt ∧ hit i = some fr) → t.frameInfo fr = { s.frameInfo fr with cold := (h.rg b).getLsbD 32 }) ∧
        (¬ (∃ i, i < cnt ∧ hit i = some fr) → t.frameInfo fr = s.frameInfo fr)) ∧
    (s.rootAway h.ctx (dieOf s.cur) (h.rg a).toNat = false → WritesG s h (exec (.weirQuery d a) s) d (match (frame (h.rg a).toNat).bind fun fr => (inPool fr).map fun p => (fr, p) with
      | none => 0x8000000000000000
      | some (fr, q, p) =>
        let f := s.frameInfo fr
        let P := s.pool q p
        BitVec.ofNat 64 (f.sectors + (if f.lossless then 2 ^ 8 else 0) + p * 2 ^ 9 + (if f.cold then 2 ^ 10 else 0) +
          (if f.slot ≠ none then 2 ^ 11 else 0) + (if f.maxeff then 2 ^ 12 else 0) +
          (if P.wlow ≤ P.free then 0 else if P.wcrit ≤ P.free then 1 else 2) * 2 ^ 16 + q * 2 ^ 32)))

/-! ### Vector and block-scale instructions (R16, R46, R47, R184 to R223, R283 to R297) -/

/-- Every word of the vector and block-scale majors (R16, R17, R31, R50, R191 to R194): VILL and a register field that R40
refuses trap precisely; a full queue stalls it; otherwise it is dispatched with what it captures, or, when the queues hold
nothing that it waits for and no other hart of the station wants the lanes, runs whole, in the order that the model chose
(log 3). It then writes no v-register, mask or
accumulator but those of its destination, no g- or f-register and no memory, and only ORs flags. `vecSpec` names the words:
VADD, VSUB, VRSUB, VMIN, VMAX, VAND, VOR, VXOR, VSLL, VSRL, VSRA, VSADD, VSSUB, VAVG, VABS, VNEG, VMUL, VMULH, VMACC, VDIV,
VREM, VSMUL, VEXP2, VLOG2, VSEQ, VSNE, VSLT, VSLE, VSGT, VSGE, VSEL, VMV, VCVT, VMAND, VMOR, VMXOR, VMANDN, VMNOT, VSLIDEUP,
VSLIDEDN, VPERM, VCOMPRESS, VIOTA, VINDEX, VCONFL, VRED, VSCAN, VREDO.F, VREDX, MXQ, MXDQ, FCVT.V, BSEXP, SRSEED, SRSKIP,
XACC.CLR, XACC.ADD, XACC.RD, in their V and VX forms. -/
def Obligations.VectorWordsComplete : Prop :=
  ∀ (s : State) (h : Hart) (i : Instr) (x : VSpec), Runs s h → vecSpec i = some x →
    let g := 2 ^ fieldOf h.vtype 22 2
    let r := h.vecEntry i x.hdr (x.cls.map FU.code) (x.regs g).rd (x.capturesSr h.vtype)
    let ready := x.ready s s.cur (x.atDispatch r.1 r.2.gb) r.2
    let legal := vecCheck h x = none
    (h.vtype.getLsbD 36 = true → h.MayTrap → Traps s h (exec i s) 0x04 h.pc (BitVec.ofNat 64 (encode i))) ∧
    (h.vtype.getLsbD 36 = false → (∃ k ∈ x.vf, 8 * 2 ^ fieldOf h.vcfg 0 2 ≤ k ∨ k % g ≠ 0) → h.MayTrap →
      Traps s h (exec i s) 0x01 h.pc (BitVec.ofNat 64 (encode i))) ∧
    (legal → 64 ≤ h.vq.length → exec i s = .next s) ∧
    (legal → h.vq.length < 64 → ready = false →
      ∃ h' v, OnlyHart s (exec i s) h' ∧ h'.pc = h.pc + 4 ∧ h'.vq = h.vq ++ [v] ∧ v.e.op = i ∧ v.e.pc = h.pc ∧
        v.e.vl = h.vl ∧ v.e.vtype = h.vtype ∧ v.e.tshape = h.tshape ∧ v.e.tkroute = h.tkroute ∧ v.e.sup = h.sup ∧
        v.e.progress = 0 ∧ v.e.started = false ∧ h'.g = h.g ∧ h'.f = h.f ∧ h'.v = h.v ∧ h'.m = h.m ∧ h'.xacc = h.xacc ∧
        h'.fflags = h.fflags ∧ h'.tok = h.tok) ∧
    (legal → ready = true → h.frozen = none →
      ∃ h', VecRan s h (exec i s) h' ∧ (∀ b, h.fflags.testBit b = true → h'.fflags.testBit b = true) ∧
        (∀ k, k < 32 → (∀ d ∈ x.wr, ¬ (d ≤ k ∧ k < d + g)) → (∀ d ∈ x.wrPair, ¬ (d ≤ k ∧ k < d + 2 * g)) →
          vreg h'.v k = vreg h.v k) ∧
        (∀ k, k < 8 → k ∉ x.mwr → mreg h' k = mreg h k) ∧
        (∀ k : Nat, k < 4 → k ∉ x.xf → h'.xacc[k]? = h.xacc[k]?))

/-- The integer operations element by element (R203, R204), under KIND 0 and 1, in V and VX form: the exact result stored by
write() or clamp() of R203, the raw bits for the logical operations and the shifts. SV rises with saturation. An operand of
another tag width is read extended, by the sign under a signed kind and else by zeros, or truncated (R188). -/
def Obligations.VectorIntegerResults : Prop :=
  (∀ (h : Hart) (k g w e : Nat) (sgn : Bool), 1 ≤ w →
    ((vreg h.v k).tag = none → readInt h k g w sgn e = readElem h.v h.geo k g w e) ∧
    ∀ T, (vreg h.v k).tag = some T → 1 ≤ T.w →
      let x := readElem h.v h.geo k g T.w e
      readInt h k g w sgn e =
        if w ≤ T.w then x % 2 ^ w
        else if sgn = true ∧ x.testBit (T.w - 1) = true then x % 2 ^ T.w + (2 ^ w - 2 ^ T.w) else x % 2 ^ T.w) ∧
  ∀ (s : State) (h : Hart) (hd : VHdr) (d a b : Nat), Runs s h → VecReady s h hd → fieldOf h.vtype 18 4 < 2 →
    RegField h d → RegField h a → b < 32 →
    let vt := h.vtype
    let wd := fieldOf vt 0 6 + 1
    let wa := fieldOf vt 6 6 + 1
    let wb := fieldOf vt 12 6 + 1
    let sat := vt.getLsbD 29
    let X := intElem h a wa
    let D := intElem h d wd
    let S := fun _ : Nat => intScalar h b wb
    let V := intElem h b wb
    let raw := fun z : Int => (z % 2 ^ wd).toNat
    let act := h.activeElem hd
    let half := fun z : Int => z / 2
    let stores := fun (i : Instr) (c : Bool) (z : Nat → Int) => ∃ h', VecRan s h (exec i s) h' ∧
      WroteRow h h' d act (fun e => (storeInt vt c (z e)).1) ∧
      FlagIff h h' 5 (∃ e, act e ∧ (storeInt vt c (z e)).2 = true)
    let puts := fun (i : Instr) (x : Nat → Nat) => ∃ h', VecRan s h (exec i s) h' ∧ WroteRow h h' d act x ∧
      h'.fflags = h.fflags
    let divides := fun (i : Instr) (Y : Nat → Int) (z : Nat → Int) (zero : Nat → Int) => ∃ h', VecRan s h (exec i s) h' ∧
      WroteRow h h' d act (fun e => (storeInt vt (decide (Y e = 0) || sat) (if Y e = 0 then zero e else z e)).1) ∧
      (h'.fflags.testBit 1 = true ↔ h.fflags.testBit 1 = true ∨ ∃ e, act e ∧ Y e = 0)
    let sh := fun (i j k : Instr) (n : Nat → Nat) =>
      puts i (fun e => if wd ≤ n e then 0 else raw (X e) * 2 ^ n e % 2 ^ wd) ∧
      puts j (fun e => if wd ≤ n e then 0 else raw (X e) / 2 ^ n e) ∧
      puts k (fun e => raw (sx wd (raw (X e)) / 2 ^ min (n e) wd))
    (RegField h b →
      stores (.vaddV hd d a b) sat (fun e => X e + V e) ∧ stores (.vsubV hd d a b) sat (fun e => X e - V e) ∧
      stores (.vminV hd d a b) sat (fun e => min (X e) (V e)) ∧ stores (.vmaxV hd d a b) sat (fun e => max (X e) (V e)) ∧
      stores (.vmulV hd d a b) sat (fun e => X e * V e) ∧ stores (.vmulhV hd d a b) sat (fun e => X e * V e / 2 ^ wd) ∧
      stores (.vmaccV hd d a b) sat (fun e => D e + X e * V e) ∧
      stores (.vsaddV hd d a b) true (fun e => X e + V e) ∧ stores (.vssubV hd d a b) true (fun e => X e - V e) ∧
      stores (.vsmulV hd d a b) true (fun e => X e * V e) ∧
      (fieldOf vt 26 3 = 2 → stores (.vavgV hd d a b) sat (fun e => half (X e + V e))) ∧
      puts (.vandV hd d a b) (fun e => raw (X e) &&& raw (V e)) ∧ puts (.vorV hd d a b) (fun e => raw (X e) ||| raw (V e)) ∧
      puts (.vxorV hd d a b) (fun e => raw (X e) ^^^ raw (V e)) ∧
      divides (.vdivV hd d a b) V (fun e => (X e).tdiv (V e)) (fun e => (X e).sign * 2 ^ 64) ∧
      divides (.vremV hd d a b) V (fun e => (X e).tmod (V e)) (fun _ => 0) ∧
      sh (.vsllV hd d a b) (.vsrlV hd d a b) (.vsraV hd d a b)
        (fun e => readInt h b (2 ^ fieldOf vt 22 2) wb false e)) ∧
    stores (.vaddVX hd d a b) sat (fun e => X e + S e) ∧ stores (.vsubVX hd d a b) sat (fun e => X e - S e) ∧
    stores (.vrsub hd d a b) sat (fun e => S e - X e) ∧
    stores (.vminVX hd d a b) sat (fun e => min (X e) (S e)) ∧ stores (.vmaxVX hd d a b) sat (fun e => max (X e) (S e)) ∧
    stores (.vmulVX hd d a b) sat (fun e => X e * S e) ∧ stores (.vmulhVX hd d a b) sat (fun e => X e * S e / 2 ^ wd) ∧
    stores (.vmaccVX hd d a b) sat (fun e => D e + X e * S e) ∧
    stores (.vsaddVX hd d a b) true (fun e => X e + S e) ∧ stores (.vssubVX hd d a b) true (fun e => X e - S e) ∧
    stores (.vsmulVX hd d a b) true (fun e => X e * S e) ∧
    (fieldOf vt 26 3 = 2 → stores (.vavgVX hd d a b) sat (fun e => half (X e + S e))) ∧
    puts (.vandVX hd d a b) (fun e => raw (X e) &&& raw (S e)) ∧ puts (.vorVX hd d a b) (fun e => raw (X e) ||| raw (S e)) ∧
    puts (.vxorVX hd d a b) (fun e => raw (X e) ^^^ raw (S e)) ∧
    divides (.vdivVX hd d a b) S (fun e => (X e).tdiv (S e)) (fun e => (X e).sign * 2 ^ 64) ∧
    divides (.vremVX hd d a b) S (fun e => (X e).tmod (S e)) (fun _ => 0) ∧
    sh (.vsllVX hd d a b) (.vsrlVX hd d a b) (.vsraVX hd d a b) (fun _ => (h.rg b).toNat) ∧
    stores (.vabs hd d a) sat (fun e => (X e).natAbs) ∧ stores (.vneg hd d a) sat (fun e => -(X e)) ∧
    stores (.vmvV hd d a) sat X ∧ stores (.vmvVX hd d b) sat S

/-- Compares, mask operations, selection, permutes, reductions and scans under KIND 0 and 1 (R209 to R211, R213 to R219,
R221). A permute whose destination is a source leaves it undefined (R194) and is not stated. -/
def Obligations.VectorRowResults : Prop :=
  ∀ (s : State) (h : Hart) (hd : VHdr) (d a b m op : Nat), Runs s h → VecReady s h hd → fieldOf h.vtype 18 4 < 2 →
    RegField h a → b < 32 → m < 8 →
    let vt := h.vtype
    let wd := fieldOf vt 0 6 + 1
    let wa := fieldOf vt 6 6 + 1
    let wb := fieldOf vt 12 6 + 1
    let g := 2 ^ fieldOf vt 22 2
    let sat := vt.getLsbD 29
    let X := intElem h a wa
    let S := intScalar h b wb
    let V := intElem h b wb
    let raw := fun z : Int => (z % 2 ^ wd).toNat
    let act := h.activeElem hd
    let actB := fun e => hd.msk == 0 || maskBit h hd.msk e
    let row := (List.range h.vl).filter actB
    let put := fun z => (storeInt vt sat z).1
    let k := (h.rg b).toNat
    let writes := fun (i : Instr) (w : Nat → Prop) (x : Nat → Nat) => ∃ h', VecRan s h (exec i s) h' ∧ WroteRow h h' d w x
    let cmp := fun (v vx : Instr) (r : Int → Int → Prop) => (RegField h b → SetsMask s h hd d (exec v s) fun e => r (X e) (V e)) ∧
      SetsMask s h hd d (exec vx s) fun e => r (X e) S
    let lo : Int := if kindSigned (fieldOf vt 18 4) then -(2 ^ (wd - 1)) else 0
    let hi : Int := if kindSigned (fieldOf vt 18 4) then 2 ^ (wd - 1) - 1 else 2 ^ wd - 1
    let comb := fun l : List Nat => match op with
      | 0 => put (l.map X).sum
      | 1 => put (foldFrom min hi (l.map X))
      | 2 => put (foldFrom max lo (l.map X))
      | 3 => foldFrom (· &&& ·) (2 ^ wd - 1) (l.map fun e => raw (X e))
      | 4 => foldFrom (· ||| ·) 0 (l.map fun e => raw (X e))
      | _ => foldFrom (· ^^^ ·) 0 (l.map fun e => raw (X e))
    (d < 8 →
      cmp (.vseqV hd d a b) (.vseqVX hd d a b) (· = ·) ∧ cmp (.vsneV hd d a b) (.vsneVX hd d a b) (· ≠ ·) ∧
      cmp (.vsltV hd d a b) (.vsltVX hd d a b) (· < ·) ∧ cmp (.vsleV hd d a b) (.vsleVX hd d a b) (· ≤ ·) ∧
      cmp (.vsgtV hd d a b) (.vsgtVX hd d a b) (· > ·) ∧ cmp (.vsgeV hd d a b) (.vsgeVX hd d a b) (· ≥ ·) ∧
      ∀ n, n < 8 →
        SetsMask s h hd d (exec (.vmand hd d m n) s) (fun e => maskBit h m e = true ∧ maskBit h n e = true) ∧
        SetsMask s h hd d (exec (.vmor hd d m n) s) (fun e => maskBit h m e = true ∨ maskBit h n e = true) ∧
        SetsMask s h hd d (exec (.vmxor hd d m n) s) (fun e => maskBit h m e ≠ maskBit h n e) ∧
        SetsMask s h hd d (exec (.vmandn hd d m n) s) (fun e => maskBit h m e = true ∧ maskBit h n e = false) ∧
        SetsMask s h hd d (exec (.vmnot hd d m) s) (fun e => maskBit h m e = false)) ∧
    (RegField h d →
      (hd.msk ≠ 0 →
        (RegField h b → writes (.vselV hd d a b) (fun e => e < h.vl) fun e => put (if maskBit h hd.msk e then X e else V e)) ∧
        writes (.vselVX hd d a b) (fun e => e < h.vl) (fun e => put (if maskBit h hd.msk e then X e else S)) ∧
        (d ≠ a → writes (.vcompress hd d a) (fun e => e < row.length) fun e => put (X (row.getD e 0)))) ∧
      writes (.vslidedn hd d a b) act (fun e => if e + k < h.vl then put (X (e + k)) else 0) ∧
      (d ≠ a → writes (.vslideup hd d a b) (fun e => act e ∧ k ≤ e) fun e => put (X (e - k))) ∧
      (d ≠ a → d ≠ b → RegField h b → writes (.vperm hd d a b) act fun e =>
        let i := readInt h b g wb false e
        if i < h.vl then put (X i) else 0) ∧
      writes (.viota hd d m) act (fun e => put (((List.range e).filter fun j => maskBit h m j).length : Nat)) ∧
      writes (.vindex hd d) act (fun e => put (e : Nat)) ∧
      (d ≠ a → writes (.vconfl hd d a) act fun e =>
        (storeInt vt true ((((List.range e).filter fun j => actB j && decide (X j = X e)).length : Nat) : Int)).1) ∧
      (op < 6 → writes (.vred hd d a op) (fun e => e = 0) fun _ => comb row) ∧
      (op < 3 → writes (.vscan hd d a op) act fun e => comb (row.filter fun j => decide (j ≤ e)))) ∧
    (d < 4 → fieldOf h.tshape 16 10 = 0 ∨ 512 ≤ fieldOf h.tshape 16 10 → ∃ h', VecRan s h (exec (.vredx hd d a) s) h' ∧
      h'.v = h.v ∧ h'.m = h.m ∧ h'.fflags = h.fflags ∧ (∀ n : Nat, n ≠ d → h'.xacc[n]? = h.xacc[n]?) ∧
      ∃ x : Acc, h.xacc[d]? = some x ∧ h'.xacc[d]? =
        some (x + BitVec.ofInt 136 ((row.map X).sum * 2 ^ ((1024 - fieldOf h.tshape 16 10) % 1024))))

/-- Float elements and the block-scale unit (R205 to R208, R212, R220, R222, R223, R287 to R297), with the flags that reach
FFLAGS. The arithmetic of finite elements, in V and VX form, is the exact result as FloatResult forms it; VEXP2 and VLOG2 follow
their integer procedures, T[j] being 2^(j/64) * 2^30 to the nearest integer and LG the model's table; VREDO.F adds the active
elements in order, rounding each time; VCVT and FCVT.V convert, and FCVT.V copies what is no NaN where the kinds are equal, an
infinity under SAT too (log 48); MXQ, MXDQ and BSEXP work by blocks of 24 or 32 elements, and an infinity in mxint8 is 127/64 with
its sign (log 48). SRSEED and SRSKIP set the generator; XACC.CLR, XACC.ADD and the raw XACC.RD clear, add to and read out an exact
accumulator; an element that XACC.ADD adds exists at 32 bits under the GROUP of VTYPE (log 48). `srBits` is R207's Philox word. -/
def Obligations.VectorFloatAndBlockScale : Prop :=
  ∀ (s : State) (h : Hart) (hd : VHdr) (d a b : Nat), Runs s h → VecReady s h hd → RegField h a → b < 32 →
    let vt := h.vtype
    let V := h.vl
    let g := 2 ^ fieldOf vt 22 2
    let k := fieldOf vt 18 4
    let wa := fieldOf vt 6 6 + 1
    let rm := fieldOf vt 26 3
    let sat := vt.getLsbD 29
    let frac := fieldOf vt 30 6
    let sr := fun e : Nat => if rm = 5 then srBits h.srseed h.srctr e else 0
    let pat := fun (r w e : Nat) => readElem h.v h.geo r g w e
    let w := bitsK k
    let x := pat a w
    let n := numK k
    let neg := signK k
    let z := fun y : Nat => lowK k y = 0
    let sum := fun p q : Nat => if z p ∧ z q ∧ neg p = neg q then neg p else decide (rm = 2)
    let diff := fun p q : Nat => if z p ∧ z q ∧ neg p ≠ neg q then neg p else decide (rm = 2)
    let mul := fun p q : Nat => neg p != neg q
    let row := fun (i : Instr) => FloatRow s h hd d (exec i s)
    -- the arithmetic of R206
    (4 ≤ k → k ≤ 8 → wa = w → TagFits h a w → RegField h d →
      let two := fun (i : Instr) (y : Nat → Nat) (ok : Rat → Prop) (f : Rat → Rat → Rat) (zs : Nat → Nat → Bool) =>
        row i (fun e => finK k (x e) = true ∧ finK k (y e) = true ∧ ok (n (y e))) fun e =>
          FloatOrZero k rm (sr e) sat (f (n (x e)) (n (y e))) (zs (x e) (y e))
      let all := fun (_ : Rat) => True
      let mac := fun (i : Instr) (y : Nat → Nat) => TagFits h d w →
        let c := pat d w
        row i (fun e => finK k (x e) = true ∧ finK k (y e) = true ∧ finK k (c e) = true) fun e =>
          let p := n (x e) * n (y e)
          FloatOrZero k rm (sr e) sat (n (c e) + p)
            (if p = 0 ∧ z (c e) ∧ mul (x e) (y e) = neg (c e) then neg (c e) else decide (rm = 2))
      let S := fun _ : Nat => (h.rg b).toNat % 2 ^ w
      (fieldOf vt 12 6 + 1 = w →
        (RegField h b → TagFits h b w →
          let y := pat b w
          two (.vaddV hd d a b) y all (· + ·) sum ∧ two (.vsubV hd d a b) y all (· - ·) diff ∧
          two (.vmulV hd d a b) y all (· * ·) mul ∧ two (.vdivV hd d a b) y (· ≠ 0) (· / ·) mul ∧ mac (.vmaccV hd d a b) y) ∧
        two (.vaddVX hd d a b) S all (· + ·) sum ∧ two (.vsubVX hd d a b) S all (· - ·) diff ∧
        two (.vrsub hd d a b) S all (fun p q => q - p) (fun p q => diff q p) ∧ two (.vmulVX hd d a b) S all (· * ·) mul ∧
        two (.vdivVX hd d a b) S (· ≠ 0) (· / ·) mul ∧ mac (.vmaccVX hd d a b) S) ∧
      -- VEXP2, VLOG2, VREDO.F
      (k ≤ 6 →
        (row (.vexp2 hd d a) (fun _ => True) fun e y fl =>
          (nanK k (x e) = true → y = quietK k ∧ fl = (snanK k (x e)).toNat) ∧
          (infK k (x e) = true → if neg (x e) then y = 0 ∧ fl = 0 else InfOut k sat false y fl) ∧
          (finK k (x e) = true →
            let c := max (-1024) (min 1024 (n (x e)))
            let F := ⌊(c - ⌊c⌋) * 2 ^ 30⌋.toNat
            let r := F % 2 ^ 24
            let u := r * r / 2 ^ 30
            let p := 2 ^ 30 + 744261118 * r / 2 ^ 30 + 257941248 * u / 2 ^ 30 + 59597083 * (u * r / 2 ^ 30) / 2 ^ 30
            ∃ T : Nat, (2 * T - 1) ^ 64 < 2 ^ (1984 + F / 2 ^ 24) ∧ 2 ^ (1984 + F / 2 ^ 24) < (2 * T + 1) ^ 64 ∧
              FloatOut k rm (sr e) sat (((T * p / 2 ^ 30 : Nat) : Rat) * (2 : Rat) ^ (⌊c⌋ - 30)) y fl)) ∧
        (row (.vlog2 hd d a) (fun _ => True) fun e y fl =>
          (nanK k (x e) = true → y = quietK k ∧ fl = (snanK k (x e)).toNat) ∧
          (nanK k (x e) = false → neg (x e) = true → ¬ z (x e) → y = quietK k ∧ fl = 1) ∧
          (z (x e) → ∃ fo, InfOut k sat true y fo ∧ fl = fo + 2) ∧
          (infK k (x e) = true → neg (x e) = false → InfOut k sat false y fl) ∧
          (finK k (x e) = true → neg (x e) = false → ¬ z (x e) →
            let ex := Int.log 2 (n (x e))
            let M := ⌊(n (x e) * (2 : Rat) ^ (-ex) - 1) * 2 ^ 30⌋.toNat
            let j := M / 2 ^ 24
            let rc := (2 ^ 37 + (64 + j)) / (2 * (64 + j))
            let u : Int := (((2 ^ 30 + M) * rc / 2 ^ 30 : Nat) : Int) - 2 ^ 30
            let q := u * u / 2 ^ 30
            let v : Int := log2Table.getD j 0 + 1549082005 * u / 2 ^ 30 - 774541002 * q / 2 ^ 30 +
              516360668 * (q * u / 2 ^ 30) / 2 ^ 30
            FloatOrZero k rm (sr e) sat ((ex : Rat) + (v : Rat) / 2 ^ 30) false y fl)) ∧
        (TagFits h d w → ∃ (h' : Hart) (acc fl : Nat → Nat), VecRan s h (exec (.vredoF hd d a) s) h' ∧ OnlyV h h' d ∧
          acc 0 = pat d w 0 ∧ readElem h'.v h.geo d g w 0 = acc V ∧
          (∀ f, h'.fflags.testBit f = true ↔ h.fflags.testBit f = true ∨ ∃ e, h.activeElem hd e ∧ (fl e).testBit f = true) ∧
          ∀ e, e < V → (¬ h.activeElem hd e → acc (e + 1) = acc e) ∧
            (h.activeElem hd e → finK k (acc e) = true → finK k (x e) = true →
              FloatOrZero k rm (sr e) sat (n (acc e) + n (x e)) (sum (acc e) (x e)) (acc (e + 1)) (fl e))))) ∧
    -- VCVT from kind b, FCVT.V
    (b ≤ 11 → k ≤ 11 → RegField h d → (4 ≤ b → wa = bitsK b ∧ TagFits h a wa) →
      let fix := fun j : Nat => if j = 2 ∨ j = 3 then frac else 0
      let ri := fun e => readInt h a g wa (kindSigned b) e
      let iv := fun e => (((if kindSigned b then sx wa (ri e) else (ri e : Int)) : Int) : Rat) * (2 : Rat) ^ (-(fix b : Int))
      let q := (2 : Rat) ^ (-(fix k : Int))
      let int := fun (e : Nat) (v : Rat) => ⌊roundAt q rm (sr e) v / q⌋
      let nx := fun (e : Nat) (v : Rat) => if roundAt q rm (sr e) v = v then 0 else 16
      row (.vcvt hd d a b) (fun _ => True) fun e y fl =>
        let p := pat a wa e
        (4 ≤ k → 4 ≤ b → ConvertOut b k rm (sr e) sat p y fl) ∧
        (4 ≤ k → b < 4 → FloatOrZero k rm (sr e) sat (iv e) false y fl) ∧
        (k < 4 → b < 4 → y = (storeInt vt sat (int e (iv e))).1 ∧
          fl = nx e (iv e) + if (storeInt vt sat (int e (iv e))).2 then 32 else 0) ∧
        (k < 4 → 4 ≤ b →
          (nanK b p = true → y = 0 ∧ fl = 1) ∧
          (infK b p = true → y = (storeInt vt true (if signK b p then -(2 ^ 64) else 2 ^ 64)).1 ∧ fl = 1) ∧
          (finK b p = true → y = (storeInt vt true (int e (numK b p))).1 ∧
            fl = if (storeInt vt true (int e (numK b p))).2 then 1 else nx e (numK b p)))) ∧
    (4 ≤ b → b ≤ 11 → 4 ≤ k → k ≤ 11 → RegField h d → wa = bitsK b → TagFits h a wa →
      row (.fcvtV hd d a b) (fun _ => True) fun e y fl =>
        let p := pat a wa e
        if b = k ∧ nanK b p = false then y = p ∧ fl = 0 else ConvertOut b k rm (sr e) sat p y fl) ∧
    -- blocks and their scales
    (fieldOf vt 24 2 ≠ 0 → RegField h d →
      let B := if fieldOf vt 24 2 = 1 then 24 else 32
      let apart := fun p q : Nat => p + g ≤ q ∨ q + g ≤ p
      let nb := (V + B - 1) / B
      let run := fun (i : Instr) (wr : Nat → Prop) (P : Hart → (Nat → Nat) → Prop) => ∃ (h' : Hart) (fl : Nat → Nat),
        VecRan s h (exec i s) h' ∧ h'.m = h.m ∧ h'.xacc = h.xacc ∧ (∀ r, r < 32 → ¬ wr r → vreg h'.v r = vreg h.v r) ∧ P h' fl
      (4 ≤ b → b ≤ 6 → 7 ≤ k → k ≤ 12 → wa = bitsK b → TagFits h a wa → RegField h (d + g) → apart d a → apart (d + g) a →
        d + 2 * g ≤ 8 * 2 ^ fieldOf h.vcfg 0 2 →
        run (.mxq hd d a b) (fun r => d ≤ r ∧ r < d + 2 * g) fun h' fl =>
          h'.srctr = (if rm = 5 then (h.srctr + 1) % 2 ^ 32 else h.srctr) ∧
          (∀ f, h'.fflags.testBit f = true ↔ h.fflags.testBit f = true ∨ ∃ e, h.activeElem hd e ∧ (fl e).testBit f = true) ∧
          ∀ i, i < nb →
            let es := blockOf h hd i
            let xs := es.map (pat a wa)
            let nan := xs.any (nanK b)
            let inf := xs.any (infK b)
            let top := largest b xs
            let X : Int := if top = 0 then -127 else max (-127) (min 127 (Int.log 2 top - emaxK k))
            let bad := nan || inf && !sat
            (es = [] → TagFits h (d + g) 8 → readElem h'.v h.geo (d + g) g 8 i = pat (d + g) 8 i) ∧
            (es ≠ [] → readElem h'.v h.geo (d + g) g 8 i = if bad then 0xFF else (X + 127).toNat) ∧
            ∀ e ∈ es,
              let p := pat a wa e
              let y := readElem h'.v h.geo d g (fieldOf vt 0 6 + 1) e
              let v := numK b p * (2 : Rat) ^ (-X)
              let m := roundAt ((2 : Rat) ^ (-6 : Int)) rm (sr e) v
              (bad = true → y = 0 ∧ fl e = if nan then (xs.any (snanK b)).toNat else 1) ∧
              (bad = false → infK b p = true → fl e = 4 ∧
                y = if k = 12 then (if signK b p then 0x81 else 0x7F) else maxK k (signK b p)) ∧
              (bad = false → finK b p = true → k ≠ 12 → FloatOrZero k rm (sr e) sat v (signK b p) y (fl e)) ∧
              (bad = false → finK b p = true → k = 12 →
                if -2 ≤ m ∧ m < 2 then (y : Int) = ⌊m * 64⌋ % 256 ∧ fl e = (if m = v then 0 else 16)
                else y = (if m < 0 then 0x80 else 0x7F) ∧ fl e = 20)) ∧
      (7 ≤ b → b ≤ 12 → 4 ≤ k → k ≤ 6 → wa = (if b = 12 then 8 else bitsK b) → TagFits h a wa → RegField h (a + g) →
        TagFits h (a + g) 8 → apart d a → apart d (a + g) → a + 2 * g ≤ 8 * 2 ^ fieldOf h.vcfg 0 2 →
        row (.mxdq hd d a b) (fun _ => True) fun e y fl =>
          let p := pat a wa e
          let c := pat (a + g) 8 (e / B)
          let v := if b = 12 then ((sx 8 p : Int) : Rat) / 64 else numK b p
          let nan := b != 12 && nanK b p
          let inf := b != 12 && infK b p
          ((c = 0xFF ∨ nan = true) → y = quietK k ∧ fl = (b != 12 && snanK b p).toNat) ∧
          (c ≠ 0xFF → inf = true → InfOut k sat (signK b p) y fl) ∧
          (c ≠ 0xFF → nan = false → inf = false →
            FloatOrZero k rm (sr e) sat (v * (2 : Rat) ^ ((c : Int) - 127)) (b != 12 && signK b p) y fl)) ∧
      (4 ≤ b → b ≤ 11 → k = 1 → fieldOf vt 0 6 = 7 → wa = bitsK b → TagFits h a wa →
        run (.bsexp hd d a b) (fun r => d ≤ r ∧ r < d + g) fun h' fl =>
          h'.srctr = h.srctr ∧
          (∀ f, h'.fflags.testBit f = true ↔ h.fflags.testBit f = true ∨ ∃ i, i < nb ∧ (fl i).testBit f = true) ∧
          ∀ i, i < nb →
            let es := blockOf h hd i
            let xs := es.map (pat a wa)
            let top := largest b xs
            (es = [] → fl i = 0 ∧ (TagFits h d 8 → readElem h'.v h.geo d g 8 i = pat d 8 i)) ∧
            (es ≠ [] → fl i = (xs.any (snanK b)).toNat ∧ readElem h'.v h.geo d g 8 i =
              if xs.any (nanK b) || xs.any (infK b) then 0xFF else if top = 0 then 0
              else (max 0 (min 254 (Int.log 2 top + 127))).toNat))) ∧
    -- the generator and the exact accumulators
    (∃ h', VecRan s h (exec (.srseed hd b) s) h' ∧ h'.srseed = h.rg b ∧ h'.srctr = 0 ∧ h'.v = h.v ∧ h'.m = h.m ∧
      h'.xacc = h.xacc ∧ h'.fflags = h.fflags) ∧
    (∃ h', VecRan s h (exec (.srskip hd b) s) h' ∧ h'.srseed = h.srseed ∧
      h'.srctr = (h.srctr + fieldOf (h.rg b) 0 32) % 2 ^ 32 ∧ h'.v = h.v ∧ h'.m = h.m ∧ h'.xacc = h.xacc ∧
      h'.fflags = h.fflags) ∧
    (d < 4 →
      let only := fun (i : Instr) (f : Acc → Acc) => ∃ h', VecRan s h (exec i s) h' ∧ h'.v = h.v ∧ h'.m = h.m ∧
        h'.fflags = h.fflags ∧ (∀ n : Nat, n ≠ d → h'.xacc[n]? = h.xacc[n]?) ∧ h'.xacc[d]? = (h.xacc[d]?).map f
      let u := fun j => readInt h a g 32 false j
      only (.xaccClr hd d) (fun _ => 0) ∧
      (32 ≤ g * (fieldOf h.vcfg 8 5 * 128 / (8 * 2 ^ fieldOf h.vcfg 0 2)) → only (.xaccAdd hd d a) (fun x => x + BitVec.ofNat 136
        (u 0 + u 1 * 2 ^ 32 + u 2 * 2 ^ 64 + u 3 * 2 ^ 96 + u 4 % 2 ^ 8 * 2 ^ 128)))) ∧
    (∀ n x, n < 4 → h.xacc[n]? = some x → RegField h d → k = 1 → fieldOf vt 0 6 = 31 → (h.rg b).getLsbD 32 = true →
      let e0 := fieldOf (h.rg b) 0 32
      ∃ h', VecRan s h (exec (.xaccRd hd d n b) s) h' ∧ h'.fflags = h.fflags ∧
        WroteRow h h' d (fun e => e0 ≤ e ∧ e < e0 + 5) fun e => x.toNat / 2 ^ (32 * (e - e0)) % 2 ^ 32)

/-! ### The transform unit (R328 to R346) -/

/-- XDEC decodes its blocks one after the other (R333 to R338): the elements of each block below its N, widened, then zeros
to the end of its chunks; a block that fails stops it with its cause, its offset and its first element, with the blocks
before it written and no other element (R339). Headers, planes, Rice codes, lengths, padding and CRC are those of R328 to
R332, read from the source bytes themselves. -/
def Obligations.BlockDecode : Prop :=
  (crc32c [0x31, 0x32, 0x33, 0x34, 0x35, 0x36, 0x37, 0x38, 0x39] = 0xE3069283 ∧
    crc32c (List.replicate 32 0) = 0x8A9136AA) ∧
  ∀ (s : State) (h : Hart) (hd : VHdr) (d a K : Nat) (off st : Nat → Nat) (el : Nat → Nat → Nat),
    Runs s h → VecReady s h hd → RegField h d → RegField h a → fieldOf h.vtype 6 6 = 7 →
    (let g := 2 ^ fieldOf h.vtype 22 2
     d + g ≤ a ∨ a + g ≤ d) →
    let V := h.vl
    let kind := fieldOf h.vtype 18 4
    let wd := fieldOf h.vtype 0 6 + 1
    let src := fun o : Nat => (BitVec.ofNat 8 (readInt h a (2 ^ fieldOf h.vtype 22 2) 8 false o) : Byte)
    let f := fun i o n : Nat => littleEndian n fun k => src (off i + o + k)
    let bit := fun i t : Nat => (src (off i + 32 + t / 8)).getLsbD (t % 8)
    off 0 = 0 → st 0 = 0 →
    (∀ i, i < K → st i < V ∧ off i + 32 + f i 0x10 4 ≤ V ∧ HeaderLegal (f i) kind wd ∧ HeaderLength (f i) ∧
      BlockGood (f i) (bit i) (el i) ∧ off (i + 1) = off i + 32 + f i 0x10 4 ∧
      st (i + 1) = st i + 256 * ((f i 6 2 + 255) / 256)) →
    let o := exec (.xdec hd d a) s
    let blocks := fun x : Nat → Nat => ∀ i e, i < K → st i ≤ e → e < st (i + 1) →
      x e = if e - st i < f i 6 2 then
        let y := el i (e - st i)
        if kind = 0 ∨ kind = 2 ∨ kind = 12 then (sx (f i 3 1) y % 2 ^ wd).toNat else y
      else 0
    let fails := fun c : Cause => EngineFaultsAfter s h o .vector c (BitVec.ofNat 64 (off K)) (st K) fun h' =>
      (K = 0 → h'.v = h.v) ∧ (0 < K → ∃ x, WroteRow h h' d (fun e => e < st K) x ∧ blocks x)
    (V ≤ st K → ∃ h' x, VecRan s h o h' ∧ h'.fflags = h.fflags ∧ WroteRow h h' d (fun e => e < V) x ∧ blocks x) ∧
    (st K < V →
      (V < off K + 32 ∨ V < off K + 32 + f K 0x10 4 → fails .xfmt) ∧
      (off K + 32 + f K 0x10 4 ≤ V →
        (¬ HeaderLegal (f K) kind wd → fails .xfmt) ∧
        (HeaderLegal (f K) kind wd → ¬ HeaderLength (f K) → fails .xlen) ∧
        ∀ c, HeaderLegal (f K) kind wd → HeaderLength (f K) → BlockBad (f K) (bit K) c → fails c))

/-- XSTATE.SAVE writes the record of R343 for the XDEC that VCP names, or of state 0, at an address that passes its checks
(R343); XSTATE.RESTORE sets the decoder state from a record that R344 accepts and does nothing when no XDEC is named; its
traps. One block and one write step of an XDEC at the head of its queue, as the events take them (R345, R346): it keeps the decoder
state of a block until its elements are written (R342). A restored record whose PLANE or POS is out of range is taken as log
36 says; no clause here speaks of it beyond the fields of the record. -/
def Obligations.DecoderState : Prop :=
  (∀ (s : State) (h : Hart) (hd : VHdr) (b : Nat), Runs s h →
    let a := (h.rg b).toNat
    let save := exec (.xstateSave hd b) s
    let load := exec (.xstateRestore hd b) s
    let illegal := fun i : Instr => Traps s h (exec i s) 0x01 h.pc (BitVec.ofNat 64 (encode i))
    let vill := fun i : Instr => Traps s h (exec i s) 0x04 h.pc (BitVec.ofNat 64 (encode i))
    let probe := fun k => s.probe1 (h.who s.cur) { e := 0, va := a, n := 0x2240, k := k, al := 64 }
    (h.sup = false → illegal (.xstateSave hd b) ∧ illegal (.xstateRestore hd b)) ∧
    (h.sup = true → h.vtype.getLsbD 36 = true → h.MayTrap → vill (.xstateSave hd b) ∧ vill (.xstateRestore hd b)) ∧
    (h.sup = true → h.vtype.getLsbD 36 = false → h.MayTrap → s.walkAway (h.who s.cur) a 0x2240 = false → ∀ c u,
      (h.accessWaits a 0x2240 true = false → probe .w = some (c, u) → Traps s h save c.code h.pc (BitVec.ofNat 64 u)) ∧
      (h.accessWaits a 0x2240 false = false → probe .r = some (c, u) → Traps s h load c.code h.pc (BitVec.ofNat 64 u))) ∧
    ∀ xl : Nat → Xlat, s.memOk = true → h.sup = true → h.vtype.getLsbD 36 = false → h.strip = none →
      a + 0x2240 ≤ 2 ^ 55 →
      let P := fun p : Nat => a ≤ p ∧ p < a + 0x2240
      (∀ p, P p → ReachesByte s h .data xl p) → RoomFor s xl P →
      (h.accessWaits a 0x2240 true = false → probe .w = none → CanStore s xl P →
        ∃ t, save = .next t ∧ t.hart? s.cur = some h.moved ∧ (∀ j, j ≠ s.cur → t.hart? j = s.hart? j) ∧ OnlyBytes s t xl P ∧
          let field := fun o n => littleEndian n fun i => byteAt s t xl (a + o + i)
          let off := (h.xdecStopped.map fun e => e.xd.off).getD 0
          let dec := h.xdecStopped.bind fun e => e.xd.dec
          field 0 4 = 0x4C585853 ∧ field 4 2 = 1 ∧ field 6 1 = (dec.map DecState.st).getD 0 % 256 ∧ field 7 1 = 0 ∧
          field 8 4 = off % 2 ^ 32 ∧
          ∀ y, dec = some y → y.header.length = 32 →
            field 0x0C 4 = y.bitpos % 2 ^ 32 ∧ (∀ k, k < 32 → field (0x10 + k) 1 = (y.header.getD k 0).toNat) ∧
            field 0x30 1 = y.plane % 2 ^ 8 ∧ field 0x31 1 = y.pmode % 2 ^ 8 ∧ field 0x32 2 = y.pos % 2 ^ 16 ∧
            field 0x34 2 = y.kleft % 2 ^ 16 ∧ field 0x36 10 = 0 ∧ field 0x40 0x200 = y.hist % 2 ^ 4096 ∧
            field 0x240 0x2000 = y.obuf % 2 ^ 65536) ∧
      (h.accessWaits a 0x2240 false = false → probe .r = none →
        let field := fun o n : Nat => littleEndian n fun i => byteAt s s xl (a + o + i)
        let head := field 0 4 = 0x4C585853 ∧ field 4 2 = 1 ∧ field 6 1 ≤ 2 ∧ field 7 1 = 0
        (h.xdecStopped = none → OnlyHart s load h.moved) ∧
        (h.xdecStopped ≠ none → ¬ head → h.MayTrap → ∃ t h', load = .next t ∧ t.hart? s.cur = some h' ∧ h'.tcCode = 0x12 ∧
          h'.tcInt = false ∧ h'.trapval = h.rg b ∧ h'.g = h.g ∧ h'.vq = h.vq ∧ t.mem = s.mem) ∧
        (h.xdecStopped ≠ none → head → field 6 1 = 0 → ∃ t h' e, load = .next t ∧ t.hart? s.cur = some h' ∧ h'.pc = h.pc + 4 ∧
          h'.g = h.g ∧ h'.v = h.v ∧ t.mem = s.mem ∧ h'.xdecStopped = some e ∧ e.xd.off = field 8 4 ∧ e.xd.dec = none) ∧
        ∀ x, h.xdecStopped = some x → head → field 6 1 ≠ 0 →
          let f := fun o n => field (0x10 + o) n
          let legal := field 0x36 10 = 0 ∧ field 8 4 + 32 + f 0x10 4 ≤ (if x.started then x.eff else x.vl) ∧
            HeaderLegal f (fieldOf x.vtype 18 4) (fieldOf x.vtype 0 6 + 1) ∧ HeaderLength f
          (¬ legal → h.MayTrap → ∃ t h', load = .next t ∧ t.hart? s.cur = some h' ∧ h'.tcCode = 0x12 ∧
            h'.tcInt = false ∧ h'.trapval = h.rg b ∧ h'.g = h.g ∧ h'.vq = h.vq ∧ t.mem = s.mem) ∧
          (legal → ∃ t h' e y, load = .next t ∧ t.hart? s.cur = some h' ∧ h'.pc = h.pc + 4 ∧ h'.g = h.g ∧ h'.v = h.v ∧
            t.mem = s.mem ∧ h'.xdecStopped = some e ∧ e.xd.off = field 8 4 ∧ e.xd.dec = some y ∧ y.st = field 6 1 ∧
            y.bitpos = field 0x0C 4 ∧ y.plane = field 0x30 1 ∧ y.pmode = field 0x31 1 ∧ y.pos = field 0x32 2 ∧
            y.kleft = field 0x34 2 ∧ y.hist = field 0x40 0x200 ∧ y.obuf = field 0x240 0x2000 ∧ y.header.length = 32 ∧
            ∀ k, k < 32 → (y.header.getD k 0).toNat = field (0x10 + k) 1))) ∧
  ∀ (s : State) (id : Nat) (h : Hart) (o : XdecOp) (e : Entry), s.hart? id = some h → h.xdecHead = some (o, e) →
    e.started = true → e.progress < e.eff → h.sq = [] → e.pos = [] → (∀ v ∈ h.vq, v.redeal = none) → 1 ≤ h.gcount →
    let L := 256 * h.gcount
    let next := (e.progress / L + 1) * L
    let head := fun h' : Hart => h'.vq.head?.map VItem.e
    (min next e.eff ≤ e.xd.s → ∃ t h' e', exec (.xdecWriteStep id) s = .next t ∧ t.hart? id = some h' ∧ head h' = some e' ∧
      e'.progress = next ∧ e'.xd = { e.xd with ahead := e.xd.ahead.filter fun b => decide (next < b.s + b.room) } ∧ e'.res = e.res ∧ h'.v = h.v ∧ h'.g = h.g ∧ t.mem = s.mem) ∧
    (e.xd.s < min next e.eff → e.xd.dec = none → e.xd.mode = 0 → ∀ el,
      let src := fun i : Nat => ((o.source (o.env h e) i 1).getD 0 0 : Byte)
      let f := fun i n : Nat => littleEndian n fun k => src (e.xd.off + i + k)
      let room := 256 * ((f 6 2 + 255) / 256)
      e.xd.off + 32 + f 0x10 4 ≤ e.eff → HeaderLegal f (fieldOf e.vtype 18 4) (fieldOf e.vtype 0 6 + 1) → HeaderLength f →
      BlockGood f (fun t => (src (e.xd.off + 32 + t / 8)).getLsbD (t % 8)) el →
      ∃ t h' e' y, exec (.expanderBlock id) s = .next t ∧ t.hart? id = some h' ∧ head h' = some e' ∧
        e'.xd = XState.mk (e.xd.s + room) (e.xd.off + 32 + f 0x10 4) 0 none
          (e.xd.ahead ++ [XBlock.mk e.xd.s e.xd.off room (some y)]) ∧
        y.st = 2 ∧ y.off = e.xd.off ∧ (∀ i j, i < f 6 2 → j < f 3 1 → y.obuf.testBit (4096 * j + i) = (el i).testBit j) ∧
        e'.progress = e.progress ∧ h'.v = h.v ∧ h'.g = h.g ∧ t.mem = s.mem)

/-! ### Vector memory (R227 to R248) -/

/-- Vector loads and stores outside a strip, of any width and at any bit address (R227 to R235): each active element is
copied bit for bit, a bit that two elements of a store share takes the value of the higher one, and nothing else changes.
VLDFF trims at the first element that fails and reports it in mF; in the others the first element that fails stops the
instruction with nothing performed (R238). VLDA at .gang and wider reads at home, and VSTR writes there; the station then
holds nothing dirty that they would write back first. -/
def Obligations.VectorLoadsAndStores : Prop :=
  ∀ (s : State) (h : Hart) (hd : VHdr) (d a b m sc : Nat) (xl : Nat → Xlat), Runs s h → VecReady s h hd → RegField h d →
    hd.tk < 4 → a < 32 → b < 32 →
    s.memOk = true → h.strip = none → h.ilk = [] → h.lcache = [] → m < 8 → 1 ≤ sc → sc < 8 →
    let vt := h.vtype
    let g := 2 ^ fieldOf vt 22 2
    let w := fieldOf vt 0 6 + 1
    let wb := fieldOf vt 12 6 + 1
    let act := h.activeElem hd
    let k := stnOf s.cur
    let base : Int := 8 * ((h.rg a).toNat : Int)
    let unit := fun e : Nat => base + (e * w : Nat)
    let strided := fun e : Nat => base + e * (h.rg b).toInt
    let indexed := fun e : Nat => base + (readInt h b g wb false e * w : Nat)
    let some_ := fun (B : Nat → Int) (p : Nat) => ∃ e, act e ∧ Touches B w e p
    let dirty := fun p => pathOf (xl p) = .cached ∧ find? (s.stn k).dirty (xl p).pa ≠ none
    let value := fun (byte : Nat → Byte) (B : Nat → Int) (x : Nat → Nat) (q : Nat → Prop) => ∀ e, q e → x e < 2 ^ w ∧
      ∀ j : Nat, j < w → (x e).testBit j = (byte ((B e + j) / 8).toNat).getLsbD ((B e + j) % 8).toNat
    let load := fun (i : Instr) (p : TlbPort) (B : Nat → Int) => ElemsOk s h p xl B w .r 1 act →
      ∃ t h' x, exec i s = .next t ∧ VmuRan s h t h' ∧ WroteRow h h' d act x ∧ value (byteAt s s xl) B x act ∧
        t.mem = s.mem ∧ ∀ j p, t.stationByte j p = s.stationByte j p
    let store := fun (i : Instr) (p : TlbPort) (B : Nat → Int) (home : Bool) => (vreg h.v d).tag = none ∨ (vreg h.v d).tag.map Tag.w = some w →
      ElemsOk s h p xl B w .w 1 act → CanStore s xl (some_ B) →
      (home = true → (s.stn k).dirty = [] ∧ ∀ p, some_ B p → s.PlainFrame ((xl p).pa / 65536)) →
      ∃ t h', exec i s = .next t ∧ VmuRan s h t h' ∧ h'.v = h.v ∧ h'.m = h.m ∧ OnlyBytes s t xl (some_ B) ∧
        ∀ p, some_ B p →
          let old := if home = true then Memory.read s.mem (xl p).pa else byteAt s s xl p
          let new := if pathOf (xl p) = .cached ∧ home = false then t.stationByte k (xl p).pa else Memory.read t.mem (xl p).pa
          ∀ i : Nat, i < 8 →
            (∀ e, act e → Covers B w e (8 * p + i) → (∀ e', act e' → e < e' → ¬ Covers B w e' (8 * p + i)) →
              new.getLsbD i = (readElem h.v h.geo d g w e).testBit (8 * (p : Int) + i - B e).toNat) ∧
            ((∀ e, act e → ¬ Covers B w e (8 * p + i)) → new.getLsbD i = old.getLsbD i)
    let stops := fun (i : Instr) (p : TlbPort) (B : Nat → Int) (kind : AKind) => WalksReach s h p → ∀ e c u, act e → (∀ j, j < e → act j → 0 ≤ B j ∧ B j < 2 ^ 67 ∧
        probeElem s h p B w kind 1 j = none) → 0 ≤ B e → B e < 2 ^ 67 → probeElem s h p B w kind 1 e = some (c, u) →
      EngineFaults s h (exec i s) .vector c (BitVec.ofNat 64 u) 0
    (load (.vld hd d a) .row unit ∧ load (.vlds hd d a b) .row strided ∧ (RegField h b → load (.vldx hd d a b) .gather indexed)) ∧
    (ElemsOk s h .row xl unit w .r 1 act → (4 ≤ sc → ∀ p, some_ unit p → ¬ dirty p) →
      ∃ t h' x, exec (.vlda hd d a sc) s = .next t ∧ VmuRan s h t h' ∧ WroteRow h h' d act x ∧ t.mem = s.mem ∧
        (∀ j, (t.stn j).dirty = (s.stn j).dirty) ∧
        value (fun p => if sc < 4 then byteAt s s xl p else Memory.read s.mem (xl p).pa) unit x act) ∧
    (∀ n, n ≤ h.vl → (n < h.vl → act n ∧ (∃ e, e < n ∧ act e) ∧ unit n < 2 ^ 67 ∧ probeElem s h .row unit w .r 1 n ≠ none) →
      ElemsOk s h .row xl unit w .r 1 (fun e => act e ∧ e < n) → WalksReach s h .row →
      ∃ t h' x, exec (.vldff hd d a m) s = .next t ∧ VmuRan s h t h' ∧ t.mem = s.mem ∧
        WroteRow h { h' with m := h.m } d (fun e => act e ∧ e < n) x ∧ value (byteAt s s xl) unit x (fun e => act e ∧ e < n) ∧
        (∀ j, j < 8 → j ≠ m → mreg h' j = mreg h j) ∧
        ∀ e, maskBit h' m e = if e < h.vl then decide (e < n) else maskBit h m e) ∧
    store (.vst hd d a) .row unit false ∧ store (.vsts hd d a b) .row strided false ∧
    (RegField h b → store (.vstx hd d a b) .gather indexed false) ∧
    ((sc = 7 → s.posted s.cur = false) → store (.vstr hd d a sc) .row unit (decide (4 ≤ sc))) ∧
    stops (.vld hd d a) .row unit .r ∧ stops (.vlds hd d a b) .row strided .r ∧ (RegField h b → stops (.vldx hd d a b) .gather indexed .r) ∧
    stops (.vlda hd d a sc) .row unit .r ∧
    ((vreg h.v d).tag = none ∨ (vreg h.v d).tag.map Tag.w = some w →
      stops (.vst hd d a) .row unit .w ∧ stops (.vsts hd d a b) .row strided .w ∧ stops (.vstr hd d a sc) .row unit .w ∧
      (RegField h b → stops (.vstx hd d a b) .gather indexed .w)) ∧
    ∀ e c u, WalksReach s h .row → act e → (∀ j, j < e → ¬ act j) → unit e < 2 ^ 67 →
      probeElem s h .row unit w .r 1 e = some (c, u) →
      EngineFaults s h (exec (.vldff hd d a m) s) .vector c (BitVec.ofNat 64 u) 0

/-- The vector AMOs (R236, R146) at home, on memory of class none of which the station holds no dirty copy: the elements that
name one location apply in ascending order, each receives what the one before it left, and VAMOCAS writes nothing where the
comparison fails. Other operands trap with ILLINS (R232), and so does an open strip, as an engine fault (R248). -/
def Obligations.VectorAtomics : Prop :=
  ∀ (s : State) (h : Hart) (hd : VHdr) (d a b : Nat) (xl : Nat → Xlat), Runs s h → RegField h d → RegField h b →
    hd.tk < 4 → hd.msk < 8 → a < 32 →
    let vt := h.vtype
    let g := 2 ^ fieldOf vt 22 2
    let w := fieldOf vt 0 6 + 1
    let wb := fieldOf vt 12 6 + 1
    let act := h.activeElem hd
    let sgn := fun v : Nat => if fieldOf vt 18 4 = 0 then sx w v else (v : Int)
    let D := fun e => intElem h d w e % (2 ^ w : Nat)
    let B := fun e : Nat => 8 * ((h.rg a).toNat : Int) + (readInt h b g wb false e * w : Nat)
    let legal := fieldOf vt 18 4 < 2 ∧ (w = 16 ∨ w = 32)
    let room := d + g < 8 * 2 ^ fieldOf h.vcfg 0 2
    let P := fun p : Nat => ∃ e, act e ∧ Touches B w e p
    let ops : List (Instr × Nat × (Nat → Nat → Nat)) := [(.vamoadd hd d a b, 0, fun m y => (m + y) % 2 ^ w),
      (.vamoor hd d a b, 1, fun m y => m ||| y), (.vamoand hd d a b, 2, fun m y => m &&& y),
      (.vamomin hd d a b, 3, fun m y => if sgn y < sgn m then y else m),
      (.vamomax hd d a b, 4, fun m y => if sgn m < sgn y then y else m), (.vamoswap hd d a b, 5, fun _ y => y),
      (.vamocas hd d a b, 6, fun m _ => m)]
    ∀ q ∈ ops,
      (vt.getLsbD 36 = false → ¬ legal → h.MayTrap → Traps s h (exec q.1 s) 0x01 h.pc (BitVec.ofNat 64 (encode q.1))) ∧
      (vt.getLsbD 36 = false → q.2.1 = 6 → ¬ room → h.MayTrap →
        Traps s h (exec q.1 s) 0x01 h.pc (BitVec.ofNat 64 (encode q.1))) ∧
      (VecReady s h hd → legal → (q.2.1 = 6 → room) → h.ilk = [] →
        (h.strip ≠ none → EngineFaults s h (exec q.1 s) .vector .illins (BitVec.ofNat 64 (encode q.1)) 0) ∧
        (h.strip = none → s.memOk = true → ElemsOk s h .gather xl B w .rw (w / 8) act →
          (∀ p, P p → s.PlainFrame ((xl p).pa / 65536) ∧ regionOf (xl p).pa ≠ .host ∧
            find? (s.stn (stnOf s.cur)).dirty (xl p).pa = none) →
          (∀ p p', P p → P p' → (xl p).pa = (xl p').pa → p = p') →
          let old := fun e => littleEndian (w / 8) fun i => Memory.read s.mem (xl ((B e / 8).toNat + i)).pa
          let new := fun (e m : Nat) => if q.2.1 = 6 then (if (m : Int) = D e then (intElem h (d + g) w e % (2 ^ w : Nat)).toNat else m)
            else q.2.2 m (D e).toNat
          let upto := fun e n => ((List.range n).filter fun j => (hd.msk == 0 || maskBit h hd.msk j) && decide (B j = B e)).foldl
            (fun m j => new j m) (old e)
          ∃ t h' x, exec q.1 s = .next t ∧ VmuRan s h t h' ∧ WroteRow h h' d act x ∧ (∀ e, act e → x e = upto e e) ∧
            OnlyBytes s t xl P ∧
            ∀ e i, act e → i < w / 8 → Memory.read t.mem (xl ((B e / 8).toNat + i)).pa = byteOf (upto e h.vl) i))

/-- Strips (R245 to R251): STRIP.BEGIN opens one and STRIP.ABORT drops it; STRIP.COMMIT performs every buffered byte once, or
stops at a page that fails with nothing performed; each stops with ILLINS where it does not fit, and with ILLCONVOY when its C
is 1. A store inside a strip goes into its buffer, up to the capacity of R247, and one that adds lines past it stops with
STRIPFULL. FLUSH and DROP write SBCAP: they wait for older
vector instructions, then commit or empty the buffer of the strip, which stays open. -/
def Obligations.Strips : Prop :=
  ∀ (s : State) (h : Hart) (hd : VHdr) (a : Nat) (xl : Nat → Xlat), Runs s h → hd.tk < 4 → hd.c < 2 → hd.msk < 8 → a < 32 →
    s.memOk = true → (∀ b, h.strip = some b → b.Sorted) →
    let begin_ := Instr.stripBegin hd a
    let commit := Instr.stripCommit hd
    let abort := Instr.stripAbort hd
    let ready := s.eager = true ∧ h.LanesIdle ∧ LanesFree s ∧ hd.c = 0 ∧
      (hd.tk.testBit 1 = true → 0 < h.tokens (fifo (fieldOf h.tkroute 2 2) engVector)) ∧
      (hd.tk.testBit 0 = true → h.tokens (fifo engVector (fieldOf h.tkroute 0 2)) < 15)
    let same := fun h' : Hart => h'.pc = h.pc + 4 ∧ h'.vq = [] ∧ h'.g = h.g ∧ h'.f = h.f ∧ h'.v = h.v ∧ h'.m = h.m ∧
      h'.vl = h.vl ∧ h'.vtype = h.vtype ∧ h'.status = h.status ∧ h'.groups = h.groups ∧ h'.fflags = h.fflags ∧ h'.xacc = h.xacc
    let illegal := fun i : Instr => EngineFaults s h (exec i s) .vector .illins (BitVec.ofNat 64 (encode i)) 0
    (s.eager = true → h.LanesIdle → LanesFree s → hd.c = 1 → ∀ i ∈ [begin_, commit, abort],
      EngineFaults s h (exec i s) .vector .illconvoy (BitVec.ofNat 64 (encode i)) 0) ∧
    (ready →
      (h.strip = none → illegal commit ∧ illegal abort ∧
        ∃ h', OnlyHart s (exec begin_ s) h' ∧ same h' ∧ h'.strip = some (Strip.mk (fieldOf (h.rg a) 0 32) h.seq [] [])) ∧
      ∀ b, h.strip = some b →
        illegal begin_ ∧ (∃ h', OnlyHart s (exec abort s) h' ∧ same h' ∧ h'.strip = none) ∧
        (StripWritable s h .row xl b →
          ∃ t h', exec commit s = .next t ∧ StripWritten s t h' xl b ∧ same h' ∧ h'.strip = none) ∧
        (WalksReach s h .row → (∃ x ∈ b.buf, ∃ y ∈ b.buf, x.1 / 64 = y.1 / 64 ∧ (∀ z ∈ b.buf, z.1 / 64 = x.1 / 64 → x.1 ≤ z.1 ∧ z.1 ≤ y.1) ∧
            s.probe1 (via s h .row) { e := 0, va := x.1, n := y.1 - x.1 + 1, k := .w, al := 1 } ≠ none) →
          ∃ c u, EngineFaults s h (exec commit s) .vector c u 0)) ∧
    (∀ (d : Nat) (b : Strip), VecReady s h hd → h.strip = some b → RegField h d → h.ilk = [] →
      let g := 2 ^ fieldOf h.vtype 22 2
      let w := fieldOf h.vtype 0 6 + 1
      let act := h.activeElem hd
      let B := fun e : Nat => 8 * ((h.rg a).toNat : Int) + (e * w : Nat)
      let P := fun p : Nat => ∃ e, act e ∧ Touches B w e p
      let lines := fun l : List Nat => l.Nodup ∧ ∀ k ∈ l, (∃ x ∈ b.buf, x.1 / 64 = k) ∨ ∃ p, P p ∧ p / 64 = k
      let cap := min h.sbcap ((16 - fieldOf h.vcfg 8 5) * 64 * h.gcount)
      (vreg h.v d).tag = none ∨ (vreg h.v d).tag.map Tag.w = some w → ElemsOk s h .row xl B w .w 1 act →
      let adds := ∃ p, P p ∧ ∀ x ∈ b.buf, x.1 / 64 ≠ p / 64
      (¬ adds ∨ (∀ l, lines l → l.length ≤ cap) →
        ∃ (t : State) (h' : Hart) (b' : Strip), exec (.vst hd d a) s = .next t ∧ VmuRan s h t { h' with strip := h.strip } ∧ h'.strip = some b' ∧ h'.v = h.v ∧
          h'.m = h.m ∧ t.mem = s.mem ∧ (∀ k p, t.stationByte k p = s.stationByte k p) ∧ b'.base = b.base ∧
          (∀ p, ¬ P p → find? b'.buf p = find? b.buf p) ∧
          ∀ p, P p → ∃ x : Byte, find? b'.buf p = some x ∧ ∀ i : Nat, i < 8 →
            (∀ e, act e → Covers B w e (8 * p + i) →
              x.getLsbD i = (readElem h.v h.geo d g w e).testBit (8 * (p : Int) + i - B e).toNat) ∧
            ((∀ e, act e → ¬ Covers B w e (8 * p + i)) → x.getLsbD i = ((find? b.buf p).getD (byteAt s s xl p)).getLsbD i)) ∧
      (adds → (∃ l, lines l ∧ cap < l.length) → ∃ u, EngineFaults s h (exec (.vst hd d a) s) .vector .stripfull u 0)) ∧
    (h.sbcap < 2 ^ 26 →
      let flush := exec (.flush s.cur) s
      let drop := exec (.drop s.cur) s
      let pends := fun (o : Out) (v : Nat) => OnlyHart s o { h with sbpend := h.sbpend ++ [(h.seq, BitVec.ofNat 64 v)] }
      let now := (h.qstop = true ∨ h.vq = []) ∧ h.held = none ∧ h.frozen = none ∧ h.sbpend = [] ∧ h.flushAt = 0
      (¬ (h.qstop = true ∨ ∀ v ∈ h.vq, h.seq ≤ v.e.seq) → h.sbpend = [] → pends flush (2 ^ 63 + h.sbcap * 64) ∧
        pends drop (2 ^ 62 + h.sbcap * 64)) ∧
      (now → h.strip = none → OnlyHart s flush h ∧ OnlyHart s drop h) ∧
      ∀ b, now → h.strip = some b →
        OnlyHart s drop { h with strip := some { b with buf := [], at_ := [] } } ∧
        (StripWritable s h .data xl b → ∃ t, flush = .next t ∧
          StripWritten s t { h with strip := some { b with buf := [], at_ := [] }, fstat := 0 } xl b))

/-! ### Matrix instructions (R254 to R277) -/

/-- The tiles (R254, R256 to R258, R260, R261, R266 to R272): OPA and OPAS add the grid values of their terms to the active
accumulators, TZERO, TSHIFT and TMERGE work on the active rows, TRD and TWR move elements under their selector, TFLAGS,
TALLOC and TFREE; the tile flags of each; the traps and faults of R264 and R265; and TILE_GRANT (R267). A word that has to
wait for nothing runs at once in the order that the model chose (log 3). -/
def Obligations.MatrixTiles : Prop :=
  (∀ (s : State) (h : Hart) (xh : XHdr) (td a b : Nat), Runs s h → td < 4 → a < 32 → b < 32 → xh.tk < 4 →
    let ts := h.tshape
    let n := 8 * 2 ^ fieldOf h.vcfg 0 2
    let blk := fieldOf ts 8 2
    let ak := fieldOf ts 0 4
    let bk := fieldOf ts 4 4
    let unit := (2 : Rat) ^ sx 10 (fieldOf ts 16 10)
    let T := s.tile s.cur td
    let S := s.tile s.cur a
    let on := fun k => xh.msk = 0 ∨ maskBit h xh.msk k = true
    let row := fun m => m ≤ fieldOf ts 10 6 ∧ on m
    let opa : Instr := .opa xh td a b
    let opas : Instr := .opas xh td a b
    let trd : Instr := .trd xh td a b
    let twr : Instr := .twr xh td a b
    let shift := fun k : Nat => Instr.tshift xh td k
    let plain : Instr := .tmerge xh td a
    let att : Instr := .tmergeAtt xh td a
    let word := fun i : Instr => BitVec.ofNat 64 (encode i)
    let outerOk := a < n ∧ b % 8 = 0 ∧ b + 7 < n ∧ (blk = 0 ∨ a + 1 < n)
    let rwOk := a < n ∧ h.vtype.getLsbD 36 = false
    let legal := fun i : Instr => ts.getLsbD 63 = false ∧ ((i = opa ∨ i = opas) ∧ outerOk ∨ (i = trd ∨ i = twr) ∧ rwOk ∨
      (i = plain ∨ i = att) ∧ a < 4 ∨ ∃ k, i = shift k) ∨
      i = .tzero xh td ∨ i = .tflags xh td ∨ i = .talloc xh td ∨ i = .tfree xh td
    let widths := TagFits h a (kindWidth ak) ∧ (∀ k, k < 8 → TagFits h (b + k) (kindWidth bk)) ∧ (blk ≠ 0 → TagFits h (a + 1) 8)
    -- the traps at decode, a full queue, and an entry that does not run at once
    (h.MayTrap → ts.getLsbD 63 = true → ∀ i, (i ∈ [opa, opas, trd, twr, plain, att] ∨ ∃ k, i = shift k) →
      Traps s h (exec i s) 0x04 h.pc (word i)) ∧
    (h.MayTrap → ts.getLsbD 63 = false →
      (¬ outerOk → ∀ i ∈ [opa, opas], Traps s h (exec i s) 0x01 h.pc (word i)) ∧
      (¬ rwOk → ∀ i ∈ [trd, twr], Traps s h (exec i s) 0x01 h.pc (word i)) ∧
      (4 ≤ a → ∀ i ∈ [plain, att], Traps s h (exec i s) 0x01 h.pc (word i))) ∧
    (∀ i, legal i → (16 ≤ h.mq.length → exec i s = .next s) ∧
      (s.eager = false → h.mq.length < 16 → ∃ h' e, OnlyHart s (exec i s) h' ∧ h'.pc = h.pc + 4 ∧ h'.mq = h.mq ++ [e] ∧
        e.op = i ∧ e.pc = h.pc ∧ e.vl = h.vl ∧ e.vtype = h.vtype ∧ e.tshape = h.tshape ∧ e.started = false ∧ h'.v = h.v ∧
        h'.tok = h.tok ∧ h'.fflags = h.fflags)) ∧
    (MtxReady s h xh.tk →
      -- a tile that the hart does not hold, and an operand of another width
      (∀ i, legal i → i ≠ .talloc xh td → i ≠ .tfree xh td → (T.held ≠ some s.cur ∨ (i = plain ∨ i = att) ∧ S.held ≠ some s.cur) →
        EngineFaults s h (exec i s) .matrix .illins (word i) 0) ∧
      (T.held = some s.cur → ts.getLsbD 63 = false → outerOk → ¬ widths → ∀ i ∈ [opa, opas],
        EngineFaults s h (exec i s) .matrix .illwidth (word i) 0) ∧
      -- OPA and OPAS
      (T.held = some s.cur → T.Ok → ts.getLsbD 63 = false → outerOk → widths → ∀ slide : Bool,
        let i := if slide then opas else opa
        let last := fun m => if slide then m + 7 else 8 * m + 7
        let A := fun m k => kindValue ak 0 (kindWidth ak) (readElem h.v h.geo a 1 (kindWidth ak)
          (if slide then (if ts.getLsbD 26 then m + 7 - k else m + k) else 8 * m + k))
        let B := fun k c => kindValue bk 0 (kindWidth bk) (readElem h.v h.geo (b + k) 1 (kindWidth bk) c)
        let sa := fun m => readElem h.v h.geo (a + 1) 1 8 (if slide then 0 else m)
        let sb := fun c => readElem h.v h.geo (a + 1) 1 8 (64 + c)
        let scale := fun m c => if blk = 0 then 1 else (2 : Rat) ^ ((sa m : Int) - 127) * (2 : Rat) ^ ((sb c : Int) - 127)
        let void := fun m c => (∃ k, k < 8 ∧ (¬ (A m k).isNum ∨ ¬ (B k c).isNum)) ∨ blk ≠ 0 ∧ (sa m = 255 ∨ sb c = 255)
        let s8 := fun m c => ((List.range 8).map fun k => (A m k).num * (B k c).num).sum * scale m c
        let act := fun m c => row m ∧ last m < h.vl ∧ on (64 + c)
        ∃ (x : Tile) (h' : Hart) (G F : Nat → Nat → Int), MtxRan s h (exec i s) xh.tk td x h' ∧ h'.v = h.v ∧ h'.fflags = h.fflags ∧
          h'.srctr = h.srctr ∧ TileHolds x T F ∧
          TileFlags T.flags x.flags (fun k => ∃ m c, m < 64 ∧ c < 128 ∧ act m c ∧
            (k = 0 ∧ void m c ∨ k = 4 ∧ ¬ void m c ∧ (G m c : Rat) * unit ≠ s8 m c)) ∧
          ∀ m c, m < 64 → c < 128 → Nearest (s8 m c / unit) (G m c) ∧
            (act m c ∧ ¬ void m c → F m c = T.sval m c + G m c) ∧ (¬ (act m c ∧ ¬ void m c) → F m c = T.sval m c)) ∧
      -- TZERO, TSHIFT, TMERGE
      (T.held = some s.cur → T.Ok →
        let same := fun h' : Hart => h'.v = h.v ∧ h'.fflags = h.fflags ∧ h'.srctr = h.srctr
        let su := fun (r : Nat → Nat → Rat) (z : Nat → Nat → Int) (m c : Nat) => (z m c : Rat) ≠ r m c
        let tv := fun (z : Nat → Nat → Int) (m c : Nat) => z m c < -(2 ^ 127) ∨ (2 ^ 127 : Int) ≤ z m c
        (∃ (x : Tile) (h' : Hart) (F : Nat → Nat → Int), MtxRan s h (exec (.tzero xh td) s) xh.tk td x h' ∧ same h' ∧
          TileHolds x T F ∧ x.flags = 0 ∧ ∀ m c, m < 64 → c < 128 → (row m → F m c = 0) ∧ (¬ row m → F m c = T.sval m c)) ∧
        (ts.getLsbD 63 = false → ∀ k, sx 10 k = 0 → ∃ h', MtxRan s h (exec (shift k) s) xh.tk td T h' ∧ same h') ∧
        (ts.getLsbD 63 = false → ∀ k, sx 10 k ≠ 0 →
          let q := fun m c => (T.sval m c : Rat) * (2 : Rat) ^ sx 10 k
          ∃ (x : Tile) (h' : Hart) (Z F : Nat → Nat → Int), MtxRan s h (exec (shift k) s) xh.tk td x h' ∧ same h' ∧
            TileHolds x T F ∧
            TileFlags T.flags x.flags (fun f => ∃ m c, m < 64 ∧ c < 128 ∧ row m ∧ (f = 7 ∧ su q Z m c ∨ f = 6 ∧ tv Z m c)) ∧
            ∀ m c, m < 64 → c < 128 → Nearest (q m c) (Z m c) ∧ (row m → F m c = Z m c) ∧ (¬ row m → F m c = T.sval m c)) ∧
        (ts.getLsbD 63 = false → a < 4 → S.held = some s.cur → S.Ok →
          (∃ (x : Tile) (h' : Hart) (F : Nat → Nat → Int), MtxRan s h (exec plain s) xh.tk td x h' ∧ same h' ∧
            TileHolds x T F ∧ x.flags = T.flags ||| S.flags ∧
            ∀ m c, m < 64 → c < 128 → (row m → F m c = T.sval m c + S.sval m c) ∧ (¬ row m → F m c = T.sval m c)) ∧
          let maxOf := fun (y : Tile) (m : Nat) => ⌊(y.sval m 127 : Rat) * unit⌋
          let M := fun m => max (maxOf T m) (maxOf S m)
          let q := fun (y : Tile) (m c : Nat) => (y.sval m c : Rat) * (2 : Rat) ^ (maxOf y m - M m)
          ∃ (x : Tile) (h' : Hart) (Y Z F : Nat → Nat → Int) (K : Nat → Int), MtxRan s h (exec att s) xh.tk td x h' ∧ same h' ∧
            TileHolds x T F ∧
            TileFlags (T.flags ||| S.flags) x.flags (fun f => ∃ m c, m < 64 ∧ c < 127 ∧ row m ∧
              (f = 7 ∧ (su (q T) Y m c ∨ su (q S) Z m c) ∨ f = 6 ∧ (tv Y m c ∨ tv Z m c))) ∧
            ∀ m c, m < 64 → c < 128 → Nearest (q T m c) (Y m c) ∧ Nearest (q S m c) (Z m c) ∧ Nearest ((M m : Rat) / unit) (K m) ∧
              (row m → F m c = if c = 127 then K m else Y m c + Z m c) ∧ (¬ row m → F m c = T.sval m c))) ∧
      -- TRD and TWR
      (T.held = some s.cur → T.Ok → ts.getLsbD 63 = false → rwOk →
        let vt := h.vtype
        let kind := fieldOf vt 18 4
        let pos := fun e => if b < 16 then (4 * b + e / 128, e % 128) else (e, 96 + b)
        let moved := fun e => e < h.vl ∧ (pos e).1 < 64 ∧ on e
        let at_ := fun e => T.sval (pos e).1 (pos e).2
        (RegField h a → fieldOf vt 22 2 = 0 → 1 ≤ h.gcount → h.vl ≤ 256 * h.gcount * elementsPerLane h.vcfg vt →
          kind = 4 → fieldOf vt 0 6 = 31 → fieldOf vt 26 3 < 5 → vt.getLsbD 29 = false → ¬ RefusedType vt →
          ∃ h', MtxRan s h (exec trd s) xh.tk td T h' ∧ h'.srctr = h.srctr ∧
            (h'.fflags.testBit 6 = true ↔ h.fflags.testBit 6 = true ∨ ∃ e, moved e ∧ (at_ e < -(2 ^ 127) ∨ (2 ^ 127 : Int) ≤ at_ e)) ∧
            (∀ k, k = 1 ∨ k = 5 ∨ 6 < k → h'.fflags.testBit k = h.fflags.testBit k) ∧
            (∀ k, k < 32 → k ≠ a → vreg h'.v k = vreg h.v k) ∧ (0 < h.vl → (vreg h'.v a).tag.map Tag.w = some 32) ∧
            ∀ e, e < h.vl →
              let z := BitVec.ofNat 32 (readElem h'.v h.geo a 1 32 e)
              (moved e → T.flags.testBit 0 = true → z = 0x7FC00000) ∧
              (moved e → T.flags.testBit 0 = false → at_ e = 0 → z = 0) ∧
              (moved e → T.flags.testBit 0 = false → at_ e ≠ 0 → ∃ fl, ArithResult (fieldOf vt 26 3) ((at_ e : Rat) * unit) z fl) ∧
              (¬ moved e → TagFits h a 32 → readElem h'.v h.geo a 1 32 e = readElem h.v h.geo a 1 32 e)) ∧
        (kind < 4 ∨ TagFits h a (kindWidth kind) ∧ fieldOf vt 6 6 + 1 = kindWidth kind →
          let wa := fieldOf vt 6 6 + 1
          let X := fun e => kindValue kind (fieldOf vt 30 6) wa
            (if kind < 4 then readInt h a 1 wa (kindSigned kind) e else readElem h.v h.geo a 1 wa e)
          ∃ (x : Tile) (h' : Hart) (G F : Nat → Int), MtxRan s h (exec twr s) xh.tk td x h' ∧ h'.v = h.v ∧ h'.fflags = h.fflags ∧
            h'.srctr = h.srctr ∧
            (∀ e, Nearest ((X e).num / unit) (G e) ∧ F e = if (X e).isNum then max (-(2 ^ 127)) (min (2 ^ 127 - 1) (G e)) else 0) ∧
            (∀ e, moved e → x.sval (pos e).1 (pos e).2 = F e) ∧
            (∀ m c, m < 64 → c < 128 → (∀ e, moved e → pos e ≠ (m, c)) → x.sval m c = T.sval m c) ∧ x.Ok ∧ x.held = T.held ∧
            x.last = T.last ∧
            TileFlags T.flags x.flags (fun f => ∃ e, moved e ∧ (f = 0 ∧ ¬ (X e).isNum ∨
              (X e).isNum ∧ (f = 4 ∧ (G e : Rat) * unit ≠ (X e).num ∨ f = 6 ∧ F e ≠ G e))))) ∧
      -- TFLAGS, TFREE, TALLOC
      (T.held = some s.cur → ∃ h', MtxRan s h (exec (.tflags xh td) s) xh.tk td { T with flags := 0 } h' ∧
        h'.fflags = h.fflags ||| T.flags ∧ h'.v = h.v ∧ h'.srctr = h.srctr) ∧
      (∃ h', MtxRan s h (exec (.tfree xh td) s) xh.tk td (if T.held = some s.cur then { T with held := none } else T) h' ∧
        h'.fflags = h.fflags ∧ h'.v = h.v ∧ h'.srctr = h.srctr) ∧
      (T.held = some s.cur → ∃ h', MtxRan s h (exec (.talloc xh td) s) xh.tk td T h' ∧ h'.fflags = h.fflags ∧ h'.v = h.v) ∧
      (T.held = none → (∀ p ∈ s.harts, coreOf p.1 = coreOf s.cur → p.2.mq = [] ∧ ∀ c g, p.2.wait ≠ some (.restore c g)) →
        ∃ h', MtxRan s h (exec (.talloc xh td) s) xh.tk td
          (if T.last = some h.ctx then { T with held := some s.cur }
           else { T with acc := [], flags := 0, held := some s.cur, last := some h.ctx }) h' ∧
          h'.fflags = h.fflags ∧ h'.v = h.v) ∧
      (∀ k, T.held = some k → k ≠ s.cur → ∃ t h' e, exec (.talloc xh td) s = .next t ∧ t.hart? s.cur = some h' ∧
        (∀ j, j ≠ s.cur → t.hart? j = s.hart? j) ∧ { t with harts := s.harts, cores := s.cores } = s ∧
        (∀ j, { t.core j with mtxTurns := (s.core j).mtxTurns } = s.core j) ∧ h'.pc = h.pc + 4 ∧ h'.mq = [e] ∧
        e.op = .talloc xh td ∧ e.started = true))) ∧
  -- TILE_GRANT
  (∀ (s : State) (id td : Nat) (h : Hart) (e : Entry) (xh : XHdr), td < 4 → s.hart? id = some h → h.mq = [e] →
    e.op = .talloc xh td → e.started = true → e.runnable = true → (∀ c g, h.wait ≠ some (.restore c g)) →
    s.harts.Pairwise (fun (p q : Nat × Hart) => p.1 < q.1) →
    let T := s.tile id td
    (T.held ≠ none → exec (.tileGrant (coreOf id) td) s = .next s) ∧
    (T.held = none → (∀ p ∈ s.harts, p.1 ≠ id → coreOf p.1 = coreOf id → p.2.mq = [] ∧ ∀ c g, p.2.wait ≠ some (.restore c g)) →
      ∃ t h', exec (.tileGrant (coreOf id) td) s = .next t ∧ t.hart? id = some h' ∧ h'.mq = [] ∧ h'.pc = h.pc ∧
        (∀ j, j ≠ id → t.hart? j = s.hart? j) ∧ { t with harts := s.harts, cores := s.cores } = s ∧
        (∀ k j, k ≠ coreOf id ∨ j ≠ td → (t.core k).tiles[j]? = (s.core k).tiles[j]?) ∧
        t.tile id td = if T.last = some h.ctx then { T with held := some id }
          else { T with acc := [], flags := 0, held := some id, last := some h.ctx }))

/-! ### Stream instructions (R302 to R326) -/

/-- The station stream engines: dispatch with captured values, traps and issue faults (R308, R309); SLD, SLD.G of a hart in
no gang, SST, SPLN and SCPY whose runs are one burst on each side (R303, R306, R312 to R314), SIND and SPAT by tokens (R315, R316),
SBIND and SUNBIND (R317, R319), SSEND with its arrival, its completion word and a stale target (R320, R322); SWAIT, SAVAIL
and SSTAT (R323); the events of streams. Words issue at once in the order that the model chose (log 3). -/
def Obligations.Streams : Prop :=
  (∀ (s : State) (h : Hart) (i : Instr) (q k a b c : Nat), Runs s h → streamFields i = some (q, k, a, b, c) →
    let ok := ∀ d, NamesV i d → d < 8 * 2 ^ fieldOf h.vcfg 0 2 ∧ d % 2 ^ fieldOf h.vtype 22 2 = 0
    (¬ ok → h.MayTrap → Traps s h (exec i s) 0x01 h.pc (BitVec.ofNat 64 (encode i))) ∧
    (ok → 16 ≤ h.sq.length → exec i s = .next s) ∧
    (ok → h.sq.length < 16 → s.eager = false → ∃ h' e, OnlyHart s (exec i s) h' ∧ h'.pc = h.pc + 4 ∧ h'.sq = h.sq ++ [e] ∧
      e.op = i ∧ e.pc = h.pc ∧ e.tk = k ∧ e.ga = h.rg a ∧ e.gb = h.rg b ∧ e.gd = h.rg c ∧ e.vl = h.vl ∧ e.vtype = h.vtype ∧
      e.tkroute = h.tkroute ∧ e.sup = h.sup ∧ e.started = false ∧ h'.g = h.g ∧ h'.v = h.v ∧ h'.tok = h.tok) ∧
    (ok → StreamReady s h k → h.binds = [] → q < 8 → h.vtype.getLsbD 36 = true →
      (∃ d, i ∈ [Instr.sld k q d a b, .sst k q d a b, .scpy k q c a b, .spln k q d a b, .sldG k q d a b, .sind k q d a b,
        .spat k q d a, .sbind k q d a b]) →
      EngineFaults s h (exec i s) .stream .illins (BitVec.ofNat 64 (encode i)) 0)) ∧
  (∀ (s : State) (h : Hart) (q k d c a b : Nat) (xl : Nat → Xlat), Runs s h → StreamReady s h k → q < 8 → a < 32 → b < 32 → c < 32 →
    let vt := h.vtype
    let g := 2 ^ fieldOf vt 22 2
    let w := fieldOf vt 0 6 + 1
    let n32 := fieldOf (h.rg b) 0 32
    let N := if n32 = 0 then h.vl else min n32 h.vl
    let A := (h.rg a).toNat
    let C := (h.rg c).toNat
    let bytes := fun n => (n * w + 7) / 8
    let bit := fun x : Nat => (byteAt s s xl (x / 8)).getLsbD (x % 8)
    let row := fun p => pteLayout (xl p).pte = 0
    let typed := h.vtype.getLsbD 36 = false ∧ ¬ RefusedType vt ∧ 1 ≤ h.gcount ∧ h.vl ≤ 256 * h.gcount * elementsPerLane h.vcfg vt
    let quiet := fun (t : State) => t.mem = s.mem ∧ ∀ j p, t.stationByte j p = s.stationByte j p
    let word := fun i : Instr => BitVec.ofNat 64 (encode i)
    let lands := fun (i : Instr) (n M : Nat) (src : Nat → Nat → Bool) => ∃ (t : State) (h' : Hart) (x : Nat → Nat),
      StreamRan s h (exec i s) q n M t h' ∧ WroteRow h h' d (fun e => e < M) x ∧ quiet t ∧
        ∀ e, e < M → x e < 2 ^ w ∧ ∀ j, j < w → (x e).testBit j = src e j
    h.binds = [] → typed → RegField h d →
    -- SLD, SLD.G, SPLN
    (0 < N → row A → BurstOk s h xl A (bytes N) .r 1 → RoomFor s xl (Bytes A (bytes N)) → ∀ i ∈ [Instr.sld k q d a b, .sldG k q d a b],
      (i = .sldG k q d a b → h.gang = none) → lands i 2 N fun e j => bit (8 * A + e * w + j)) ∧
    (0 < N → A % 32 = 0 →
      let p := if fieldOf (h.rg b) 32 6 = 0 then w else min (fieldOf (h.rg b) 32 6) w
      let plane := (N + 255) / 256 * 32
      (∀ j, j < p → BurstOk s h xl (A + j * plane) ((N + 7) / 8) .r 1) → TlbsAgree s h .stream (fun _ => False) →
      (RoomFor s xl fun x => ∃ j, j < p ∧ Bytes (A + j * plane) ((N + 7) / 8) x) →
      lands (.spln k q d a b) (p + 1) N fun e j => decide (w ≤ j + p) && bit (8 * (A + (w - 1 - j) * plane) + e)) ∧
    -- SST, SCPY
    (0 < N → row A → BurstOk s h xl A (bytes N) .w 1 → RoomFor s xl (Bytes A (bytes N)) → CanStore s xl (Bytes A (bytes N)) →
      TagFits h d w →
      ∃ t h', StreamRan s h (exec (.sst k q d a b) s) q 2 N t h' ∧ h'.v = h.v ∧
        OnlyBytes s t xl (Bytes A (bytes N)) ∧
        ∀ x, x < 8 * bytes N → (byteAt s t xl (A + x / 8)).getLsbD (x % 8) =
          if x < N * w then (readElem h.v h.geo d g w (x / w)).testBit (x % w) else bit (8 * A + x)) ∧
    (0 < n32 → n32 ≤ 2048 → row A → row C → A + bytes n32 ≤ C ∨ C + bytes n32 ≤ A → BurstOk s h xl A (bytes n32) .r 1 →
      BurstOk s h xl C (bytes n32) .w 1 → (TlbsAgree s h .stream fun p => ∃ x, Bytes C (bytes n32) x ∧ (xl x).pa = p) →
      (RoomFor s xl fun p => Bytes A (bytes n32) p ∨ Bytes C (bytes n32) p) → CanStore s xl (Bytes C (bytes n32)) →
      ∃ t h', StreamRan s h (exec (.scpy k q c a b) s) q 3 n32 t h' ∧ h'.v = h.v ∧
        OnlyBytes s t xl (Bytes C (bytes n32)) ∧
        ∀ x, x < 8 * bytes n32 → (byteAt s t xl (C + x / 8)).getLsbD (x % 8) = if x < n32 * w then bit (8 * A + x) else bit (8 * C + x)) ∧
    (WalksReach s h .stream → 0 < n32 → row A → row C → s.translate (via s h .stream) A = some (xl A) → s.translate (via s h .stream) C = some (xl C) →
      ¬ (A + bytes n32 ≤ C ∨ C + bytes n32 ≤ A) →
      EngineFaults s h (exec (.scpy k q c a b) s) .stream .illins (word (.scpy k q c a b)) 0) ∧
    -- a base that is not aligned, and a page that fails
    (WalksReach s h .stream → A % 32 ≠ 0 → EngineFaults s h (exec (.spln k q d a b) s) .stream .align (h.rg a) 0) ∧
    (WalksReach s h .stream → A % 32 ≠ 0 → s.translate (via s h .stream) A = some (xl A) → pteLayout (xl A).pte = 1 ∨ pteLayout (xl A).pte = 2 →
      ∀ i ∈ [Instr.sld k q d a b, .sst k q d a b, .sldG k q d a b, .sbind k q d a b],
        EngineFaults s h (exec i s) .stream .align (h.rg a) 0) ∧
    (∀ z u, WalksReach s h .stream → 0 < N → s.translate (via s h .stream) A = some (xl A) → row A → TagFits h d w → bytes N ≤ 4096 →
      A % 65536 + bytes N ≤ 65536 → s.probe1 (via s h .stream) { e := 0, va := A, n := bytes N, k := .w, al := 1 } = some (z, u) →
      EngineFaults s h (Then (exec (.sst k q d a b) s) (exec (.streamBurst s.cur q))) .stream z (BitVec.ofNat 64 u) 0) ∧
    -- SIND and SPAT: the tokens of a block or a record, each one burst
    (let num := fun o n : Nat => littleEndian n fun j => byteAt s s xl (A + o + j)
     let tokens := fun (i : Instr) (M tw : Nat) (at_ : Nat → Nat) (P : Nat → Prop) => 0 < M → 1 ≤ tw → tw ≤ 4096 →
       (∀ j, j * tw < M → BurstOk s h xl (at_ j) (bytes (min tw (M - j * tw))) .r 1) →
       (RoomFor s xl fun p => Bytes A 64 p ∨ P p ∨ ∃ j, j * tw < M ∧ Bytes (at_ j) (bytes (min tw (M - j * tw))) p) →
       lands i ((M + tw - 1) / tw + 1) M fun e j => bit (8 * at_ (e / tw) + e % tw * w + j)
     BurstOk s h xl A 64 .r 8 → TlbsAgree s h .stream (fun _ => False) →
     (let tab := num 0 8
      let btok := num 24 4
      let tw := num 28 2
      let first := num 32 4
      let M := min (num 36 4 * tw) h.vl
      let entry := fun j => tab + 8 * ((first + j) / btok)
      1 ≤ btok → btok ≤ 65536 → tab % 8 = 0 → num 30 1 = fieldOf vt 18 4 → num 31 1 = 0 → num 40 8 = 0 → num 48 8 = 0 → num 56 8 = 0 →
      (∀ j, j * tw < M → BurstOk s h xl (entry j) 8 .r 8) →
      tokens (.sind k q d a b) M tw
        (fun j => (littleEndian 8 (fun o => byteAt s s xl (entry j + o)) + fieldOf (h.rg b) 0 16 * num 16 8 +
          (first + j) % btok * num 8 8) % 2 ^ 64)
        fun p => ∃ j, j * tw < M ∧ Bytes (entry j) 8 p) ∧
     (RoomFor s xl (Bytes A 64) → num 30 1 ≠ fieldOf vt 18 4 → EngineFaults s h (exec (.sind k q d a b) s) .stream .illins (h.rg a) 0) ∧
     (let cur := num 20 4
      let win := num 24 4
      let stride := num 28 4
      let nglob := num 32 4
      let T := (List.range (cur + 1)).filter fun t => decide (cur < t + win) || (stride != 0 && t % stride == 0) ||
        (List.range nglob).any fun j => num (36 + 4 * j) 4 == t
      let tw := num 16 4
      nglob ≤ 7 → tokens (.spat k q d a) (min (T.length * tw) h.vl) tw (fun j => (num 0 8 + T.getD j 0 * num 8 8) % 2 ^ 64) fun _ => False) ∧
     (RoomFor s xl (Bytes A 64) → 7 < num 32 4 → EngineFaults s h (exec (.spat k q d a) s) .stream .illins (h.rg a) 0)) ∧
    -- SBIND, and a burst of the bound stream
    (let M := if n32 = 0 then h.vl else n32
     0 < M → M ≤ 256 → M ≤ 256 * h.gcount * elementsPerLane h.vcfg vt → row A → BurstOk s h xl A (bytes M) .r 1 →
     RoomFor s xl (Bytes A (bytes M)) → ∃ (t1 t2 : State) (h1 h2 : Hart) (b1 b2 : Binding), exec (.sbind k q d a b) s = .next t1 ∧
       exec (.streamBurst s.cur q) t1 = .next t2 ∧ t1.hart? s.cur = some h1 ∧ t2.hart? s.cur = some h2 ∧
       (∀ j, j ≠ s.cur → t2.hart? j = s.hart? j) ∧ h2.pc = h.pc + 4 ∧ h1.sq = [] ∧ h1.binds = [(h.seq, b1)] ∧ b1.q = q ∧ b1.vd = d ∧
       b1.grp = g ∧ b1.n = M ∧ b1.w = w ∧ b1.pos = 0 ∧ b1.ring = [] ∧ b1.closed = none ∧
       (vat h1.slots q Slot.reset).bind = some h.seq ∧ (vat h1.slots q Slot.reset).ea = 0 ∧ h2.g = h.g ∧ h2.v = h.v ∧ quiet t2 ∧
       h2.binds = [(h.seq, b2)] ∧ { b2 with ring := [], low := b1.low } = b1 ∧ (vat h2.slots q Slot.reset).ea = M ∧ b2.low = 0 ∧
       ∀ e, e < M → ∃ y, b2.ring[e]? = some y ∧ y < 2 ^ w ∧ ∀ j, j < w → y.testBit j = bit (8 * A + e * w + j)) ∧
    -- SSEND
    (∀ (xd xb : Xlat),
      let num := fun o n : Nat => littleEndian n fun j => byteAt s s xl (A + o + j)
      let dst := num 0 8
      let barw := num 8 8
      let tctx := num 28 1
      let live := (s.ctx tctx).live = true ∧ (s.ctx tctx).gen = num 24 4
      let target := fun (u : State) (va n : Nat) (x : Xlat) => u.walk tctx (dieOf s.cur) true va = some x ∧
        u.rootAway tctx (dieOf s.cur) va = false ∧ x.pte.testBit 2 = true ∧
        (h.sup = true ∨ x.pte.testBit 4 = true) ∧ x.pte.testBit 10 = false ∧ pathOf x ≠ .device ∧
        s.PlainFrame (x.pa / 65536) ∧ s.cutOff s.cur x.pa = false ∧
        x.pa % 65536 + n ≤ 65536
      let i : Instr := .ssend k q c a b
      BurstOk s h xl A 32 .r 8 → tctx < 64 → num 29 1 = 0 → num 30 2 = 0 → barw % 8 = 0 → h.sup = true ∨ tctx = h.ctx →
      0 < n32 → BurstOk s h xl C n32 .r 1 → TlbsAgree s h .stream (fun _ => False) → (RoomFor s xl fun p => Bytes A 32 p ∨ Bytes C n32 p) →
      (live → dst % 65536 + n32 ≤ 65536 → target s dst n32 xd →
        ∃ (t1 t2 t3 : State), exec i s = .next t1 ∧ exec (.streamBurst s.cur q) t1 = .next t2 ∧ quiet t2 ∧
          exec (.ssendBurstArrival s.cur q) t2 = .next t3 ∧
          ((barw ≠ 0 → target t3 barw 8 xb ∧ (xb.pa + 8 ≤ xd.pa ∨ xd.pa + n32 ≤ xb.pa)) → ∃ (t : State) (h' : Hart),
            Bursts s.cur q (if barw = 0 then 1 else 2) t3 t ∧ VmuRan s h t h' ∧ h'.sq = [] ∧ h'.v = h.v ∧ h'.stale = h.stale ∧
            (vat h'.slots q Slot.reset).holder = none ∧ (vat h'.slots q Slot.reset).ea = n32 ∧
            ∀ p, Memory.read t.mem p =
              if xd.pa ≤ p ∧ p < xd.pa + n32 then byteAt s s xl (C + (p - xd.pa))
              else if barw ≠ 0 ∧ xb.pa ≤ p ∧ p < xb.pa + 8 then
                byteOf (((littleEndian 8 fun j => Memory.read s.mem (xb.pa + j)) + num 16 8) % 2 ^ 64) (p - xb.pa)
              else Memory.read s.mem p)) ∧
      (¬ live → ∃ (t1 t : State) (h' : Hart), exec i s = .next t1 ∧ exec (.streamBurst s.cur q) t1 = .next t ∧
        VmuRan s h t h' ∧ h'.sq = [] ∧ h'.v = h.v ∧ h'.stale = min (h.stale + 1) 0xFFFFFFFF ∧ quiet t))) ∧
  -- SUNBIND
  (∀ (s : State) (h : Hart) (q k k0 : Nat) (b : Binding), Runs s h → StreamIdle s h k →
    q < 8 → b.q = q → b.closed = none → h.binds = [(k0, b)] →
    ∃ t h', exec (.sunbind k q) s = .next t ∧ t.hart? s.cur = some h' ∧ (∀ j, j ≠ s.cur → t.hart? j = s.hart? j) ∧
      { t with harts := s.harts, fresh := s.fresh } = s ∧ h'.binds = [] ∧ h'.sq = [] ∧ (vat h'.slots q Slot.reset).bind = none ∧
      (vat h'.slots q Slot.reset).holder = none ∧ h'.pc = h.pc + 4 ∧
      (∀ j, j < 32 → (b.vd ≤ j ∧ j < b.vd + b.grp → (vreg h'.v j).tag = none) ∧
        (¬ (b.vd ≤ j ∧ j < b.vd + b.grp) → vreg h'.v j = vreg h.v j)) ∧
      { h' with binds := h.binds, slots := h.slots, v := h.v, pc := h.pc, tok := h.tok, seq := h.seq, ilk := h.ilk } = h) ∧
  -- SWAIT, SAVAIL, SSTAT
  (∀ (s : State) (h : Hart) (q d b : Nat), Runs s h → q < 8 → d < 32 → b < 32 →
    let t := vat h.slots q Slot.reset
    let n32 := fieldOf (h.rg b) 0 32
    let pending := (∃ e ∈ h.sq, (∀ k, e.op ≠ .sunbind k q) ∧ ∃ k a b c, streamFields e.op = some (q, k, a, b, c)) ∨
      ∃ k x, t.bind = some k ∧ find? h.binds k = some x ∧ t.ea < x.n
    let sel := fieldOf (h.rg b) 0 8
    let held := match t.holder with
      | none => 0
      | some k => if h.sq.any fun e => e.seq == k && (e.stopped || e.frozen.isSome) then 2 else 1
    let x := s.ctx (fieldOf (h.rg b) 8 6)
    (h.wait = none → (∀ y ∈ h.groups, y.st ≠ .parked) → ¬ pending ∨ h.rg b ≠ 0 ∧ n32 ≤ t.ea →
      OnlyHart s (exec (.swait q b) s) h.moved) ∧
    (pending → h.rg b = 0 ∨ t.ea < n32 → ∃ h', OnlyHart s (exec (.swait q b) s) h' ∧ h'.pc = h.pc ∧
      h'.wait = some (.swait q (h.rg b).toNat) ∧ h'.g = h.g ∧ h'.sq = h.sq ∧ h'.slots = h.slots) ∧
    WritesG s h (exec (.savail q d) s) d (BitVec.ofNat 64 t.ea) ∧
    (sel = 0 → WritesG s h (exec (.sstat q d b) s) d
      (BitVec.ofNat 64 ((if t.bind ≠ none then (if t.stopped then 2 else 3) else held) * 2 ^ 62 + t.fn * 2 ^ 56 + t.progress % 2 ^ 32))) ∧
    (sel = 1 → WritesG s h (exec (.sstat q d b) s) d (BitVec.ofNat 64 h.stale)) ∧
    (sel = 2 → ∃ h', OnlyHart s (exec (.sstat q d b) s) h' ∧ h'.stale = 0 ∧
      h.WroteG { h' with stale := h.stale } d (BitVec.ofNat 64 h.stale) (h.pc + 4)) ∧
    (sel = 3 → WritesG s h (exec (.sstat q d b) s) d (BitVec.ofNat 64 (x.gen % 2 ^ 32 + if x.live then 2 ^ 32 else 0))) ∧
    (3 < sel → h.MayTrap → Traps s h (exec (.sstat q d b) s) 0x01 h.pc (BitVec.ofNat 64 (encode (.sstat q d b))))) ∧
  -- SWAIT_WAKE and SLD_G_MULTICAST
  (∀ (s : State) (id q thr : Nat) (h : Hart), s.hart? id = some h → h.wait = some (.swait q thr) → h.sq = [] → (vat h.slots q Slot.reset).bind = none →
    ∃ t h', exec (.swaitWake id) s = .next t ∧ t.hart? id = some h' ∧ h'.wait = none ∧ h'.pc = h.pc ∧ h'.g = h.g ∧
      (∀ j, j ≠ id → t.hart? j = s.hart? j) ∧ { t with harts := s.harts } = s) ∧
  (∀ (s : State) (ctx die num lead : Nat) (k : Nat) (rest : List Nat) (H : Nat → Hart) (E : Nat → Entry),
    let key := ctx * 65536 + die * 256 + num
    num < 256 → s.gangHarts key = lead :: rest → (lead :: rest).Nodup →
    (∀ i ∈ lead :: rest, s.hart? i = some (H i) ∧ (H i).sq = [E i] ∧ (∃ tk q d a b, (E i).op = .sldG tk q d a b) ∧
      (E i).started = true ∧ (E i).eff = 0 ∧ (E i).part.acc = (k : Int) ∧ (E i).runnable = true ∧
      ((H i).slotHeld (E i)).progress = 0) →
    ∃ t, exec (.sldGMulticast ctx die num) s = .next t ∧ { t with harts := s.harts } = s ∧
      (∀ i, i ∉ lead :: rest → t.hart? i = s.hart? i) ∧
      ∀ i ∈ lead :: rest, ∃ h', t.hart? i = some h' ∧
        ((E i).gangParams = (E lead).gangParams → ∃ e, h'.sq = [e] ∧ e.eff = (if i = lead then 1 else 2) ∧
          { e with eff := (E i).eff, gd := (E i).gd } = E i ∧ { h' with sq := (H i).sq } = H i) ∧
        ((E i).gangParams ≠ (E lead).gangParams → h'.qstop = true ∧
          h'.faults = (H i).faults ++ [EFault.mk .stream (E i).slot (E i).pc .gangerr (BitVec.ofNat 64 num) 0 true]))

/-! ### The Weir (R350 to R366) -/

/-- The commands of WCMD and their end (R366), WPCFG.ENABLE (R350), reclaim (R355 to R358), and the way of a held write of a
scalar store: its admission, its report, WOOSREC, REPLAY and CANCEL (R351 to R353, R359 to R361). The sector counts of
frames that are not all zero are the implementation's (R348, log 10). The model's choice (DEDUCED, log 25): DISCARD, SETNONE
and SETLOSSLESS keep COLD and MAXEFF, and a command has its effect at once, WEIR_COMMAND_DONE ending its busy time. -/
def Obligations.WeirEvents : Prop :=
  (∀ (s : State) (d p fr : Nat), s.memOk = true → regionOf (fr * 65536) = .pool d p → p < 2 → s.exists? (fr * 65536) = true →
    (s.pool d p).enabled = true → (s.die d).wcmdst ≠ 1 →
    let f := s.frameInfo fr
    let P := s.pool d p
    let n := sectorsOf (frameCells s.mem fr)
    let back := fun a => match f.slot with
      | some k => if a / 65536 = fr then Memory.read s.mem (0x8000000000000 + (s.die d).whbase + k * 65536 + a % 65536) else Memory.read s.mem a
      | none => Memory.read s.mem a
    let r := sectorsOf (frameCells (s.unslotted fr).mem fr)
    let ends := fun (t : State) (st : Nat) => (t.die d).wcmdst = 1 ∧ (t.die d).wcmdNext = some st
    (n ≤ 128 ∧ (n = 0 ↔ FrameZero s fr) ∧ r ≤ 128 ∧ (r = 0 ↔ ∀ o, o < 65536 → back (fr * 65536 + o) = 0)) ∧
    (∃ t, FrameNow s (exec (.discard d fr) s) d p fr (if f.lossless then { f with sectors := 0, slot := none } else f)
        (if f.lossless then P.free + f.sectors else P.free) t ∧ ends t 0 ∧
      ∀ a, Memory.read t.mem a = if a / 65536 = fr then 0 else Memory.read s.mem a) ∧
    (let fits := f.lossless = true ∧ 128 - f.sectors + P.wcrit ≤ P.free
     (f.lossless = false → ∃ t, FrameNow s (exec (.setnone d fr) s) d p fr f P.free t ∧ ends t 0 ∧ t.mem = s.mem) ∧
     (fits → ∃ t, FrameNow s (exec (.setnone d fr) s) d p fr { f with lossless := false, sectors := 128, slot := none }
       (P.free - (128 - f.sectors)) t ∧ ends t 0 ∧ ∀ a, Memory.read t.mem a = back a) ∧
     (f.lossless = true → ¬ fits → ∃ t, FrameNow s (exec (.setnone d fr) s) d p fr f P.free t ∧ ends t 2 ∧ t.mem = s.mem)) ∧
    (∃ t, FrameNow s (exec (.setlossless d fr) s) d p fr (if f.lossless then f else { f with lossless := true, sectors := n, slot := none })
      (if f.lossless then P.free else P.free + (128 - n)) t ∧ ends t 0 ∧ t.mem = s.mem) ∧
    (let done := f.slot ≠ none ∧ r + P.wcrit ≤ P.free
     ∃ t, FrameNow s (exec (.weirRecall d fr) s) d p fr (if done then { f with sectors := r, slot := none } else f)
        (if done then P.free - r else P.free) t ∧
      ends t (if f.slot ≠ none ∧ ¬ done then 2 else 0) ∧
      ∀ a, Memory.read t.mem a = if done then back a else Memory.read s.mem a)) ∧
  (∀ (s : State) (d fr : Nat), (s.die d).wcmdst = 1 →
    ∀ i ∈ [Instr.discard d fr, .setnone d fr, .setlossless d fr, .weirRecall d fr, .wcmdInvalid d], exec i s = .next s) ∧
  (∀ (s : State) (d fr : Nat), (s.die d).wcmdst ≠ 1 →
    ∀ i ∈ [Instr.discard d fr, .setnone d fr, .setlossless d fr, .weirRecall d fr, .wcmdInvalid d],
      i = .wcmdInvalid d ∨ (∀ p, regionOf (fr * 65536) = .pool d p → s.exists? (fr * 65536) = false ∨ (s.pool d p).enabled = false) →
      exec i s = .next (s.setDie d { s.die d with wcmdst := 1, wcmdNext := some 3 })) ∧
  (∀ (s : State) (d st : Nat), (s.die d).wcmdNext = some st →
    exec (.weirCommandDone d) s = .next (s.setDie d { s.die d with wcmdst := st, wcmdNext := none })) ∧
  (∀ (s : State) (d p : Nat), p < 2 →
    let P := s.pool d p
    let span := P.ratio * poolDram p / 16 / 65536 * 65536
    (P.enabled = true → exec (.poolEnable d p) s = .next s) ∧
    (P.enabled = false → ∃ t, exec (.poolEnable d p) s = .next t ∧ (t.pool d p).enabled = true ∧ (t.pool d p).ratio = P.ratio ∧
      (t.pool d p).free = poolDram p / 512 - span / 65536 ∧
      (∀ fr, regionOf (fr * 65536) = .pool d p → t.frameInfo fr = FrameInfo.mk true 0 false false none) ∧
      (∀ fr, regionOf (fr * 65536) ≠ .pool d p → t.frameInfo fr = s.frameInfo fr) ∧
      (∀ a, Memory.read t.mem a = if poolBase d p ≤ a ∧ a < poolBase d p + span then 0 else Memory.read s.mem a) ∧
      { t with dies := s.dies, mem := s.mem } = s)) ∧
  -- reclaim
  (∀ (s : State) (d p : Nat), s.memOk = true → p < 2 → (s.die d).frames.Pairwise (fun (a b : Nat × FrameInfo) => a.1 < b.1) →
    let P := s.pool d p
    let cold := fun (x : Nat × FrameInfo) => x ∈ (s.die d).frames ∧ x.2.cold = true ∧ x.2.lossless = true ∧ x.2.slot = none ∧
      regionOf (x.1 * 65536) = .pool d p
    let first := fun (q : Nat × FrameInfo → Prop) (x : Nat × FrameInfo) => cold x ∧ q x ∧ ∀ y, cold y → q y → x.1 ≤ y.1
    let low := P.enabled = true ∧ P.free < P.wlow
    let more := 128 ≤ P.free ∧ ∃ x, cold x ∧ x.2.maxeff = false
    let used := fun k => ∃ x ∈ (s.die d).frames, x.2.slot = some k
    let room := ∃ k, k < (s.die d).whslots ∧ ¬ used k
    (¬ low → ∀ i ∈ [Instr.recompress d p, .migrate d p, .balloon d p], exec i s = .next s) ∧
    (low → 128 ≤ P.free → ∀ fr f, first (fun x => x.2.maxeff = false) (fr, f) → (f.sectors = 0 ↔ FrameZero s fr) →
      ∃ t n, FrameNow s (exec (.recompress d p) s) d p fr { f with sectors := n, maxeff := true } (P.free + (f.sectors - n)) t ∧
        n ≤ f.sectors ∧ (n = 0 ↔ FrameZero s fr) ∧ t.mem = s.mem) ∧
    (low → ¬ more → ∀ fr f k, first (fun _ => True) (fr, f) → k < (s.die d).whslots → ¬ used k → (∀ j, j < k → used j) →
      let base := 0x8000000000000 + (s.die d).whbase + k * 65536
      ∃ t, FrameNow s (exec (.migrate d p) s) d p fr { f with sectors := 0, slot := some k } (P.free + f.sectors) t ∧
        ∀ a, Memory.read t.mem a =
          if a / 65536 = fr then 0
          else if base ≤ a ∧ a < base + 65536 then Memory.read s.mem (fr * 65536 + (a - base)) else Memory.read s.mem a) ∧
    (low → ¬ more → ¬ ((∃ x, cold x) ∧ room) →
      (P.lowRaised = true → exec (.balloon d p) s = .next s) ∧
      (P.lowRaised = false → ∀ id h, s.supHart 0 = some id → s.hart? id = some h → ∃ t, exec (.balloon d p) s = .next t ∧
        t.pool d p = { P with step := 3, lowRaised := true } ∧ t.pkg.hevt.testBit 3 = true ∧ t.mem = s.mem ∧
        t.hart? id = some { h with ipend := h.ipend ||| 1, ipval := h.ipval.setIfInBounds 0 (BitVec.ofNat 64 (d + 256 * p)) } ∧
        ∀ j, j ≠ id → t.hart? j = s.hart? j))) ∧
  -- a held write of a scalar store into one frame
  (∀ (s : State) (d p id : Nat) (w : HeldWrite) (h : Hart), regionOf (w.fr * 65536) = .pool d p → p < 2 → (s.die d).held = [w] →
    w.pool = p → w.cells ≠ [] → w.masks = [] → (∀ c ∈ w.cells, c.1 / 65536 = w.fr) → w.wb = none → w.finish = .done none → w.master = .hart id →
    s.hart? id = some h → h.held = some w.id → (∀ q ∈ s.pkg.requesters, q.requests = []) →
    (s.frameInfo w.fr).lossless = true → (s.frameInfo w.fr).slot = none →
    let P := s.pool d p
    let mem := (s.writeMem w.cells).mem
    let n := (s.frameInfo w.fr).sectors
    let n' := sectorsOf (frameCells mem w.fr)
    let va := (find? w.vas w.fr).getD w.va
    let fits := fun thr => n' ≤ n ∨ n' - n + thr ≤ P.free
    let performed := fun o : Out => ∃ t, o = .next t ∧ t.mem = mem ∧ (t.die d).held = [] ∧ (t.pool d p).free = P.free + n - n' ∧
      t.frameInfo w.fr = FrameInfo.mk true n' false false none ∧
      t.hart? id = some { h.moved with held := none } ∧ ∀ j, j ≠ id → t.hart? j = s.hart? j
    let thr := if w.device then 0 else P.wcrit
    (fits thr → performed (exec (.admitHeldWrite d p) s)) ∧ (¬ fits thr → exec (.admitHeldWrite d p) s = .next s) ∧
    (∀ a, w.reported ≠ none → w.handle = BitVec.ofNat 64 a &&& woosNames → s.curCtx = 0 ∨ s.curCtx = w.ctx →
      (fits 128 → performed (exec (.replay d a) s)) ∧
      (¬ fits 128 → ∃ t, exec (.replay d a) s = .next t ∧ (t.die d).held = [{ w with reported := none, since := s.now }] ∧
        t.harts = s.harts ∧ t.mem = s.mem) ∧
      (h.MayTrap → ∃ t h', exec (.cancel d a) s = .next t ∧ (t.die d).held = [] ∧ t.mem = s.mem ∧ t.hart? id = some h' ∧
        h'.held = none ∧ h'.tcInt = false ∧ h'.tcCode = 0x0C ∧ h'.trappc = h.pc &&& 0x007FFFFFFFFFFFFC ∧
        h'.trapval = BitVec.ofNat 64 va ∧ h'.pc = h.trapvec &&& 0x007FFFFFFFFFFFC0 ∧ h'.g = h.g ∧
        ∀ j, j ≠ id → t.hart? j = s.hart? j)) ∧
    (∀ k hk, s.supHart w.ctx = some k → s.hart? k = some hk → hk.held = none →
      (w.reported ≠ none ∨ s.now < w.since + (s.die d).wbound → exec (.weirboundExpiry d w.id) s = .next s) ∧
      (w.reported = none → w.since + (s.die d).wbound ≤ s.now → ∃ t, exec (.weirboundExpiry d w.id) s = .next t ∧
        (t.die d).held = [{ w with reported := some s.fresh, rctx := hk.ctx }] ∧ t.mem = s.mem ∧
        t.hart? k = some { hk with ipend := hk.ipend ||| 8, ipval := hk.ipval.setIfInBounds 3 (BitVec.ofNat 64 va) } ∧
        ∀ j, j ≠ k → t.hart? j = s.hart? j)) ∧
    (∀ hc g, Runs s hc → g < 32 →
      (w.reported ≠ none → w.rctx = hc.ctx → ∃ h', OnlyHart s (exec (.woosrecRead d g) s) h' ∧ h'.woosaddr = w.pa ∧
        { h' with g := hc.g, woosaddr := hc.woosaddr } = hc ∧
        ∀ n, n < 32 → h'.rg n = if n = g ∧ n ≠ 0 then w.handle ||| BitVec.ofNat 64 (2 ^ 23) else hc.rg n) ∧
      (w.reported = none ∨ w.rctx ≠ hc.ctx → ∃ h', OnlyHart s (exec (.woosrecRead d g) s) h' ∧ { h' with g := hc.g } = hc ∧
        ∀ n, n < 32 → h'.rg n = if n = g ∧ n ≠ 0 then 0 else hc.rg n)))

/-! ### The governor and power control (R371 to R392) -/

/-- The governor's evaluation (R381, R382), operating points (R371), GLEARN.CLEAR (R373), droop (R384), waking and gating
(R383, R385), pod budgets (R388, R389, R413), power caps (R390) and the thermal levels (R392). Which amount is lent, the draw
of a station at a point, the energy of an interval and the sensor readings after an event are free values (log 11, log 12,
log 14). The rounding of tend, how a GRANT finds its REQUEST, the ends of leases and the wind-down are log 26, the clock of
the package log 4, and how long a thermal level must have lasted is not asserted (log 40). -/
def Obligations.GovernorAndPower : Prop :=
  ∀ (s : State) (d n : Nat), n < 64 →
    let k := 64 * d + n
    let t := s.stn k
    let pmax := min 15 (min t.thermalCap t.power)
    let f := fun p : Nat => ((6 + p : Nat) : Rat) / 10
    let opened := fun r : StepRec => ∃ p ∈ s.harts, stnOf p.1 = k ∧ p.2.saved = false ∧ p.2.step = some r
    let T := fun r : StepRec => r.d - (s.drc k : Int) - (t.guardNs : Int)
    let left := fun r : StepRec => (r.w.getD 0) - r.done
    let top := fun r : StepRec => left r = 0 ∨ T r ≤ 0
    let need := fun r : StepRec => (256 * left r : Rat) / (r.k * T r)
    let proj := fun r : StepRec => (256 * left r : Rat) / (r.k * f pmax)
    let sat := fun z : Int => BitVec.ofInt 64 (max (-(2 ^ 63)) (min (2 ^ 63 - 1) z))
    let slack := fun r : StepRec => if left r = 0 then T r else ⌊(T r : Rat) - proj r⌋
    let risk := fun r : StepRec => T r ≤ 0 ∨ left r ≠ 0 ∧ (T r : Rat) < proj r
    let meets := fun p => ∀ r, opened r → need r * ((256 + t.margin : Nat) : Rat) / 256 ≤ f p
    let station := fun (i : Instr) (x : Station) => StationNow s (exec i s) k x
    -- GOVERNOR_EVALUATION
    ((∀ r, opened r → 0 < r.k) → ∃ u, exec (.governorEvaluation d n) s = .next u ∧
      { u with harts := s.harts, stations := s.stations, ctxs := s.ctxs, fresh := s.fresh } = s ∧ (∀ j, j ≠ k → u.stn j = s.stn j) ∧
      { u.stn k with target := t.target, eunattr := t.eunattr, efrac := t.efrac, fw := t.fw } = t ∧
      (u.stn k).fw = (s.pkg.updates.filter fun x => x.1 == 2 || x.1 == 3) ∧
      (∀ c, { u.ctx c with energy := (s.ctx c).energy, frac := (s.ctx c).frac } = s.ctx c) ∧
      (∃ E,
        (∀ c x, find? s.ctxs c = some x → (u.ctx c).energy = (x.energy + (x.frac + E * s.groupsIn k c) / 256) % 2 ^ 64 ∧
          (u.ctx c).frac = (x.frac + E * s.groupsIn k c) % 256) ∧
        let rest := 256 * E - (s.ctxs.map fun (c : Nat × Ctx) => E * s.groupsIn k c.1).sum
        (u.stn k).eunattr = (t.eunattr + (t.efrac + rest) / 256) % 2 ^ 64 ∧ (u.stn k).efrac = (t.efrac + rest) % 256) ∧
      ((¬ ∃ r, opened r) → (u.stn k).target = min t.idlept pmax) ∧
      ((∃ r, opened r ∧ top r) → (u.stn k).target = pmax) ∧
      ((∃ r, opened r) → (∀ r, opened r → ¬ top r) → (¬ meets pmax → (u.stn k).target = pmax) ∧
        (meets pmax → (u.stn k).target ≤ pmax ∧ meets (u.stn k).target ∧ ∀ p, p < (u.stn k).target → ¬ meets p)) ∧
      (∀ id, stnOf id ≠ k → u.hart? id = s.hart? id) ∧
      ∀ id h, stnOf id = k → s.hart? id = some h →
        (h.step = none ∨ h.saved = true → u.hart? id = some h) ∧
        ∀ r, h.step = some r → h.saved = false →
          let sid := h.stepid ||| 0x4000000000000000
          (risk r ∧ h.stepid.getLsbD 62 = false → u.hart? id =
            some { h with dlslack := sat (slack r), stepid := sid, ipend := h.ipend ||| 4, ipval := h.ipval.setIfInBounds 2 sid }) ∧
          (¬ (risk r ∧ h.stepid.getLsbD 62 = false) → u.hart? id = some { h with dlslack := sat (slack r) })) ∧
    -- points, learning, permits, gating
    ((t.cur < t.target → station (.operatingPointStep d n) { t with cur := t.cur + 1 }) ∧
     (t.target < t.cur → station (.operatingPointStep d n) { t with cur := t.cur - 1 }) ∧
     (t.cur = t.target → station (.operatingPointStep d n) t)) ∧
    station (.glearnClear d n) { t with learn := [] } ∧
    (∀ b, b < 8 → t.chperm.testBit b = true → (∀ j, j < b → t.chperm.testBit j = false) →
      station (.droopWithdraw d n) { t with chperm := t.chperm - 2 ^ b }) ∧
    ((∀ b, b < 8 → t.chperm.testBit b = false) → exec (.droopWithdraw d n) s = .next s) ∧
    (∀ b, b < 8 → t.chperm.testBit b = false → (∀ j, b < j → j < 8 → t.chperm.testBit j = true) →
      station (.droopRestore d n) { t with chperm := t.chperm + 2 ^ b }) ∧
    ((∀ b, b < 8 → t.chperm.testBit b = true) → exec (.droopRestore d n) s = .next s) ∧
    (n < 36 → t.awake = false → (∀ j, j < n → (s.stn (64 * d + j)).awake = true) →
      station (.stationWake d) { t with awake := true }) ∧
    ((∀ j, j < 36 → (s.stn (64 * d + j)).awake = true) → exec (.stationWake d) s = .next s) ∧
    (∀ c g, c < 4 → g < 64 → ∃ u, exec (.laneGroupGate (4 * k + c) g) s = .next u ∧
      { u with harts := s.harts, stations := s.stations } = s ∧ (∀ j, j ≠ k → u.stn j = s.stn j) ∧
      { u.stn k with gated := t.gated } = t ∧ (∀ x, x ∈ (u.stn k).gated ↔ x = 64 * c + g ∨ x ∈ t.gated) ∧
      ∀ id h, s.hart? id = some h →
        ∃ h', u.hart? id = some h' ∧ { h' with lcache := h.lcache } = h ∧ ∀ l, l ∈ h'.lcache ↔ l ∈ h.lcache ∧
          ¬ (stnOf id = k ∧ ∃ y ∈ h.groups, y.st ≠ .spilled ∧ y.idx = l.idx ∧ 64 * y.core + y.grp = 64 * c + g)) ∧
    -- thermal levels
    (∀ temp, temp < 256 →
      let warm := (s.die d).warn ≤ temp
      let o := exec (.thermalWarning d n temp) s
      (¬ warm ∨ t.throt = true → StationNow s o k { t with temp := temp, throt := decide warm }) ∧
      (warm → t.throt = false → ∃ u, o = .next u ∧ u.stn k = { t with temp := temp, throt := true } ∧
        (∀ j, j ≠ k → u.stn j = s.stn j) ∧ u.pkg.hevt.testBit 9 = true ∧
        { u with stations := s.stations, pkg := s.pkg, out := s.out } = s)) ∧
    (t.throt = true → station (.thermalCapDown d n) { t with thermalCap := t.thermalCap - 1 }) ∧
    (t.throt = false → exec (.thermalCapDown d n) s = .next s) ∧
    (t.throt = true → exec (.thermalCapUp d n) s = .next s) ∧
    (t.throt = false → 5 < (s.die d).warn → ∃ x, x < (s.die d).warn - 5 ∧
      station (.thermalCapUp d n) { t with thermalCap := min 15 (t.thermalCap + 1), temp := x }) ∧
    (0 < (s.die d).warn → ∃ x, x < (s.die d).warn ∧ station (.thermalWarningClear d n) { t with throt := false, temp := x }) ∧
    ((s.die d).warn = 0 → exec (.thermalWarningClear d n) s = .next s) ∧
    -- pod budgets
    (let p := s.pkg
     let now := s.drc 0
     let sum := fun l : List Lease => (l.map Lease.watts).sum
     let cap := p.pbase + sum (p.leases.filter fun l => !l.lent) - sum (p.leases.filter fun l => l.lent)
     let surplus := cap - p.pdraw - p.preserve
     let package := fun (i : Instr) (q : Pkg) (sent : List Sent) => PackageNow s (exec i s) q sent
     let peer := fun j : Nat => j < 32 ∧ p.ppeers.testBit j = true ∧ (s.port j).state = 2
     (∀ tick,
       let demand := (allStations.map fun j => Config.draw tick j (s.stn j).target).sum
       (demand ≤ cap ∨ (∀ j, ¬ peer j) → exec (.budgetShortfall tick) s = .next s) ∧
       (cap < demand → (∃ j, peer j) → ∃ ports : Nat, (∀ j, ports.testBit j = true ↔ peer j) ∧
         package (.budgetShortfall tick)
           { p with rseq := (p.rseq + 1) % 65536, asked := ((p.rseq, now) :: p.asked).take 65536 }
           [.budgetRequest ports p.fabid (demand - cap) p.rseq])) ∧
     (∀ port w q, (surplus = 0 ∨ w = 0 ∨ p.ppeers.testBit port = false ∨ ∃ t0, find? p.answered port = some t0 ∧ now < t0 + 10000) →
       exec (.request port w q) s = .next s) ∧
     (∀ port w q, 0 < surplus → 0 < w → p.ppeers.testBit port = true → (∀ t0, find? p.answered port = some t0 → t0 + 10000 ≤ now) →
       ∃ a, 0 < a ∧ a ≤ surplus ∧ a ≤ w ∧ package (.request port w q)
         { p with leases := p.leases ++ [Lease.mk true a (now + p.please) false], answered := put p.answered port now }
         [.budgetGrant port p.fabid a p.please q]) ∧
     (∀ port w ns q, (∀ x ∈ p.asked, x.1 ≠ q) ∨ p.ppeers.testBit port = false → exec (.grant port w ns q) s = .next s) ∧
     (∀ port w ns q t0, (p.asked.find? fun (x : Nat × Nat) => x.1 == q) = some (q, t0) →
       let tend := t0 + (ns * 127 + 127) / 128
       (tend ≤ now + 20000 → exec (.grant port w ns q) s = .next s) ∧
       (now + 20000 < tend → p.ppeers.testBit port = true → package (.grant port w ns q) { p with leases := p.leases ++ [Lease.mk false w tend false] } [])) ∧
     package .leaseReclaim { p with leases := p.leases.filter fun l => !l.lent || decide (now < l.until_) } [] ∧
     package .leaseEnd { p with leases := p.leases.filter fun l => l.lent || decide (now < l.until_) } [] ∧
     (let due := fun l : Lease => !l.lent && !l.winding && decide (l.until_ ≤ now + 20000)
      (p.leases.any due = false → exec .leaseWindDown s = .next s) ∧
      (p.leases.any due = true → ∃ u, exec .leaseWindDown s = .next u ∧
        u.pkg = { p with leases := p.leases.map fun l => if due l then { l with winding := true } else l } ∧
        { u with stations := s.stations, pkg := s.pkg, fresh := s.fresh } = s ∧
        (∀ j, { u.stn j with power := (s.stn j).power } = s.stn j ∧ (u.stn j).power ≤ (s.stn j).power) ∧
        ((∀ j ∈ allStations, (u.stn j).power = 0) ∨
          (allStations.map fun j => Config.draw s.fresh j (u.stn j).power).sum ≤ cap - sum (p.leases.filter due)))) ∧
     -- power caps: the stations are taken in an order L to lower points, and in the reverse order to raise them
     (let busy := fun j (z : Int) => ∃ p ∈ s.harts, stnOf p.1 = j ∧ p.2.step ≠ none ∧ p.2.dlslack.toInt = z
      let least := fun j z => busy j z ∧ ∀ y, busy j y → z ≤ y
      let before := fun i j => (∃ z, busy j z) ∧ ((∀ y, ¬ busy i y) ∨ ∃ y z, least i y ∧ least j z ∧ z < y)
      let draw := fun q : Nat → Nat => (allStations.map fun j => Config.draw s.fresh j (q j)).sum
      ∃ u L, exec .powerCapUpdate s = .next u ∧ { u with stations := s.stations, pkg := s.pkg, fresh := s.fresh } = s ∧
        L.Perm allStations ∧ L.Pairwise (fun i j => ¬ before j i) ∧
        (∀ j, { u.stn j with power := (s.stn j).power } = s.stn j) ∧ (∀ j, j ∉ L → u.stn j = s.stn j) ∧
        let was := fun j => (s.stn j).power
        let will := fun j => (u.stn j).power
        let after := fun (M : List Nat) m j => if j ∈ M.take m then will j else was j
        let but := fun (q : Nat → Nat) j x i => if i = j then x else q i
        u.pkg = { p with pdraw := draw will % 2 ^ 32 } ∧
        (cap < draw was → ∀ m j, L[m]? = some j → will j ≤ was j ∧ (will j = 0 ∨ draw (after L (m + 1)) ≤ cap) ∧
          ∀ x, will j < x → x ≤ was j → cap < draw (but (after L m) j x)) ∧
        (draw was ≤ cap → ∀ m j, L.reverse[m]? = some j → was j ≤ will j ∧
          (∀ x, was j < x → x ≤ will j → x ≤ 15 ∧ draw (but (after L.reverse m) j x) ≤ cap) ∧
          (will j < 15 → cap < draw (but (after L.reverse m) j (will j + 1))))))

/-! ### The host interface, the fabric and array errors (R398 to R413, R420) -/

/-- Inbound requests to BAR2 and BAR0 (R400, R403), the ordered-notify window (R74, R401), AtomicOps (R399), device-register
stores (R373, R388, R402) and failed outbound requests (R404). Of BAR0 the offsets from 128 MiB on are those outside the pages
of the MSI-X table and of the pending bits, which log 41 leaves out. That a request to BAR0 is written with an offset from
2^36 on, and that it waits for a home that cannot be reached, are log 41 and log 27; an outbound failure that names no master,
or a frozen one, is left alone (log 16). -/
def Obligations.HostInterface : Prop :=
  -- an inbound request to BAR2 within 64 bytes
  (∀ (s : State) (rid wr off len data : Nat), rid < 65536 → 0 < len → off % 64 + len ≤ 64 → off < 2 ^ 36 →
    (∀ q ∈ s.pkg.requesters, q.rid ≠ rid) → s.requesterHeld rid = false → s.memOk = true →
    let o := exec (.inboundMemoryRequest rid wr off len data) s
    let win := vat s.pkg.hwin (off / 2 ^ 32) 0
    let pa := win / 2 ^ 32 % 2 ^ 20 * 2 ^ 32 + off % 2 ^ 32
    let write := wr = 1
    let open_ := win.testBit 63 = true ∧ (write → win.testBit 62 = true)
    let there := s.exists? pa = true ∧ regionOf pa ≠ .host
    let frozen := fun r : Nat =>
      let handle := BitVec.ofNat 64 (2 ^ 63 + r * 2 ^ 48 + rid * 2 ^ 32)
      ∃ t, o = .next t ∧ t.mem = s.mem ∧
        t.pkg.requesters = s.pkg.requesters ++
          [Requester.mk rid r [Inbound.mk (wr == 1) false (wr == 1 && s.inWindow off len) off len data 0 0 none true]] ∧
        (s.supHart 0 = none → t.pkg.hfrozen = handle ∧ t.pkg.hevt.testBit 2 = true ∧ t.harts = s.harts) ∧
        ∀ id h, s.supHart 0 = some id → s.hart? id = some h → (∀ j, j ≠ id → t.hart? j = s.hart? j) ∧
          t.hart? id = some { h with ipend := h.ipend ||| 16, ipval := h.ipval.setIfInBounds 4 handle } ∧
          (h.frozen.isSome = true → t.pkg.hfrozen = handle ∧ t.pkg.hevt.testBit 2 = true)
    (¬ open_ → frozen 0x02) ∧ (open_ → ¬ there → frozen 0x13) ∧
    (open_ → there → s.reaches 0 (homeDie pa) = true → (∀ d x, regionOf pa ≠ .dev d x) →
      (¬ write → (s.frameInfo (pa / 65536)).slot = none → PackageNow s o s.pkg
        [.readData rid (littleEndian len fun i => Memory.read s.mem (pa + i))]) ∧
      (write → s.PlainFrame (pa / 65536) →
        ∃ t, o = .next t ∧ { t with mem := s.mem, watch := s.watch } = s ∧ (Woken s t fun l => l = pa / 64) ∧
          ∀ a, Memory.read t.mem a = if pa ≤ a ∧ a < pa + len then byteOf data (a - pa) else Memory.read s.mem a))) ∧
  -- a write into the ordered-notify window waits for the requester's held writes
  (∀ (s : State) (rid off len data : Nat), 0 < len → off + len ≤ 2 ^ 36 → (∀ q ∈ s.pkg.requesters, q.rid ≠ rid) →
    s.requesterHeld rid = true → s.pkg.onwctl.testBit 0 = true → off / 4096 = s.pkg.onwctl / 4096 →
    PackageNow s (exec (.inboundMemoryRequest rid 1 off len data) s)
      { s.pkg with requesters := s.pkg.requesters ++ [Requester.mk rid 0 [Inbound.mk true false true off len data 0 0 none false]] } []) ∧
  -- requests to BAR0
  (∀ (s : State) (rid len w : Nat), (∀ q ∈ s.pkg.requesters, q.rid ≠ rid) →
    let rd := fun o => exec (.inboundMemoryRequest rid 0 (2 ^ 36 + o) len 0) s
    let wr := fun o => exec (.inboundMemoryRequest rid 1 (2 ^ 36 + o) 8 w) s
    (∀ o, 0x8002000 ≤ o → o < 0x10000000 → PackageNow s (rd o) s.pkg [.readData rid 0] ∧ PackageNow s (wr o) s.pkg []) ∧
    PackageNow s (rd 0) s.pkg [.readData rid (if len = 8 then s.pkg.ctxtbase % 2 ^ 64 else 0)] ∧
    (∀ i, i < 16 → PackageNow s (wr (0x100 + 8 * i))
      { s.pkg with hwin := s.pkg.hwin.setIfInBounds i (w / 2 ^ 62 % 4 * 2 ^ 62 + w / 2 ^ 32 % 2 ^ 20 * 2 ^ 32) } []) ∧
    (∀ d n, d < 8 → n < 36 → s.reaches 0 d = true → StationNow s (wr (d * 0x1000000 + 0x200000 + n * 0x1000 + 8)) (64 * d + n)
      { s.stn (64 * d + n) with margin := w / 2 ^ 40 % 256, guardNs := w / 2 ^ 24 % 65536,
                                interval := max 250 (w / 2 ^ 8 % 65536), idlept := w / 16 % 16 })) ∧
  -- AtomicOps and configuration
  (∀ (s : State) (rid : Nat), PackageNow s (exec (.inboundAtomicop rid) s) s.pkg [.ur rid]) ∧
  (∀ (s : State) (w : Nat),
    PackageNow s (exec (.onwctlWrite w) s) { s.pkg with onwctl := w / 2 ^ 12 % 2 ^ 24 * 2 ^ 12 + w % 2 } []) ∧
  -- stores to device registers
  (∀ (s : State) (w : Nat), let at_ := fun pa => exec (.deviceRegisterWrite pa w) s
    let low := fun n => w % 2 ^ n
    (∀ pa, (∀ d o, regionOf pa ≠ .dev d o) → at_ pa = .next s) ∧
    (∀ pa d o, regionOf pa = .dev d o → pa % 8 ≠ 0 → ∃ t, at_ pa = .next t ∧ { t with watch := s.watch } = s ∧
      Woken s t fun l => l = pa / 64) ∧
    (∀ d n, d < 8 → n < 36 →
      StationNow s (at_ (0xC0000000000 + d * 0x100000000 + 0x200000 + n * 0x1000 + 8)) (64 * d + n)
        { s.stn (64 * d + n) with margin := w / 2 ^ 40 % 256, guardNs := w / 2 ^ 24 % 65536,
                                  interval := max 250 (w / 2 ^ 8 % 65536), idlept := w / 16 % 16 }) ∧
    PackageNow s (at_ 0xC0000000000) { s.pkg with ctxtbase := w / 2 ^ 12 % 2 ^ 40 * 2 ^ 12 } [] ∧
    (∀ i, i < 16 → PackageNow s (at_ (0xC0000000100 + 8 * i))
      { s.pkg with hwin := s.pkg.hwin.setIfInBounds i (w / 2 ^ 62 % 4 * 2 ^ 62 + w / 2 ^ 32 % 2 ^ 20 * 2 ^ 32) } []) ∧
    (∃ e, (∀ b, e.testBit b = true ↔ s.pkg.hevt.testBit b = true ∧ ¬ (b < 11 ∧ w.testBit b = true)) ∧
      PackageNow s (at_ 0xC0000000200) { s.pkg with hevt := e } []) ∧
    PackageNow s (at_ 0xC0000300000) { s.pkg with pbase := low 32 } [] ∧
    PackageNow s (at_ 0xC0000300010) { s.pkg with please := max 1000000 (low 32) } [] ∧
    PackageNow s (at_ 0xC0000300018) { s.pkg with ppeers := low 32 } [] ∧
    PackageNow s (at_ 0xC0000300020) { s.pkg with preserve := low 32 } [] ∧
    PackageNow s (at_ 0xC0000700000) { s.pkg with fabid := low 12 } []) ∧
  -- failed outbound requests
  (∀ (s : State) (id k slot addr : Nat) (h : Hart), s.hart? id = some h → id < 2 ^ 13 → k < 4 → slot < 64 →
    let req := id + k * 2 ^ 13 + slot * 2 ^ 15 + addr * 2 ^ 21
    ∀ i ∈ [Instr.outboundCompletion req, .outboundTimeout req],
    let told := fun t : State => t.mem = s.mem ∧ t.pkg.herr = 0x60 * 2 ^ 52 + 0x8000000000000 + addr % 2 ^ 51 ∧
      t.pkg.hevt.testBit 10 = true
    (k = 3 → (h.frozen.isSome = true → exec i s = .next s) ∧
      (h.frozen = none → ∃ t h', exec i s = .next t ∧ t.hart? id = some h' ∧ h.FrozenAs h' 0x16 ∧ told t)) ∧
    (∀ q : Queue, k = q.code →
      (∀ e, h.entry? q slot = some e → e.frozen = none → ∃ t h' e', exec i s = .next t ∧ t.hart? id = some h' ∧
        h'.entry? q slot = some e' ∧ e'.frozen = some 0x16 ∧ e'.progress = e.progress ∧ e'.op = e.op ∧
        { h' with vq := h.vq, mq := h.mq, sq := h.sq, ipend := h.ipend, ipval := h.ipval } = h ∧ told t) ∧
      (∀ e, h.entry? q slot = some e → e.frozen.isSome = true → exec i s = .next s) ∧
      (h.entry? q slot = none → exec i s = .next s)))

/-- The Towpath (R407, R408), the ports (R410), fabric transfers out and in (R411), frozen masters (R183) and array errors
(R253, R420). A transfer's bytes are read when it leaves (log 21), and what the Towpath cannot reach waits (R407). That a
successful retrain clears the count of its module, that LINK_UP clears the counts, that the state is that of one end, and what
waits for a link, are log 27. The codes by which an array error names what it strikes are the model's own (log 22). -/
def Obligations.FabricAndErrors : Prop :=
  -- the Towpath
  (∀ (s : State) (d j md : Nat) (ok : Bool), j < 2 → md < 16 → let l := s.link d j
    let n := if ok then 0 else getD l.failed md 0 + 1
    ∃ up, (∀ b, up.testBit b = true ↔ l.modup.testBit b = true ∧ ¬ (3 ≤ n ∧ b = md)) ∧
      LinkNow s (exec (.towpathRetryFailure d j (md + if ok then 16 else 0)) s) d j
        (Link.mk (if up = 0 ∧ l.state = 2 then 0 else l.state) (min 0xFFFF (l.retrain + 1)) (min 0xFFFF (l.retry + 1)) up
          (put l.failed md n))) ∧
  (∀ (s : State) (d j mds : Nat), j < 2 → let l := s.link d j
    (mds % 65536 = 0 → exec (.towpathLinkUp d j mds) s = .next s) ∧
    (mds % 65536 ≠ 0 → LinkNow s (exec (.towpathLinkUp d j mds) s) d j (Link.mk 2 l.retrain l.retry (mds % 65536) []))) ∧
  -- the ports
  (∀ (s : State) (p st peer : Nat), p < 32 → st < 3 → s.memOk = true →
    let d := p / 4
    let new := Port.mk st (if st = 2 then peer % 4096 else (s.port p).peer) (s.port p).retry
    let mine := fun e => (s.die e).inflight.filter fun x => x.desc.isNone && x.code.isNone && x.port == p
    let goes := fun (e : Nat) (l : List Xfer) (t : State) => exec (.draborPortState p st peer) s = .next t ∧ t.port p = new ∧
      (∀ q, q ≠ p → t.port q = s.port q) ∧
      (∀ c, { t.die c with ports := (s.die c).ports, inflight := (s.die c).inflight } = s.die c ∧
        (c ≠ d → (t.die c).ports = (s.die c).ports) ∧ (t.die c).inflight = if c = e then l else (s.die c).inflight) ∧
      { t with dies := s.dies, pkg := s.pkg, out := s.out, mem := s.mem, watch := s.watch } = s ∧
      (st = (s.port p).state → t.pkg = s.pkg ∧ t.out = s.out) ∧ (st ≠ (s.port p).state → HostEvent s t 8 s.pkg)
    (st ≠ 0 ∨ (∀ e, mine e = []) → ∃ t, goes d (s.die d).inflight t ∧ t.mem = s.mem) ∧
    (∀ e x, st = 0 → e < 8 → (∀ c, mine c = if c = e then [x] else []) → PlainWord s e x.lpa →
      ∃ t, goes e ((s.die e).inflight.filter fun y => y.id != x.id) t ∧ WordPlus s t x.lpa (2 * 2 ^ 32))) ∧
  -- a post
  (∀ (s : State) (d w : Nat), d < 8 → s.memOk = true →
    let x := s.die d
    let a := w / 64 % 2 ^ 46 * 64
    let f := fun o => Memory.num s.mem (a + o) 8
    let poster := if (s.hart? s.cur).isSome then some s.cur else none
    let y := Xfer.mk s.fresh none true none false poster (f 0x18 % 256) (f 0) (f 8) (f 0x10) (f 0x20) (f 0x28) (f 0x30)
    let bad := 256 ≤ f 0x18 ∨ 31 < f 0x18 ∨ 2 ^ 32 < f 0x10 ∨ f 0x38 ≠ 0 ∨ f 0x20 % 8 ≠ 0 ∨ f 0x30 % 8 ≠ 0 ∨
      ∃ o, o < f 0x10 ∧ s.exists? (f 0 + o) = false
    let down := (s.port y.port).state = 0
    let o := exec (.fpost d w) s
    (64 ≤ x.inflight.length → ∃ t, DieNow s o d { x with ffull := true } [] t ∧ t.mem = s.mem) ∧
    (x.inflight.length < 64 → s.reaches d (homeDie a) = false → ∃ t, t.mem = s.mem ∧
      DieNow s o d
        { x with ffull := false, inflight := x.inflight ++ [Xfer.mk s.fresh (some a) false none false poster 0 0 0 0 0 0 0] } [] t) ∧
    (x.inflight.length < 64 → s.reaches d (homeDie a) = true → s.NoneMigrated → (∀ z ∈ x.inflight, z.id ≠ s.fresh) →
      (¬ bad → ¬ down → s.reaches d (y.port / 4) = true →
        (y.len = 0 ∨ s.reaches d (homeDie y.src) = true ∧ s.reaches d (homeDie (y.src + y.len - 1)) = true) → ∃ t, t.mem = s.mem ∧
        DieNow s o d { x with ffull := false, inflight := x.inflight ++ [y] }
          [.fabric y.port y.dst y.len y.cpa y.inc (Memory.readN s.mem y.src y.len)] t) ∧
      (bad ∨ down →
        (y.lpa % 8 ≠ 0 → ∃ t, DieNow s o d { x with ffull := false } [] t ∧ t.mem = s.mem) ∧
        (PlainWord s d y.lpa → ∃ t, DieNow s o d { x with ffull := false } [] t ∧
          (bad → WordPlus s t y.lpa (2 ^ 32)) ∧ (¬ bad → WordPlus s t y.lpa (2 * 2 ^ 32)))))) ∧
  -- an acknowledgement
  (∀ (s : State) (id code : Nat), s.memOk = true →
    ((∀ p ∈ s.dies, ∀ z ∈ p.2.inflight, z.id = id → z.code ≠ none) → exec (.fabricAck id code) s = .next s) ∧
    (∀ d x, d < 8 → x ∈ (s.die d).inflight → x.id = id → x.code = none → (∀ p ∈ s.dies, ∀ z ∈ p.2.inflight, z.id = id → p.1 = d ∧ z = x) →
      PlainWord s d x.lpa → ∃ t, WordPlus s t x.lpa (if code = 0 then 1 else 3 * 2 ^ 32) ∧
        DieNow s (exec (.fabricAck id code) s) d
          { s.die d with inflight := (s.die d).inflight.filter fun z => z.id != id } [] t)) ∧
  -- a transfer that arrives
  (∀ (s : State) (d dst len data cpa inc : Nat), d < 8 → s.memOk = true →
    let x := s.die d
    let inside := fun a n => x.finsize ≠ 0 ∧ x.finbase ≤ a ∧ a + n ≤ x.finbase + x.finsize * 65536
    let ok := inside dst len ∧ (cpa ≠ 0 → inside cpa 8)
    let o := exec (.fabricTransferArrival d dst len data cpa inc) s
    (¬ ok → ∃ t, t.mem = s.mem ∧ DieNow s o d { x with fdrop := min (2 ^ 32 - 1) (x.fdrop + 1) } [.fabricAck 3] t) ∧
    (ok → s.reaches d (homeDie dst) = false ∨ cpa ≠ 0 ∧ s.reaches d (homeDie cpa) = false → o = .next s) ∧
    (ok → s.reaches d (homeDie dst) = true → s.reaches d (homeDie (dst + len - 1)) = true →
      (∀ a, dst ≤ a → a < dst + len → PlainByte s a ∧ s.reaches d (homeDie a) = true) → PlainWord s d cpa →
      (cpa ≠ 0 → cpa + 8 ≤ dst ∨ dst + len ≤ cpa) →
      ∃ t, DieNow s o d x [.fabricAck 0] t ∧ ∀ a, Memory.read t.mem a =
        if dst ≤ a ∧ a < dst + len then byteOf data (a - dst)
        else if cpa ≠ 0 ∧ cpa ≤ a ∧ a < cpa + 8 then byteOf (Memory.num s.mem cpa 8 + inc) (a - cpa)
        else Memory.read s.mem a)) ∧
  -- frozen masters
  (∀ (s : State) (id : Nat) (h : Hart), s.hart? id = some h → id < 2 ^ 13 → h.ctx < 64 →
    let hd := fun k r => k * 2 ^ 62 + h.ctx * 2 ^ 56 + r * 2 ^ 48 + id
    let only := fun (o : Out) (h' : Hart) => ∃ t, o = .next t ∧ t.hart? id = some h' ∧ (∀ j, j ≠ id → t.hart? j = s.hart? j) ∧
      { t with harts := s.harts, cores := s.cores, fresh := s.fresh } = s
    (h.frozen = none → ∀ r, r < 256 → exec (.unfreeze (hd 0 r)) s = .next s ∧ exec (.destroy (hd 0 r)) s = .next s) ∧
    (∀ x r, h.frozen = some x → h.frozenReason = r → r < 256 →
      (∃ h', only (exec (.unfreeze (hd 0 r)) s) h' ∧ h'.frozen = none ∧ h'.frozenReason = 0 ∧ h'.g = h.g ∧ h'.f = h.f ∧
        (r = 0x01 → h'.tcInt = false ∧ h'.tcCode = x.cause.code ∧ h'.trappc = x.pc &&& 0x007FFFFFFFFFFFFC ∧ h'.trapval = x.val ∧
          h'.pc = h.trapvec &&& 0x007FFFFFFFFFFFC0) ∧
        (r = 0x14 → h'.pc = h.pc ∧ (∀ k, k < 32 → (vreg h'.v k).tag = none)) ∧
        (∀ t, exec (.unfreeze (hd 0 r)) s = .next t → ∀ k (j : Nat), (t.core k).tiles[j]? = (s.core k).tiles[j]?.map fun (T : Tile) =>
          if r = 0x14 ∧ k = coreOf id ∧ T.held = some id then { T with acc := [], flags := 0 } else T) ∧
        (r ≠ 0x01 → r ≠ 0x14 →
          { h' with frozen := h.frozen, frozenReason := h.frozenReason, groups := h.groups } = h)) ∧
      ∃ t, exec (.destroy (hd 0 r)) s = .next t ∧ (∀ j h', t.hart? j = some h' → h'.ctx ≠ h.ctx) ∧ t.mem = s.mem ∧
        (∀ j, (∀ p ∈ s.harts, p.1 = j → p.2.ctx ≠ h.ctx) →
          (∀ x ∈ s.dies, ∀ w ∈ x.2.held, w.target = some h.ctx → w.master.ofHart j = false) → t.hart? j = s.hart? j) ∧
        (t.ctx h.ctx).live = false ∧ (t.ctx h.ctx).gen = ((s.ctx h.ctx).gen + 1) % 2 ^ 32) ∧
    (∀ (q : Queue) k e r, k < 64 → r < 256 → h.entry? q k = some e → e.frozen = some r →
      ∃ h', only (exec (.unfreeze (hd 1 r + q.code * 2 ^ 30 + k * 2 ^ 24)) s) h' ∧
        h'.entry? q k = some { e with frozen := none, stopped := false } ∧
        { h' with vq := h.vq, mq := h.mq, sq := h.sq } = h)) ∧
  (∀ (s : State) (rid r : Nat) (y : Inbound), rid < 65536 → 0 < r → r < 256 → y.frozen = true →
    s.pkg.requesters = [Requester.mk rid r [y]] →
    let hd := 2 ^ 63 + r * 2 ^ 48 + rid * 2 ^ 32
    let gone := { s.pkg with requesters := [] }
    let sent := if y.wr = true then [] else [Sent.ur rid]
    PackageNow s (exec (.unfreeze hd) s) gone sent ∧
    (s.requesterHeld rid = false → ∃ t, exec (.destroy hd) s = .next t ∧ t.pkg = gone ∧ t.out = s.out ++ sent ∧
      t.harts = s.harts ∧ t.mem = s.mem)) ∧
  -- array errors
  (∀ (s : State) (src d pa : Nat), exec (.correctableError src d pa) s = .next s) ∧
  (∀ (s : State) (src d pa id : Nat) (h : Hart), s.hart? id = some h → h.frozen = none → d < 8 → pa < 2 ^ 52 → id < 2 ^ 13 →
    let t := s.stn (stnOf id)
    let o := exec (.uncorrectableError src d pa id) s
    let told := fun (u : State) wher => u.pkg.herr = src % 8 * 2 ^ 56 + d * 2 ^ 52 + wher ∧ u.pkg.hevt.testBit 6 = true
    let freezes := fun reason wher => ∃ u h', o = .next u ∧ told u wher ∧ u.hart? id = some h' ∧ h.FrozenAs h' reason ∧ u.mem = s.mem
    (src = 0 → h.strip = none → pa = 0 → freezes 0x14 id) ∧ (src = 0 → pa = 2 → freezes 0x14 id) ∧ (src = 1 → freezes 0x14 id) ∧
    (src ∈ [2, 4, 5] → freezes 0x15 pa) ∧ (src = 3 → (∃ c ∈ t.dirty, c.1 / 64 = pa / 64) → freezes 0x15 pa) ∧
    (src = 3 → (∀ c ∈ t.dirty, c.1 / 64 ≠ pa / 64) → ∃ u, o = .next u ∧ told u pa ∧ u.harts = s.harts ∧ u.mem = s.mem ∧
      { u.stn (stnOf id) with clean := t.clean } = t ∧ (∀ k, k ≠ stnOf id → u.stn k = s.stn k) ∧
      ∀ l, find? (u.stn (stnOf id)).clean l = if l = pa / 64 then none else find? t.clean l) ∧
    (src = 0 → h.strip = none → pa = 1 → ∃ u, o = .next u ∧ told u id ∧ u.hart? id = some { h with lcache := [] } ∧
      (∀ j, j ≠ id → u.hart? j = s.hart? j) ∧ u.mem = s.mem) ∧
    (src = 0 → 2 < pa → ∃ u, o = .next u ∧ told u id ∧ u.harts = s.harts ∧ u.mem = s.mem) ∧
    (∀ x, src = 0 → h.strip = some x → pa < 2 → ∃ u h', o = .next u ∧ told u id ∧ u.hart? id = some h' ∧ h'.strip = none ∧
      (∃ l, h'.faults = l ++ [EFault.mk .vector 0 0 .stripfatal (BitVec.ofNat 64 x.base) x.base false] ∧ l.Sublist h.faults) ∧
      (∀ q, h'.entries q = (h.entries q).filter fun e => decide (e.seq < x.seq)) ∧ (∀ b ∈ h'.binds, b.1 < x.seq) ∧ h'.pc = h.pc ∧
      (∀ k, k < 32 → (vreg h'.v k).tag = none) ∧ h'.g = h.g ∧ h'.f = h.f ∧ u.mem = s.mem) ∧
    (∀ (q : Queue) (slot : Nat) (e : Entry), src ∈ [2, 4, 5] ∨ src = 3 ∧ (∃ c ∈ t.dirty, c.1 / 64 = pa / 64) → slot < 64 →
      h.entry? q slot = some e → e.frozen = none →
      ∃ u h' e', exec (.uncorrectableError src d pa (id + (q.code + 1) * 2 ^ 13 + slot * 2 ^ 15)) s = .next u ∧ told u pa ∧
        u.hart? id = some h' ∧ h'.entry? q slot = some e' ∧ e'.frozen = some 0x15 ∧ e'.progress = e.progress ∧ e'.op = e.op ∧
        { h' with vq := h.vq, mq := h.mq, sq := h.sq, ipend := h.ipend, ipval := h.ipval } = h ∧ u.mem = s.mem) ∧
    (8 ≤ src → ∃ u, o = .next u ∧ told u (if src % 8 ≤ 1 then id else pa) ∧ Sent.abort id ∈ u.out ∧ u.harts = s.harts ∧
      u.mem = s.mem ∧ u.stations = s.stations))

/-! ### The service controller, boot, power and the thermal save (R391 to R397, R414 to R425) -/

/-- Service commands (R415 to R419): what each does when the controller is idle, its refusals and invalid arguments, their
end, the drain of a station, and the march test (R421 to R424). That RETIRE of a retired pseudo-channel ends well, that
stations above 35 are refused, and the registers after SWAP, are log 28; the march's pattern, the rows that harts have left,
MSTAT.BUSY and the target whose rows FAILS counts are log 22; the line that a fill displaces is log 9. -/
def Obligations.ServiceCommands : Prop :=
  ∀ (s : State), let p := s.pkg
    let ends := fun (o : Out) (q : Pkg) (st detail : Nat) =>
      PackageNow s o { q with svcst := 1, svcNext := st, svcDetail := detail, svcOp := none } []
    -- a busy controller ignores commands; a command ends
    (∀ a b c, p.svcst = 1 → ∀ i ∈ [Instr.loadimg a b, .attest a, .start a b c, .drain a, .swap a, .undrain a, .retire a,
      .svcInvalid a], exec i s = .next s) ∧
    (let waits := p.svcOp ≠ none ∨ ∃ x ∈ s.dies, ∃ w ∈ x.2.held, w.master = .inbound 65544
     (p.svcst ≠ 1 ∨ waits → exec .svcCommandEnd s = .next s) ∧
     (p.svcst = 1 → ¬ waits → ∃ t, exec .svcCommandEnd s = .next t ∧ HostEvent s t 7 { p with svcst := p.svcNext } ∧
      { t with pkg := s.pkg, out := s.out } = s)) ∧
    (p.svcst ≠ 1 → (∀ op, ends (exec (.svcInvalid op) s) p 3 0) ∧
      -- LOADIMG
      (∀ a b, a < 2 ^ 64 → b < 2 ^ 64 → s.NoneMigrated →
        let f := fun o n => Memory.num s.mem (a + o) n
        let bytes := fun o n => Memory.readN s.mem (a + o) n
        let kind := f 6 2
        let len := f 0xC 4
        let wrong := f 0 4 ≠ 0x4C58494D ∨ f 4 2 ≠ 1 ∨ kind < 1 ∨ 4 < kind ∨ len < 1 ∨ 0x1000000 < len ∨ f 0x10 16 ≠ 0
        let near := s.reaches 0 (homeDie a) = true ∧ s.reaches 0 (homeDie (a + 0xC0 - 1)) = true ∧
          s.reaches 0 (homeDie (a + (0xC0 + min len 0x1000000) - 1)) = true
        let good := (sha512 (bytes 0x60 32)).take 32 = Config.vendorKeyHash ∧
          ed25519Verify (bytes 0x60 32) (bytes 0 0x80) (bytes 0x80 64) = true ∧
          sha512 (bytes 0xC0 len) = bytes 0x20 64 ∧ s.minSvn kind ≤ f 8 4
        (2 ^ 52 ≤ a ∨ 2 ≤ b → ends (exec (.loadimg a b) s) p 3 0) ∧
        (a < 2 ^ 52 → b < 2 → ¬ near →
          PackageNow s (exec (.loadimg a b) s) { p with svcst := 1, svcDetail := 0, svcOp := some (1, a, b) } []) ∧
        (a < 2 ^ 52 → b < 2 → near →
         (wrong → ends (exec (.loadimg a b) s) p 3 0) ∧ (¬ wrong → ¬ good → ends (exec (.loadimg a b) s) p 2 0) ∧
         (¬ wrong → good → ends (exec (.loadimg a b) s)
          { p with meas := sha512 (p.meas ++ toBytes 4 kind ++ bytes 0x20 64),
                   flash := put p.flash kind (bytes 0 (0xC0 + len)), updates := put p.updates kind (bytes 0x20 64),
                   svn := if b = 1 then put p.svn kind (f 8 4) else p.svn } 0 0))) ∧
      -- ATTEST
      (∀ a, a < 2 ^ 64 →
        let body := toBytes 4 0x4C584154 ++ toBytes 4 1 ++ toBytes 8 (p.reports + 1) ++ Memory.readN s.mem a 32 ++ p.meas ++
          toBytes 4 (s.minSvn 1) ++ toBytes 4 (s.minSvn 2) ++ toBytes 4 (s.minSvn 3) ++ toBytes 4 (s.minSvn 4) ++ attestKey
        let r := body ++ attestSign body ++ toBytes 4 Config.certChain.length ++ Config.certChain
        (2 ^ 52 ≤ a → ends (exec (.attest a) s) p 3 0) ∧
        (a < 2 ^ 52 → s.memOk = true → s.NoneMigrated → s.reaches 0 (homeDie a) = true → s.reaches 0 (homeDie (a + 31)) = true →
          (∀ x, a + 0x40 ≤ x → x < a + 0x40 + r.length → PlainByte s x ∧ s.reaches 0 (homeDie x) = true) → ∃ t, exec (.attest a) s = .next t ∧
          t.pkg = { p with reports := p.reports + 1, svcst := 1, svcNext := 0, svcDetail := r.length, svcOp := none } ∧
          { t with pkg := s.pkg, mem := s.mem, watch := s.watch } = s ∧ ∀ x, Memory.read t.mem x =
            if a + 0x40 ≤ x ∧ x < a + 0x40 + r.length then (r[x - (a + 0x40)]?).getD 0 else Memory.read s.mem x)) ∧
      -- START
      (∀ a b c, a < 2 ^ 64 → let bad := 2 ^ 13 ≤ a ∨ 35 < a / 16 % 64
        let busy := (s.hart? a).isSome = true ∨ (s.stn (a / 16)).state ≠ 0
        (bad → ends (exec (.start a b c) s) p 3 0) ∧ (¬ bad → busy → ends (exec (.start a b c) s) p 2 0) ∧
        (¬ bad → ¬ busy → ∃ t q, exec (.start a b c) s = .next t ∧ t.hart? a = some q ∧
          t.pkg = { p with svcst := 1, svcNext := 0, svcDetail := a, svcOp := none } ∧ (t.ctx 0).live = true ∧ t.mem = s.mem ∧
          (∀ j, j ≠ a → t.hart? j = (s.hart? j).map fun h => if h.ctx = 0 then { h with status := h.status &&& ~~~0x10 } else h) ∧
          q.ctx = 0 ∧ q.sup = true ∧ q.svh = true ∧ q.ie = false ∧ q.prio = 7 ∧ q.pc = BitVec.ofNat 64 b &&& ~~~3 ∧
          q.vl = 0 ∧ q.vcfg = 0x802 ∧ q.idleQueues = true ∧ (∀ n, n < 16 → q.rf n = 0) ∧
          ∀ n, n < 32 → q.rg n = if n = 1 then BitVec.ofNat 64 c else 0)) ∧
      -- DRAIN, SWAP, UNDRAIN
      (∀ a, a < 2 ^ 64 → let k := a / 256 * 64 + a % 64
        let bad := 2 ^ 11 ≤ a ∨ a / 64 % 4 ≠ 0
        let station := fun (o : Out) (x : Station) => ∃ t, o = .next t ∧ t.stn k = x ∧ (∀ j, j ≠ k → t.stn j = s.stn j) ∧
          t.pkg = { p with svcst := 1, svcNext := 0, svcDetail := 0, svcOp := none } ∧ t.mem = s.mem
        (bad → ∀ i ∈ [Instr.drain a, .swap a, .undrain a], ends (exec i s) p 3 0) ∧
        (¬ bad → 36 ≤ a % 64 ∨ (s.stn k).state ≠ 0 → ends (exec (.drain a) s) p 2 0) ∧
        (¬ bad → a % 64 < 36 → (s.stn k).state = 0 → station (exec (.drain a) s) { s.stn k with state := 1 } ∧
          ∃ t, exec (.drain a) s = .next t ∧ ∀ j, t.hart? j = (s.hart? j).map fun h =>
            if stnOf j = k then { h with ipend := h.ipend ||| 2, ipval := h.ipval.setIfInBounds 1 0 } else h) ∧
        (¬ bad → 36 ≤ a % 64 ∨ (s.stn k).state ≠ 2 ∨ (s.spare (a / 256)).1 ≠ 0 → ends (exec (.swap a) s) p 2 0) ∧
        (¬ bad → a % 64 < 36 → (s.stn k).state = 2 → (s.spare (a / 256)).1 = 0 → Station.reset.temp < (s.die (a / 256)).warn →
          station (exec (.swap a) s) { Station.reset with drcBase := (s.stn (a / 256 * 64 + 36)).drcBase } ∧
          ∃ t, exec (.swap a) s = .next t ∧ t.spare (a / 256) = (1, a % 64) ∧ t.harts = s.harts ∧
            ∀ c, c < 4 → t.core (4 * k + c) = s.core (a / 256 * 256 + 144 + c) ∧
              t.core (a / 256 * 256 + 144 + c) = { Core.reset with defects := (s.core (4 * k + c)).defects }) ∧
        (¬ bad → 36 ≤ a % 64 ∨ (s.stn k).state = 3 → ends (exec (.undrain a) s) p 2 0) ∧
        (¬ bad → a % 64 < 36 → (s.stn k).state ≠ 3 → station (exec (.undrain a) s) { s.stn k with state := 0 })) ∧
      -- RETIRE
      (∀ a, a < 2 ^ 64 → let bad := 2 ^ 11 ≤ a ∨ a / 128 % 2 ≠ 0
        let d := a / 256
        let c := a % 128
        let P := s.pool d 0
        (bad → ends (exec (.retire a) s) p 3 0) ∧ (¬ bad → c ∈ P.retired → ends (exec (.retire a) s) p 0 0) ∧
        (¬ bad → c ∉ P.retired → P.enabled = false ∨ P.free < 1572864 + P.wlow → ends (exec (.retire a) s) p 2 0) ∧
        (¬ bad → c ∉ P.retired → P.enabled = true → 1572864 + P.wlow ≤ P.free → ∃ t, exec (.retire a) s = .next t ∧
          t.pool d 0 = { P with retired := c :: P.retired, free := P.free - 1572864, step := 0, lowRaised := false } ∧
          t.pool d 1 = s.pool d 1 ∧ (∀ e, e ≠ d → t.die e = s.die e) ∧
          t.pkg = { p with svcst := 1, svcNext := 0, svcDetail := 0, svcOp := none } ∧ { t with dies := s.dies, pkg := s.pkg } = s))) ∧
    -- the drain of a station, and its caches (R112, R418)
    (∀ d n l, let k := 64 * d + n
      let t := s.stn k
      let here := ∃ q ∈ s.harts, stnOf q.1 = k
      let part := t.dirty.filter fun c => c.1 / 64 == l
      let written := fun (o : Out) => ∃ u, o = .next u ∧ u.mem = Memory.writeAll s.mem part ∧
        { u with mem := s.mem, stations := s.stations, watch := s.watch } = s ∧ (∀ j, j ≠ k → u.stn j = s.stn j) ∧
        (u.stn k).dirty = t.dirty.filter (fun c => c.1 / 64 != l)
      (t.state ≠ 1 ∨ here → exec (.stationDrained d n) s = .next s) ∧
      (t.state = 1 → ¬ here → t.dirty = [] → ∃ u, exec (.stationDrained d n) s = .next u ∧ u.stn k = { t with clean := [], state := 2 } ∧
        (∀ j, j ≠ k → u.stn j = s.stn j) ∧ { u with stations := s.stations, cores := s.cores, fresh := s.fresh } = s ∧
        ∀ c, { u.core c with pattern := (s.core c).pattern } = s.core c ∧ (c / 4 ≠ k → u.core c = s.core c)) ∧
      (part = [] ∨ s.reaches (k / 64) (homeDie (l * 64)) = false → exec (.stationCacheWriteback d n l) s = .next s) ∧
      (part ≠ [] → s.reaches (k / 64) (homeDie (l * 64)) = true → PlainByte s (l * 64) → written (exec (.stationCacheWriteback d n l) s) ∧
        ∃ u, exec (.stationCacheWriteback d n l) s = .next u ∧ { u.stn k with dirty := t.dirty, clean := t.clean } = t ∧
          ∀ j, j ≠ l → find? (u.stn k).clean j = find? t.clean j) ∧
      let may := s.exists? (l * 64) = true ∧ (s.frameInfo (l / 1024)).slot = none ∧
        ((∃ e q, regionOf (l * 64) = .pool e q) ∨ regionOf (l * 64) = .host)
      let goes := may ∧ s.reaches d (homeDie (l * 64)) = true
      let line := Memory.readN s.mem (l * 64) 64
      (¬ goes ∨ (find? t.clean l).isSome = true → exec (.stationCacheFill d n l) s = .next s) ∧
      (goes → find? t.clean l = none → t.full l = false →
        StationNow s (exec (.stationCacheFill d n l) s) k { t with clean := put t.clean l line }) ∧
      (goes → t.full l = true → t.sliceClean (l % 16) = [] → exec (.stationCacheFill d n l) s = .next s) ∧
      (∀ j r, goes → t.full l = true → t.sliceClean (l % 16) = j :: r →
        StationNow s (exec (.stationCacheFill d n l) s) k { t with clean := put (erase t.clean j) l line })) ∧
    -- the march test of a core that has a block (R422 to R424)
    (∀ d k w, k < 144 → let c := s.core (256 * d + k)
      let tg := w / 2 ^ 16 % 4
      let read := w / 2 ^ 4 % 4
      let write := w % 4
      let may := p.boot = 0 ∨ (s.stn (64 * d + k / 4)).state = 2
      let ok := may ∧ read ≠ 3 ∧ write ≠ 3
      let base := 0x80000000000 + d * 0x40000000 + k * 0x200000
      let core := fun (i : Instr) (x : Core) => CoreNow s (exec i s) (256 * d + k) x
      (¬ ok → ∀ i ∈ [Instr.marchElement d k w, .marchFinish d k w], core i { c with merr := true }) ∧
      (ok → read = 0 → tg = 2 → write ≠ 0 → ∃ x, core (.marchElement d k w) x ∧ x.fails = c.fails ∧ x.merr = false ∧ x.target = tg ∧
        ∀ (T : Tile) i, i < 4 → x.tiles[i]? = some T →
          ∀ j, getD T.acc j 0 = if write = 2 ∧ j < 8192 then 2 ^ 136 - 1 else 0) ∧
      (ok → read = 0 → tg = 3 → write ≠ 0 → ∃ u, exec (.marchElement d k w) s = .next u ∧
        { u with mem := s.mem, cores := s.cores } = s ∧ u.core (256 * d + k) = { c with merr := false, target := tg } ∧
        ∀ a, Memory.read u.mem a =
          if base ≤ a ∧ a < base + 0x200000 then (if write = 2 then 0xFF else 0) else Memory.read s.mem a) ∧
      (ok → tg = 0 ∨ tg = 1 → (∀ x ∈ c.defects, x.target ≠ tg) → (read ≠ 0 → vat c.pattern tg 1 = read) →
        ∃ u, exec (.marchElement d k w) s = .next u ∧ u.mem = s.mem ∧
          u.core (256 * d + k) = { c with merr := false, target := tg, pattern := if write = 0 then c.pattern else c.pattern.setIfInBounds tg write } ∧
          ∀ j h, s.hart? j = some h → ∃ h', u.hart? j = some h' ∧ h'.pc = h.pc ∧ h'.g = h.g ∧
            (coreOf j ≠ 256 * d + k → h' = h) ∧ (coreOf j = 256 * d + k → ∀ r, r < 32 → (vreg h'.v r).tag = none)) ∧
      let spares := ∀ j, j < 4 → (s.core (256 * d + 144 + j)).unrep = 0
      (ok → p.marched = true → spares → (∀ f ∈ c.fails, f.1 ≠ tg) →
        core (.marchFinish d k w) { c with merr := false, target := tg, fin := c.fin ||| 2 ^ tg }) ∧
      (∀ m r, ok → p.marched = true → spares → c.fails = [(tg, m, r)] → c.rpt.length < 32 →
        (∀ e ∈ c.rpt, ¬ (e.unrep = false ∧ e.target = tg ∧ e.macroNo = m ∧ e.spare = 0)) →
        (∀ x ∈ c.defects, ¬ (x.target = tg ∧ x.macroNo = m ∧ x.row = rowsOf tg)) →
        core (.marchFinish d k w)
          { c with merr := false, target := tg, fin := c.fin ||| 2 ^ tg, fails := [], rpt := c.rpt ++ [Rpt.mk false tg m r 0] }))

/-- Reset and power of the package (R396, R397, R414, R415), ARM (R391) and the thermal save (R393, R395, R396): what each keeps
and what it leaves. The images delivered in flash are free values, and one of kinds 2 to 4 that fails its checks is not
installed (log 15). What of memory a reset and a trip keep, LPDDR6 read as 0 after a trip, ESKEPT, ESLOST and ESSCAN 0 after a
package reset, and the frames kept, are log 29; ARM of an area of no frame is log 30. -/
def Obligations.BootPowerAndSave : Prop :=
  ∀ (s : State),
    let hbm := fun a => ∃ d, regionOf a = .pool d 0
    let spm := fun a => ∃ d k, regionOf a = .spm d k
    let kept := fun (t : State) (P : Nat → Prop) => ∀ a, (P a → Memory.read t.mem a = Memory.read s.mem a) ∧
      (¬ P a → Memory.read t.mem a = 0)
    let image := fun k => (find? s.pkg.flash k).getD (Config.delivered k)
    let field := fun (img : List Byte) (o n : Nat) => ofBytes ((img.drop o).take n)
    let part := fun (img : List Byte) (o n : Nat) => (img.drop o).take n
    let digest := fun img : List Byte => part img 0x20 64
    let extend := fun (m : List Byte) (k : Nat) =>
      if s.imageCheck (image k) = 0 then sha512 (m ++ toBytes 4 (field (image k) 6 2) ++ digest (image k)) else m
    let booted := fun t : State => t.harts = [] ∧ (∀ c, (t.ctx c).live = false) ∧ t.pkg.powered = true ∧
      (t.pkg.boot = 1 ∨ t.pkg.boot = 2) ∧ t.pkg.hevt.testBit 0 = true ∧ t.pkg.hevten = 0 ∧ t.pkg.flash = s.pkg.flash ∧
      t.pkg.svn = s.pkg.svn ∧ t.tlb = [] ∧ (∀ d p, p < 2 → (t.pool d p).enabled = false) ∧
      (t.pkg.boot = 1 ↔ s.imageCheck (image 1) = 0) ∧
      (t.pkg.boot = 2 → t.pkg.meas = List.replicate 64 0 ∧ t.pkg.installed = []) ∧
      (t.pkg.boot = 1 → t.pkg.meas = [1, 2, 3, 4].foldl extend (List.replicate 64 0) ∧
        ∀ k ∈ [1, 2, 3, 4], find? t.pkg.installed k = if s.imageCheck (image k) = 0 then some (digest (image k)) else none) ∧
      (t.pkg.boot = 1 → t.pkg.hevt.testBit 1 = true ∧ t.pkg.hevt.testBit 8 = true ∧ t.pkg.marched = true ∧
        ∀ d j, d < 8 → j < 2 → (t.link d j).state = 2 ∧ (t.link d j).modup = 0xFFFF)
    (∀ img, s.imageCheck img = 0 ↔
      field img 0 4 = 0x4C58494D ∧ field img 4 2 = 1 ∧ 1 ≤ field img 6 2 ∧ field img 6 2 ≤ 4 ∧ 1 ≤ field img 0xC 4 ∧
        field img 0xC 4 ≤ 0x1000000 ∧ field img 0x10 16 = 0 ∧ (sha512 (part img 0x60 32)).take 32 = Config.vendorKeyHash ∧
        ed25519Verify (part img 0x60 32) (part img 0 0x80) (part img 0x80 64) = true ∧
        sha512 (part img 0xC0 (field img 0xC 4)) = digest img ∧ s.minSvn (field img 6 2) ≤ field img 8 4) ∧
    (∃ t, exec .packageReset s = .next t ∧ booted t ∧ kept t (fun a => ¬ spm a) ∧
      (∀ f, f ∈ t.frames ↔ f ∈ s.frames ∧ f.emergency = true) ∧ t.pkg.eskept = 0 ∧ t.pkg.eslost = 0 ∧ t.pkg.esscan = 0 ∧
      t.pkg.eshad = s.pkg.eshad ∧
      ((∀ c ∈ s.cores, c.2.defects = []) → ∀ k, (t.stn k).state = 0 ∧ (t.stn k).dirty = [])) ∧
    (∃ t, exec .trip s = .next t ∧ t.harts = [] ∧ t.pkg.powered = false ∧ kept t (fun a => hbm a ∨ regionOf a = .host) ∧
      t.frames = s.frames ∧ t.pkg.flash = s.pkg.flash ∧ t.pkg.svn = s.pkg.svn ∧ t.pkg.eshad = s.pkg.eshad ∧
      ∀ d, (t.die d).egen = (s.die d).egen ∧ (t.die d).esstate = (s.die d).esstate ∧ (t.die d).arm = (s.die d).arm ∧
        (t.die d).esbase = (s.die d).esbase ∧ (t.die d).essize = (s.die d).essize) ∧
    (s.pkg.powered = true → exec .powerUp s = .next s) ∧
    (s.pkg.powered = false → ∃ t, exec .powerUp s = .next t ∧ booted t ∧ t.now = 0 ∧
      (t.pkg.boot = 1 → (∀ d, d < 8 → (t.die d).esstate = 0 ∧ (t.die d).arm = false) ∧
        (∀ f ∈ t.frames, t.pkg.eskept.testBit f.ctx = true) ∧
        ((∀ d, d < 8 → (s.die d).esstate = 0 ∨ Memory.num s.mem (s.die d).esbase 4 ≠ 0x4C584548) →
          t.pkg.eskept = 0 ∧ t.pkg.eslost = 0 ∧ t.frames = [] ∧
          ((∃ d, d < 8 ∧ 2 ≤ (s.die d).esstate) → t.pkg.esscan = 2) ∧
          ((∀ d, d < 8 → (s.die d).esstate < 2) → t.pkg.esscan = 0) ∧
          kept t fun a => hbm a ∨ regionOf a = .host))) ∧
    (∃ t, exec .standbyPowerApplied s = .next t ∧ { t with dies := s.dies } = s ∧ ∀ d, t.die d = (s.die d).noStandby) ∧
    (∃ t, exec .standbyPowerLoss s = .next t ∧ { t with dies := s.dies, mem := s.mem } = s ∧
      (∀ d, t.die d = (s.die d).noStandby) ∧ kept t fun a => ¬ hbm a) ∧
    (∀ d, let x := s.die d
      let may := ∀ i, i < x.essize → regionOf ((x.esbase / 65536 + i) * 65536) = .pool d 0 ∧
        s.exists? ((x.esbase / 65536 + i) * 65536) = true ∧ s.lossless (x.esbase / 65536 + i) = false
      (¬ may → exec (.arm d) s = .next s) ∧
      (may → ∃ t, DieNow s (exec (.arm d) s) d { x with arm := true, esstate := 1, egen := (x.egen + 1) % 2 ^ 32 } [] t ∧
        t.mem = s.mem)) ∧
    -- a reading at or above CRIT saves; one at or above 115 degrees removes core power, whatever CRIT is (R393, R396)
    (∀ d n temp, temp < 256 → n < 64 → let k := 64 * d + n
      let warm := decide ((s.die d).warn ≤ temp)
      let saves := (s.die d).crit ≤ temp ∧ s.pkg.boot ≠ 3
      let on := s.pkg.powered = true
      let o := exec (.emergencySave d n temp) s
      (∀ x ∈ s.stations, x.1 ≠ k → x.2.temp < 115 ∧ (x.2.temp < (s.die (x.1 / 64)).crit ∨ s.pkg.boot = 3)) →
      (¬ on ∨ ¬ saves ∧ temp < 115 → ∃ t, o = .next t ∧ t.stn k = { s.stn k with temp := temp, throt := warm } ∧
        (∀ j, j ≠ k → t.stn j = s.stn j) ∧ { t with stations := s.stations, pkg := s.pkg, out := s.out } = s) ∧
      (on → 115 ≤ temp → ∃ t, o = .next t ∧ t.harts = [] ∧ t.pkg.powered = false ∧
        (¬ saves → t.frames = s.frames ∧ ∀ e, (t.die e).esstate = (s.die e).esstate) ∧
        (s.harts = [] → t.frames = s.frames ∧ t.pkg.flash = s.pkg.flash ∧ t.pkg.svn = s.pkg.svn ∧
          ∀ e, e < 8 → (s.die e).esstate = 0 → (t.die e).esstate = 0)) ∧
      (on → saves → temp < 115 → ∃ t, o = .next t ∧ t.harts = [] ∧ t.pkg.boot = 3 ∧ t.pkg.hevt.testBit 5 = true ∧
        (s.harts = [] → (∀ e, e < 8 → (s.die e).esstate = 0) → t.mem = s.mem ∧ t.dies = s.dies ∧ t.frames = s.frames) ∧
        ∀ e, s.harts = [] → e < 8 → (s.die e).esstate ≠ 0 → (∀ i, i < 8 → i ≠ e → (s.die i).esstate = 0) → 1 ≤ (s.die e).essize →
          (s.die e).esbase % 65536 = 0 → s.PlainFrame ((s.die e).esbase / 65536) →
          let b := (s.die e).esbase
          let f := fun o n => Memory.num t.mem (b + o) n
          t.die e = { s.die e with esstate := 3 } ∧ f 0 4 = 0x4C584548 ∧ f 4 2 = 1 ∧ f 6 2 = e ∧
            f 8 8 = (s.die e).egen % 2 ^ 64 ∧ (∀ c, c < 64 → ((f 0x10 8).testBit c = true ↔ (s.ctx c).live = true)) ∧
            f 0x40 4 = 0x4C584553 ∧ f 0x46 2 = 0x1FFF ∧ f 0x80 4 = 0x4C585345 ∧
            (∀ a, ¬ (b ≤ a ∧ a < b + 0x90) → Memory.read t.mem a = Memory.read s.mem a)))

/-! ### What happens to a hart between its instructions (R17, R72, R79 to R109, R152, R180) -/

/-- Waits that end, parking, refills and re-deals (R72, R79, R84, R85, R87), traps and interrupts at a boundary (R100, R177 to
R180), the slice (R107, R108), the sequencer (R91, R94, R95) and the writes that have events of their own (R23, R152). The
model's choices: EFFECTIVE reads SLICE until the first restore, and a hart that is saved or restored raises no PREEMPT (log
32); the clock in which a wait's 2^20 cycles are counted (log 4); the bytes a refill reads (`readSpill`, log 7); a hart that
is joining a convoy takes no trap before it has joined (log 46). -/
def Obligations.HartEvents : Prop :=
  ∀ (s : State) (id : Nat) (h : Hart), s.hart? id = some h →
    let now := fun (i : Instr) (h' : Hart) => ∃ t, exec i s = .next t ∧ t.hart? id = some h' ∧
      (∀ j, j ≠ id → t.hart? j = s.hart? j) ∧ { t with harts := s.harts } = s
    let mayTake := h.frozen = none ∧ (∀ d g, h.wait ≠ some (.restore d g)) ∧ ∀ a b c d, h.wait ≠ some (.yard a b c d)
    -- queues, waits and parking
    (∀ q : Queue, (h.full q = true → exec (.queueEntryFree id q.code) s = .next s) ∧
      (h.full q = false → exec (.queueEntryFree id q.code) s = .next { s with cur := id })) ∧
    (let parks := h.frozen.isSome = true ∨ ∃ w, h.wait = some w ∧ (∀ a b c d, w ≠ .yard a b c d) ∧ ∀ a b, w ≠ .restore a b
     (parks → h.vq = [] → now (.parking id) { h with groups := h.parked }) ∧ (¬ parks ∨ h.vq ≠ [] → now (.parking id) h)) ∧
    -- WAITW: once a write has ended its watch it reads again, without another probe, and goes on or watches again
    (let watched := (∃ l, (id, l) ∈ (s.stn (stnOf id)).watch) ∨ ∃ l, (id, l) ∈ s.watch
     ((∀ w, h.wait ≠ some (.waitw w)) ∨ watched ∨ h.held ≠ none ∨ h.frozen ≠ none → exec (.waitwWake id) s = .next s) ∧
     ∀ w, h.wait = some (.waitw w) → ¬ watched → h.held = none → h.frozen = none →
      (w.x = none → now (.waitwWake id) { h with groups := h.awake, wait := none }) ∧
      ∀ x, w.x = some x → w.d < 32 → 3 ≤ w.sc → h.stripAt w.va = none → (∀ d o, regionOf x.pa ≠ .dev d o) → x.pa % 64 + 8 ≤ 64 →
        (s.frameInfo (x.pa / 65536)).slot = none → s.cutOff id x.pa = false →
        (pathOf x = .cached → (s.stn (stnOf id)).full (x.pa / 64) = false) →
        (4 ≤ w.sc → pathOf x = .cached → ∀ j, j < 8 → find? (s.stn (stnOf id)).dirty (x.pa + j) = none) →
        let v := BitVec.ofNat 64 (littleEndian 8 fun j =>
          if w.sc = 3 ∧ pathOf x = .cached then s.stationByte (stnOf id) (x.pa + j) else Memory.read s.mem (x.pa + j))
        ∃ t h', exec (.waitwWake id) s = .next t ∧ t.hart? id = some h' ∧ (∀ j, j ≠ id → t.hart? j = s.hart? j) ∧ t.mem = s.mem ∧
          (v ≠ w.b → h'.wait = none ∧ h.WroteG { h' with lcache := h.lcache, wait := h.wait, groups := h.groups } w.d v (h.pc + 4)) ∧
          (v = w.b → h'.wait = some (.waitw w) ∧ h'.pc = h.pc ∧ h'.g = h.g ∧ (w.sc = 3 → (id, x.pa / 64) ∈ (t.stn (stnOf id)).watch) ∧
            (4 ≤ w.sc → (id, x.pa / 64) ∈ t.watch))) ∧
    (∀ p, h.wait = some (.tkpop p) →
      (0 < h.tokens (fifo p engScalar) → now (.tkpopWake id) { h with groups := h.awake, wait := none }) ∧
      (h.tokens (fifo p engScalar) = 0 → now (.tkpopWake id) h)) ∧
    -- GANG.JOIN and VFRAME.RESTORE that wait for groups
    (∀ d num gg nexp, h.wait = some (.yard d num gg nexp) → d < 32 → gg ≤ 64 →
      ∃ t h', exec (.gangJoinRetry id) s = .next t ∧ t.hart? id = some h' ∧ h'.gang = h.gang ∧
        ∀ hg, (s.yardGrant id gg).1.hart? id = some hg →
          if hg.heldGroups.length = gg ∧ hg.groups.length = gg then
            h'.pc = h.pc + 4 ∧ h'.wait = none ∧ h'.vl = 0 ∧ h'.gcount = gg ∧ (∀ k, k < 32 → (vreg h'.v k).tag = none) ∧
              ∀ n, n < 32 → h'.rg n = if n = d ∧ n ≠ 0 then BitVec.ofNat 64 ((h.gang.map Prod.snd).getD 0) else h.rg n
          else h'.wait = some (.yard d num gg nexp) ∧ h'.pc = h.pc ∧ h'.g = h.g) ∧
    ((∀ a b c d, h.wait ≠ some (.yard a b c d)) → exec (.gangJoinRetry id) s = .next s) ∧
    ((∀ d g, h.wait ≠ some (.restore d g)) → exec (.vframeRestoreGrant id) s = .next s) ∧
    (∀ d f, h.wait = some (.restore d f.gen) → d < 32 → f ∈ s.frames → (∀ x ∈ s.frames, x.gen = f.gen → x = f) → f.tiles = [] →
      f.hart.gang = none → f.hart.gcount ≤ 1 → f.hart.gneed ≤ 1 → f.hart.frozen = none →
      (∃ g, h.groups = [g] ∧ g.st = .granted) →
      ∃ t h', exec (.vframeRestoreGrant id) s = .next t ∧ t.hart? id = some h' ∧ h'.wait = none ∧ h'.pc = h.pc + 4 ∧
        (∀ n, n < 32 → h'.rg n = if n = d ∧ n ≠ 0 then 1 else h.rg n) ∧ h'.vl = f.hart.vl ∧ h'.vtype = f.hart.vtype ∧
        h'.vcfg = f.hart.vcfg ∧ h'.tshape = f.hart.tshape ∧ h'.tkroute = f.hart.tkroute ∧ h'.fflags = f.hart.fflags ∧
        h'.xacc = f.hart.xacc ∧ h'.tok = f.hart.tok ∧ h'.mq = f.hart.mq ∧ h'.sq = f.hart.sq ∧ h'.gcount = 1 ∧
        (∀ x ∈ t.frames, x.gen ≠ f.gen) ∧ t.mem = s.mem) ∧
    -- a fetch that fails
    (∀ c u, s.cur = id → h.MayTrap →
      s.probe1 (h.fetcher id) { e := 0, va := h.pc.toNat, n := 4, k := .x, al := 4 } = some (c, u) →
      Traps s h (exec (.fetchFault id) s) c.code h.pc (BitVec.ofNat 64 u)) ∧
    (s.probe1 (h.fetcher id) { e := 0, va := h.pc.toNat, n := 4, k := .x, al := 4 } = none → exec (.fetchFault id) s = .next s) ∧
    -- engine faults and interrupts
    (h.faults = [] ∨ ¬ h.MayTrap → exec (.takeEngineFault id) s = .next s) ∧
    (∀ f, mayTake → h.held = none → h.MayTrap → h.faults.filter (fun x => x.q == f.q) = [f] →
      (∀ x ∈ h.faults, f.q.code ≤ x.q.code) → f.slot < 64 →
      ∃ h', now (.takeEngineFault id) h' ∧ h.TookTrap h' false f.cause.code f.val ∧ h'.inTrap = true ∧ h'.estart = f.estart ∧
        h'.faults = h.faults.erase f ∧ (f.valid = false → h'.vcp = 0) ∧
        (f.valid = true → h'.vcp.toNat / 2 ^ 62 = f.q.code ∧ h'.vcp.toNat / 2 ^ 56 % 64 = f.slot ∧ h'.vcp.getLsbD 55 = true ∧
          h'.vcp.toNat % 2 ^ 55 = f.pc.toNat % 2 ^ 55 / 4 * 4)) ∧
    (h.ie = false ∨ h.faultDue ≠ none → exec (.takeInterrupt id) s = .next s) ∧
    (∀ b c, mayTake → h.held = none → h.ie = true → h.faults = [] →
      (b, c) ∈ [(0, 0x22), (1, 0x20), (2, 0x21), (3, 0x0C), (4, 0x13)] →
      let on := fun k => h.ipend.testBit k = true ∧ h.status.getLsbD (8 + k) = true
      on b → (∀ k, b < k → k < 5 → ¬ on k) →
      ∃ h', now (.takeInterrupt id) h' ∧ h.TookTrap h' true c (vat h.ipval b 0) ∧
        ∀ k, h'.ipend.testBit k = (h.ipend.testBit k && k != b)) ∧
    -- the slice
    (let sl := (s.ctx h.ctx).slice
     let waits := sl = 0 ∨ h.saved = true ∨ (∃ d g, h.wait = some (.restore d g)) ∨ (∃ k, h.sliceHead = some k ∧ ∃ v ∈ h.vq, v.e.seq = k) ∨
       s.now < h.sliceStart + h.effective.getD sl
     (waits → exec (.preempt id) s = .next s) ∧
     (¬ waits → now (.preempt id) { h with sliceStart := s.now, sliceHead := h.vq.head?.map (fun v => v.e.seq), ipend := h.ipend ||| 2, ipval := h.ipval.setIfInBounds 1 0 })) ∧
    (∀ w, ∃ t, exec (.tsliceWrite id w) s = .next t ∧ { t with ctxs := s.ctxs } = s ∧
      ∀ c, t.ctx c = if c = h.ctx then { s.ctx c with slice := w % 2 ^ 32 } else s.ctx c) ∧
    -- SVH and TKROUTE
    (∃ t, exec (.svhSet id) s = .next t ∧ { t with harts := s.harts } = s ∧ ∀ j, t.hart? j = (s.hart? j).map fun q =>
      if q.ctx = h.ctx then { q with status := if j = id then q.status ||| 0x10 else q.status &&& ~~~0x10 } else q) ∧
    (∀ w, ∃ T : W64, now (.tkrouteWrite id w) { h with tkroute := T } ∧ T.toNat < 2 ^ 12 ∧
      ∀ p ∈ [(0, 1), (2, 1), (4, 2), (6, 2), (8, 3), (10, 3)],
        fieldOf T p.1 2 = if w / 2 ^ p.1 % 4 = p.2 then fieldOf h.tkroute p.1 2 else w / 2 ^ p.1 % 4) ∧
    -- a re-deal
    (∀ e r l, h.vq = { e := e, redeal := some r } :: l → e.runnable = true → h.qstop = false → h.mq = [] → h.sq = [] →
      r.spilled = [] → e.tk = 0 → (∀ v ∈ l, v.e.seq ≠ e.seq) →
      let R := fieldOf h.vcfg 8 5 * 128 / (8 * 2 ^ fieldOf h.vcfg 0 2)
      let g := max 1 r.group
      let G0 : Geo := { L := r.lOld, R := R }
      let G1 : Geo := { L := r.lNew, R := R }
      ∃ t h', exec (.redeal id) s = .next t ∧ t.hart? id = some h' ∧ (∀ j, j ≠ id → t.hart? j = s.hart? j) ∧
        { t with harts := s.harts, fresh := s.fresh } = s ∧ h'.vq = l ∧ h'.pc = h.pc ∧ h'.g = h.g ∧ h'.vl = h.vl ∧
        (∀ k b, k < 8 → b < r.n → (mreg h k).known.testBit b = true → maskBit h' k b = maskBit h k b) ∧
        ∀ q, q < 8 * 2 ^ fieldOf h.vcfg 0 2 / g → q * g + g ≤ 32 →
          (r.keep.testBit (q * g) = false → (vreg h'.v (q * g)).tag = none) ∧
          ∀ T, r.keep.testBit (q * g) = true → (vreg h.v (q * g)).tag = some T → T.w ≤ 32 → 0 < r.lOld → 0 < r.lNew →
            (∀ j, j < g → (vreg h'.v (q * g + j)).tag = (vreg h.v (q * g + j)).tag) ∧
            ∀ x, x < r.n → elemKnown h.v G0 (q * g) g T.w x = true → G1.has g T.w x = true →
              readElem h'.v G1 (q * g) g T.w x = readElem h.v G0 (q * g) g T.w x) ∧
    ((∀ e r l, h.vq ≠ { e := e, redeal := some r } :: l) → exec (.redeal id) s = .next s) ∧
    -- a refill, on a station with no other hart
    (∀ v l, h.vq = v :: l → v.redeal = none → v.e.started = false → h.qstop = false → h.wait = none → h.frozen = none →
      (∀ p ∈ s.harts, stnOf p.1 = stnOf id → p = (id, h)) → (∀ g ∈ h.groups, g.st ≠ .parked) → h.groups.length ≤ 64 →
      (∀ g ∈ h.groups, g.st = .spilled → s.walkAway (h.who id) (h.spill + g.idx * 0x20000) 0x20000 = false ∧
        s.probe1 (h.who id) { e := 0, va := h.spill + g.idx * 0x20000, n := 0x20000, k := .r, al := 1 } = none) →
      ((∀ g ∈ h.groups, g.st = .granted) → exec (.groupRefill id) s = .next s) ∧
      ((∃ g ∈ h.groups, g.st = .spilled) → ∃ h', now (.groupRefill id) h' ∧ h'.refillSince = none ∧
        { h' with groups := h.groups, v := h.v, m := h.m, refillSince := h.refillSince } = h ∧
        h'.v = (s.readSpill id h h.spilledIdx).v ∧ h'.m = (s.readSpill id h h.spilledIdx).m ∧
        (∀ g ∈ h'.groups, g.st = .granted) ∧ (∀ g ∈ h.groups, g.st = .granted → g ∈ h'.groups) ∧
        (∀ i, (∃ g ∈ h'.groups, g.idx = i) ↔ ∃ g ∈ h.groups, g.idx = i) ∧
        ∀ g ∈ h'.groups, g ∉ h.groups → 4 ≤ g.grp ∧ g.grp < 64 ∧ g.core < 4 ∧
          ∀ y ∈ h.groups, y.st = .granted → 64 * y.core + y.grp ≠ 64 * g.core + g.grp)) ∧
    -- the sequencer: a word of the lanes, alone in its queue, with nothing in the other queues
    (h.vq = [] → exec (.convoyStart id) s = .next s ∧ ∀ c, exec (.starvationGrant c id) s = .next s) ∧
    (∀ c, (∀ p ∈ s.harts, stnOf p.1 = c / 4 → p.2.vq = []) → exec (.elementGroup c) s = .next s) ∧
    (∀ v x, h.vq = [v] → v.redeal = none → vecSpec v.e.op = some x → v.e.runnable = true → h.qstop = false → h.mq = [] →
      h.sq = [] → h.binds = [] → h.sbpend = [] → v.e.pos = [] → v.e.tk = 0 → (∀ g ∈ h.groups, g.st ≠ .spilled) →
      (v.e.started = true → exec (.convoyStart id) s = .next s) ∧
      (v.e.started = false → x.issueFault h v.e = none →
        now (.convoyStart id) { h with vq := [{ v with e := { v.e with started := true, eff := v.e.vl } }] }) ∧
      -- whose granted groups all lie on one core
      ∀ c, c / 4 = stnOf id → v.e.started = true → v.e.ran = [] → (∃ g ∈ h.groups, g.st = .granted ∧ g.core = c % 4) →
        (∀ g ∈ h.groups, g.st = .granted → g.core = c % 4) →
        (∀ p ∈ s.harts, stnOf p.1 = c / 4 → p = (id, h) ∨ p.1 ≠ id ∧ p.2.vq = []) →
        let k := s.core c
        let due := (∀ n, k.starved = some n → n + 2 ^ 20 ≤ k.clock) ∧ ∃ n, find? k.issued id = some n ∧ n + 2 ^ 20 ≤ k.clock
        let steps := (x.cycles h v.e).length
        (¬ due → exec (.starvationGrant c id) s = .next s) ∧
        ∀ i, i = Instr.elementGroup c ∨ i = Instr.starvationGrant c id ∧ due →
        ∃ t h', exec i s = .next t ∧ t.hart? id = some h' ∧ (∀ j, j ≠ id → t.hart? j = s.hart? j) ∧
          { t with harts := s.harts, cores := s.cores, fresh := s.fresh } = s ∧ h'.pc = h.pc ∧ h'.g = h.g ∧ h'.f = h.f ∧
          (x.finished h v.e = true → h'.vq = [] ∧
            (∀ k, k < 32 → (∀ d ∈ x.wr, ¬ (d ≤ k ∧ k < d + 2 ^ fieldOf v.e.vtype 22 2)) →
              (∀ d ∈ x.wrPair, ¬ (d ≤ k ∧ k < d + 2 * 2 ^ fieldOf v.e.vtype 22 2)) → vreg h'.v k = vreg h.v k) ∧
            ∀ b, h'.fflags.testBit b = true ↔ h.fflags.testBit b = true ∨ v.e.flags.testBit b = true) ∧
          (x.finished h v.e = false → h'.v = h.v ∧ h'.m = h.m ∧ h'.xacc = h.xacc ∧ h'.fflags = h.fflags ∧
            (v.e.sub + 1 < steps → h'.vq = [{ v with e := { v.e with sub := v.e.sub + 1 } }]) ∧
            (steps ≤ v.e.sub + 1 →
              ∃ e', h'.vq = [{ v with e := e' }] ∧ e'.progress = v.e.progress + h.lanes ∧ e'.op = v.e.op ∧ e'.started = true)))

end Statements
end

