-- ==== Sys2Proof/Laws/Memory.lean ====
section
/-! SUPPORT. Memory: a read after a write, and the canonical form, which every operation on memory keeps (log 1). -/

namespace Sys2Proof.Machine

/-! ### A read after a write -/

theorem Memory.read_write (m : List Host.Cell) (a c : Nat) (b : Byte) :
    Memory.wf m = true → Memory.read (Memory.write m a b) c = if c = a then b else Memory.read m c := by
  suffices h : ∀ lo, Memory.wfFrom lo m = true →
      Memory.read (Memory.write m a b) c = if c = a then b else Memory.read m c from h 0
  induction m with
  | nil =>
    intro lo _
    simp only [Memory.write]
    split
    · simp only [Memory.read]; split <;> first | rfl | exact Eq.symm ‹_›
    · simp only [Memory.read]; split <;> split <;> first | rfl | omega
  | cons k t ih =>
    obtain ⟨k, x⟩ := k
    intro lo h
    simp only [Memory.wfFrom, Bool.and_eq_true, decide_eq_true_eq] at h
    have low : ∀ l lo c, Memory.wfFrom lo l = true → c < lo → Memory.read l c = 0 := by
      intro l
      induction l with
      | nil => intros; rfl
      | cons p l ih =>
        intro lo c h hc
        obtain ⟨k, x⟩ := p
        simp only [Memory.wfFrom, Bool.and_eq_true, decide_eq_true_eq] at h
        simp only [Memory.read, show k ≠ c by omega, if_false]
        exact ih _ _ h.2 (by omega)
    have cons : ∀ k x (l : List Host.Cell), Memory.read ((k, x) :: l) c = if k = c then x else Memory.read l c :=
      fun _ _ _ => rfl
    simp only [Memory.write]
    by_cases hc : c = a
    · subst hc
      simp only [if_true]
      split
      · split
        · rw [cons, if_neg (by omega), low _ _ _ h.2 (by omega)]; exact Eq.symm ‹_›
        · rw [cons, if_pos rfl]
      · split
        · split
          · rw [low _ _ _ h.2 (by omega)]; exact Eq.symm ‹_›
          · rw [cons, if_pos rfl]
        · rw [cons, if_neg ‹_›, ih _ h.2, if_pos rfl]
    · simp only [if_neg hc]
      split
      · split
        · rfl
        · rw [cons, if_neg (by omega)]
      · split
        · split
          · rw [cons, if_neg (by omega)]
          · rw [cons, cons, if_neg (by omega), if_neg (by omega)]
        · rw [cons, cons, ih _ h.2, if_neg hc]

/-! ### The canonical form -/

theorem Memory.wfFrom_le {lo lo' : Nat} (hl : lo' ≤ lo) {m : List Host.Cell} (h : Memory.wfFrom lo m = true) :
    Memory.wfFrom lo' m = true := by
  cases m with
  | nil => rfl
  | cons k t =>
    simp only [Memory.wfFrom, Bool.and_eq_true, decide_eq_true_eq] at h ⊢
    exact ⟨⟨by omega, h.1.2⟩, h.2⟩

theorem Memory.wfFrom_write (m : List Host.Cell) (lo a : Nat) (b : Byte) (hl : lo ≤ a) :
    Memory.wfFrom lo m = true → Memory.wfFrom lo (Memory.write m a b) = true := by
  induction m generalizing lo with
  | nil =>
    intro _
    simp only [Memory.write]
    split
    · rfl
    · simp only [Memory.wfFrom, Bool.and_eq_true, decide_eq_true_eq]; exact ⟨⟨hl, ‹_›⟩, trivial⟩
  | cons k t ih =>
    intro h
    have h' := h
    simp only [Memory.wfFrom, Bool.and_eq_true, decide_eq_true_eq] at h
    simp only [Memory.write]
    split
    · split
      · exact h'
      · simp only [Memory.wfFrom, Bool.and_eq_true, decide_eq_true_eq]
        exact ⟨⟨hl, ‹_›⟩, ⟨by omega, h.1.2⟩, h.2⟩
    · split
      · subst_vars
        split
        · exact Memory.wfFrom_le (by omega) h.2
        · simp only [Memory.wfFrom, Bool.and_eq_true, decide_eq_true_eq]; exact ⟨⟨hl, ‹_›⟩, h.2⟩
      · simp only [Memory.wfFrom, Bool.and_eq_true, decide_eq_true_eq]
        exact ⟨h.1, ih _ (by omega) h.2⟩

theorem Memory.wfFrom_filter (p : Host.Cell → Bool) (m : List Host.Cell) (lo : Nat) :
    Memory.wfFrom lo m = true → Memory.wfFrom lo (m.filter p) = true := by
  induction m generalizing lo with
  | nil => intro h; exact h
  | cons k t ih =>
    intro h
    simp only [Memory.wfFrom, Bool.and_eq_true, decide_eq_true_eq] at h
    rw [List.filter_cons]
    split
    · simp only [Memory.wfFrom, Bool.and_eq_true, decide_eq_true_eq]; exact ⟨h.1, ih _ h.2⟩
    · exact Memory.wfFrom_le (by omega) (ih _ h.2)

/-- Two lists in canonical form, the second beyond every address of the first. -/
theorem Memory.wfFrom_append (m n : List Host.Cell) (lo mid : Nat) (hl : lo ≤ mid)
    (hm : Memory.wfFrom lo m = true) (hlt : ∀ c ∈ m, c.1 < mid) (hn : Memory.wfFrom mid n = true) :
    Memory.wfFrom lo (m ++ n) = true := by
  induction m generalizing lo with
  | nil => exact Memory.wfFrom_le hl hn
  | cons k t ih =>
    simp only [Memory.wfFrom, Bool.and_eq_true, decide_eq_true_eq, List.cons_append] at hm ⊢
    have := hlt k (by simp)
    exact ⟨hm.1, ih _ (by omega) hm.2 fun c hc => hlt c (by simp [hc])⟩

theorem Memory.wf_write {m : List Host.Cell} (a : Nat) (b : Byte) (h : Memory.wf m = true) :
    Memory.wf (Memory.write m a b) = true := Memory.wfFrom_write m 0 a b (Nat.zero_le _) h

theorem Memory.wf_writeAll {m : List Host.Cell} (cs : List Host.Cell) (h : Memory.wf m = true) :
    Memory.wf (Memory.writeAll m cs) = true := by
  induction cs generalizing m with
  | nil => exact h
  | cons c t ih => exact ih (Memory.wf_write c.1 c.2 h)

theorem Memory.wf_filter {m : List Host.Cell} (p : Host.Cell → Bool) (h : Memory.wf m = true) :
    Memory.wf (m.filter p) = true := Memory.wfFrom_filter p m 0 h

theorem Memory.wf_clear {m : List Host.Cell} (a n : Nat) (h : Memory.wf m = true) :
    Memory.wf (Memory.clear m a n) = true := Memory.wf_filter _ h

theorem Memory.wfFrom_zip (bs : List Byte) (a : Nat) :
    Memory.wfFrom a (((span a bs.length).zip bs).filter fun c => c.2 != 0) = true := by
  induction bs generalizing a with
  | nil => rfl
  | cons b t ih =>
    simp only [span, List.length_cons, List.range'_succ, List.zip_cons_cons, List.filter_cons]
    split
    · simp only [Memory.wfFrom, Bool.and_eq_true, decide_eq_true_eq, le_refl, true_and]
      exact ⟨by simp_all, ih (a + 1)⟩
    · exact Memory.wfFrom_le (by omega) (ih (a + 1))

theorem Memory.wfFrom_above {m : List Host.Cell} {lo a : Nat} (h : Memory.wfFrom lo m = true) :
    Memory.wfFrom a (m.filter fun c => decide (a ≤ c.1)) = true := by
  induction m generalizing lo with
  | nil => rfl
  | cons k t ih =>
    simp only [Memory.wfFrom, Bool.and_eq_true, decide_eq_true_eq] at h
    rw [List.filter_cons]
    split
    · simp only [Memory.wfFrom, Bool.and_eq_true, decide_eq_true_eq]
      exact ⟨⟨by simp_all, h.1.2⟩, Memory.wfFrom_filter _ _ _ h.2⟩
    · exact ih h.2

theorem Memory.wf_fill {m : List Host.Cell} (a : Nat) (bs : List Byte) (h : Memory.wf m = true) :
    Memory.wf (Memory.fill m a bs) = true := by
  simp only [Memory.wf, Memory.fill]
  refine Memory.wfFrom_append _ _ 0 (a + bs.length) (Nat.zero_le _) ?_ ?_ (Memory.wfFrom_above h)
  · refine Memory.wfFrom_append _ _ 0 a (Nat.zero_le _) (Memory.wfFrom_filter _ _ _ h) ?_ (Memory.wfFrom_zip bs a)
    intro c hc; simp_all
  · intro c hc
    rw [List.mem_append] at hc
    obtain hc | hc := hc
    · have := (List.mem_filter.mp hc).2; simp at this; omega
    · have := List.of_mem_zip (List.mem_filter.mp hc).1
      simp [span] at this; omega

end Sys2Proof.Machine
end

