-- ==== Sys2Proof/Laws/State.lean ====
section
/-! SUPPORT. What each update of the state and of a hart leaves unchanged, and what it writes: one lemma per field. -/

namespace Sys2Proof.Machine

/-! ### State.setHart -/

@[simp] theorem State.setHart_harts (s : State) (id : Nat) (x : Hart) : (s.setHart id x).harts = put s.harts id x := rfl
@[simp] theorem State.setHart_cores (s : State) (id : Nat) (x : Hart) : (s.setHart id x).cores = s.cores := rfl
@[simp] theorem State.setHart_stations (s : State) (id : Nat) (x : Hart) : (s.setHart id x).stations = s.stations := rfl
@[simp] theorem State.setHart_dies (s : State) (id : Nat) (x : Hart) : (s.setHart id x).dies = s.dies := rfl
@[simp] theorem State.setHart_ctxs (s : State) (id : Nat) (x : Hart) : (s.setHart id x).ctxs = s.ctxs := rfl
@[simp] theorem State.setHart_spares (s : State) (id : Nat) (x : Hart) : (s.setHart id x).spares = s.spares := rfl
@[simp] theorem State.setHart_mem (s : State) (id : Nat) (x : Hart) : (s.setHart id x).mem = s.mem := rfl
@[simp] theorem State.setHart_watch (s : State) (id : Nat) (x : Hart) : (s.setHart id x).watch = s.watch := rfl
@[simp] theorem State.setHart_tlb (s : State) (id : Nat) (x : Hart) : (s.setHart id x).tlb = s.tlb := rfl
@[simp] theorem State.setHart_gangs (s : State) (id : Nat) (x : Hart) : (s.setHart id x).gangs = s.gangs := rfl
@[simp] theorem State.setHart_barriers (s : State) (id : Nat) (x : Hart) : (s.setHart id x).barriers = s.barriers := rfl
@[simp] theorem State.setHart_frames (s : State) (id : Nat) (x : Hart) : (s.setHart id x).frames = s.frames := rfl
@[simp] theorem State.setHart_pkg (s : State) (id : Nat) (x : Hart) : (s.setHart id x).pkg = s.pkg := rfl
@[simp] theorem State.setHart_cur (s : State) (id : Nat) (x : Hart) : (s.setHart id x).cur = s.cur := rfl
@[simp] theorem State.setHart_agenda (s : State) (id : Nat) (x : Hart) : (s.setHart id x).agenda = s.agenda := rfl
@[simp] theorem State.setHart_eager (s : State) (id : Nat) (x : Hart) : (s.setHart id x).eager = s.eager := rfl
@[simp] theorem State.setHart_tick (s : State) (id : Nat) (x : Hart) : (s.setHart id x).tick = s.tick := rfl
@[simp] theorem State.setHart_now (s : State) (id : Nat) (x : Hart) : (s.setHart id x).now = s.now := rfl
@[simp] theorem State.setHart_fresh (s : State) (id : Nat) (x : Hart) : (s.setHart id x).fresh = s.fresh := rfl
@[simp] theorem State.setHart_out (s : State) (id : Nat) (x : Hart) : (s.setHart id x).out = s.out := rfl

/-! ### State.setCore -/

@[simp] theorem State.setCore_harts (s : State) (k : Nat) (x : Core) : (s.setCore k x).harts = s.harts := rfl
@[simp] theorem State.setCore_cores (s : State) (k : Nat) (x : Core) : (s.setCore k x).cores = put s.cores k x := rfl
@[simp] theorem State.setCore_stations (s : State) (k : Nat) (x : Core) : (s.setCore k x).stations = s.stations := rfl
@[simp] theorem State.setCore_dies (s : State) (k : Nat) (x : Core) : (s.setCore k x).dies = s.dies := rfl
@[simp] theorem State.setCore_ctxs (s : State) (k : Nat) (x : Core) : (s.setCore k x).ctxs = s.ctxs := rfl
@[simp] theorem State.setCore_spares (s : State) (k : Nat) (x : Core) : (s.setCore k x).spares = s.spares := rfl
@[simp] theorem State.setCore_mem (s : State) (k : Nat) (x : Core) : (s.setCore k x).mem = s.mem := rfl
@[simp] theorem State.setCore_watch (s : State) (k : Nat) (x : Core) : (s.setCore k x).watch = s.watch := rfl
@[simp] theorem State.setCore_tlb (s : State) (k : Nat) (x : Core) : (s.setCore k x).tlb = s.tlb := rfl
@[simp] theorem State.setCore_gangs (s : State) (k : Nat) (x : Core) : (s.setCore k x).gangs = s.gangs := rfl
@[simp] theorem State.setCore_barriers (s : State) (k : Nat) (x : Core) : (s.setCore k x).barriers = s.barriers := rfl
@[simp] theorem State.setCore_frames (s : State) (k : Nat) (x : Core) : (s.setCore k x).frames = s.frames := rfl
@[simp] theorem State.setCore_pkg (s : State) (k : Nat) (x : Core) : (s.setCore k x).pkg = s.pkg := rfl
@[simp] theorem State.setCore_cur (s : State) (k : Nat) (x : Core) : (s.setCore k x).cur = s.cur := rfl
@[simp] theorem State.setCore_agenda (s : State) (k : Nat) (x : Core) : (s.setCore k x).agenda = s.agenda := rfl
@[simp] theorem State.setCore_eager (s : State) (k : Nat) (x : Core) : (s.setCore k x).eager = s.eager := rfl
@[simp] theorem State.setCore_tick (s : State) (k : Nat) (x : Core) : (s.setCore k x).tick = s.tick := rfl
@[simp] theorem State.setCore_now (s : State) (k : Nat) (x : Core) : (s.setCore k x).now = s.now := rfl
@[simp] theorem State.setCore_fresh (s : State) (k : Nat) (x : Core) : (s.setCore k x).fresh = s.fresh := rfl
@[simp] theorem State.setCore_out (s : State) (k : Nat) (x : Core) : (s.setCore k x).out = s.out := rfl

/-! ### State.setStn -/

@[simp] theorem State.setStn_harts (s : State) (k : Nat) (x : Station) : (s.setStn k x).harts = s.harts := rfl
@[simp] theorem State.setStn_cores (s : State) (k : Nat) (x : Station) : (s.setStn k x).cores = s.cores := rfl
@[simp] theorem State.setStn_stations (s : State) (k : Nat) (x : Station) : (s.setStn k x).stations = put s.stations k x := rfl
@[simp] theorem State.setStn_dies (s : State) (k : Nat) (x : Station) : (s.setStn k x).dies = s.dies := rfl
@[simp] theorem State.setStn_ctxs (s : State) (k : Nat) (x : Station) : (s.setStn k x).ctxs = s.ctxs := rfl
@[simp] theorem State.setStn_spares (s : State) (k : Nat) (x : Station) : (s.setStn k x).spares = s.spares := rfl
@[simp] theorem State.setStn_mem (s : State) (k : Nat) (x : Station) : (s.setStn k x).mem = s.mem := rfl
@[simp] theorem State.setStn_watch (s : State) (k : Nat) (x : Station) : (s.setStn k x).watch = s.watch := rfl
@[simp] theorem State.setStn_tlb (s : State) (k : Nat) (x : Station) : (s.setStn k x).tlb = s.tlb := rfl
@[simp] theorem State.setStn_gangs (s : State) (k : Nat) (x : Station) : (s.setStn k x).gangs = s.gangs := rfl
@[simp] theorem State.setStn_barriers (s : State) (k : Nat) (x : Station) : (s.setStn k x).barriers = s.barriers := rfl
@[simp] theorem State.setStn_frames (s : State) (k : Nat) (x : Station) : (s.setStn k x).frames = s.frames := rfl
@[simp] theorem State.setStn_pkg (s : State) (k : Nat) (x : Station) : (s.setStn k x).pkg = s.pkg := rfl
@[simp] theorem State.setStn_cur (s : State) (k : Nat) (x : Station) : (s.setStn k x).cur = s.cur := rfl
@[simp] theorem State.setStn_agenda (s : State) (k : Nat) (x : Station) : (s.setStn k x).agenda = s.agenda := rfl
@[simp] theorem State.setStn_eager (s : State) (k : Nat) (x : Station) : (s.setStn k x).eager = s.eager := rfl
@[simp] theorem State.setStn_tick (s : State) (k : Nat) (x : Station) : (s.setStn k x).tick = s.tick := rfl
@[simp] theorem State.setStn_now (s : State) (k : Nat) (x : Station) : (s.setStn k x).now = s.now := rfl
@[simp] theorem State.setStn_fresh (s : State) (k : Nat) (x : Station) : (s.setStn k x).fresh = s.fresh := rfl
@[simp] theorem State.setStn_out (s : State) (k : Nat) (x : Station) : (s.setStn k x).out = s.out := rfl

/-! ### State.setDie -/

@[simp] theorem State.setDie_harts (s : State) (d : Nat) (x : Die) : (s.setDie d x).harts = s.harts := rfl
@[simp] theorem State.setDie_cores (s : State) (d : Nat) (x : Die) : (s.setDie d x).cores = s.cores := rfl
@[simp] theorem State.setDie_stations (s : State) (d : Nat) (x : Die) : (s.setDie d x).stations = s.stations := rfl
@[simp] theorem State.setDie_dies (s : State) (d : Nat) (x : Die) : (s.setDie d x).dies = put s.dies d x := rfl
@[simp] theorem State.setDie_ctxs (s : State) (d : Nat) (x : Die) : (s.setDie d x).ctxs = s.ctxs := rfl
@[simp] theorem State.setDie_spares (s : State) (d : Nat) (x : Die) : (s.setDie d x).spares = s.spares := rfl
@[simp] theorem State.setDie_mem (s : State) (d : Nat) (x : Die) : (s.setDie d x).mem = s.mem := rfl
@[simp] theorem State.setDie_watch (s : State) (d : Nat) (x : Die) : (s.setDie d x).watch = s.watch := rfl
@[simp] theorem State.setDie_tlb (s : State) (d : Nat) (x : Die) : (s.setDie d x).tlb = s.tlb := rfl
@[simp] theorem State.setDie_gangs (s : State) (d : Nat) (x : Die) : (s.setDie d x).gangs = s.gangs := rfl
@[simp] theorem State.setDie_barriers (s : State) (d : Nat) (x : Die) : (s.setDie d x).barriers = s.barriers := rfl
@[simp] theorem State.setDie_frames (s : State) (d : Nat) (x : Die) : (s.setDie d x).frames = s.frames := rfl
@[simp] theorem State.setDie_pkg (s : State) (d : Nat) (x : Die) : (s.setDie d x).pkg = s.pkg := rfl
@[simp] theorem State.setDie_cur (s : State) (d : Nat) (x : Die) : (s.setDie d x).cur = s.cur := rfl
@[simp] theorem State.setDie_agenda (s : State) (d : Nat) (x : Die) : (s.setDie d x).agenda = s.agenda := rfl
@[simp] theorem State.setDie_eager (s : State) (d : Nat) (x : Die) : (s.setDie d x).eager = s.eager := rfl
@[simp] theorem State.setDie_tick (s : State) (d : Nat) (x : Die) : (s.setDie d x).tick = s.tick := rfl
@[simp] theorem State.setDie_now (s : State) (d : Nat) (x : Die) : (s.setDie d x).now = s.now := rfl
@[simp] theorem State.setDie_fresh (s : State) (d : Nat) (x : Die) : (s.setDie d x).fresh = s.fresh := rfl
@[simp] theorem State.setDie_out (s : State) (d : Nat) (x : Die) : (s.setDie d x).out = s.out := rfl

/-! ### State.setCtx -/

@[simp] theorem State.setCtx_harts (s : State) (c : Nat) (x : Ctx) : (s.setCtx c x).harts = s.harts := rfl
@[simp] theorem State.setCtx_cores (s : State) (c : Nat) (x : Ctx) : (s.setCtx c x).cores = s.cores := rfl
@[simp] theorem State.setCtx_stations (s : State) (c : Nat) (x : Ctx) : (s.setCtx c x).stations = s.stations := rfl
@[simp] theorem State.setCtx_dies (s : State) (c : Nat) (x : Ctx) : (s.setCtx c x).dies = s.dies := rfl
@[simp] theorem State.setCtx_ctxs (s : State) (c : Nat) (x : Ctx) : (s.setCtx c x).ctxs = put s.ctxs c x := rfl
@[simp] theorem State.setCtx_spares (s : State) (c : Nat) (x : Ctx) : (s.setCtx c x).spares = s.spares := rfl
@[simp] theorem State.setCtx_mem (s : State) (c : Nat) (x : Ctx) : (s.setCtx c x).mem = s.mem := rfl
@[simp] theorem State.setCtx_watch (s : State) (c : Nat) (x : Ctx) : (s.setCtx c x).watch = s.watch := rfl
@[simp] theorem State.setCtx_tlb (s : State) (c : Nat) (x : Ctx) : (s.setCtx c x).tlb = s.tlb := rfl
@[simp] theorem State.setCtx_gangs (s : State) (c : Nat) (x : Ctx) : (s.setCtx c x).gangs = s.gangs := rfl
@[simp] theorem State.setCtx_barriers (s : State) (c : Nat) (x : Ctx) : (s.setCtx c x).barriers = s.barriers := rfl
@[simp] theorem State.setCtx_frames (s : State) (c : Nat) (x : Ctx) : (s.setCtx c x).frames = s.frames := rfl
@[simp] theorem State.setCtx_pkg (s : State) (c : Nat) (x : Ctx) : (s.setCtx c x).pkg = s.pkg := rfl
@[simp] theorem State.setCtx_cur (s : State) (c : Nat) (x : Ctx) : (s.setCtx c x).cur = s.cur := rfl
@[simp] theorem State.setCtx_agenda (s : State) (c : Nat) (x : Ctx) : (s.setCtx c x).agenda = s.agenda := rfl
@[simp] theorem State.setCtx_eager (s : State) (c : Nat) (x : Ctx) : (s.setCtx c x).eager = s.eager := rfl
@[simp] theorem State.setCtx_tick (s : State) (c : Nat) (x : Ctx) : (s.setCtx c x).tick = s.tick := rfl
@[simp] theorem State.setCtx_now (s : State) (c : Nat) (x : Ctx) : (s.setCtx c x).now = s.now := rfl
@[simp] theorem State.setCtx_fresh (s : State) (c : Nat) (x : Ctx) : (s.setCtx c x).fresh = s.fresh := rfl
@[simp] theorem State.setCtx_out (s : State) (c : Nat) (x : Ctx) : (s.setCtx c x).out = s.out := rfl

/-! ### State.setPkg -/

@[simp] theorem State.setPkg_harts (s : State) (x : Pkg) : (s.setPkg x).harts = s.harts := rfl
@[simp] theorem State.setPkg_cores (s : State) (x : Pkg) : (s.setPkg x).cores = s.cores := rfl
@[simp] theorem State.setPkg_stations (s : State) (x : Pkg) : (s.setPkg x).stations = s.stations := rfl
@[simp] theorem State.setPkg_dies (s : State) (x : Pkg) : (s.setPkg x).dies = s.dies := rfl
@[simp] theorem State.setPkg_ctxs (s : State) (x : Pkg) : (s.setPkg x).ctxs = s.ctxs := rfl
@[simp] theorem State.setPkg_spares (s : State) (x : Pkg) : (s.setPkg x).spares = s.spares := rfl
@[simp] theorem State.setPkg_mem (s : State) (x : Pkg) : (s.setPkg x).mem = s.mem := rfl
@[simp] theorem State.setPkg_watch (s : State) (x : Pkg) : (s.setPkg x).watch = s.watch := rfl
@[simp] theorem State.setPkg_tlb (s : State) (x : Pkg) : (s.setPkg x).tlb = s.tlb := rfl
@[simp] theorem State.setPkg_gangs (s : State) (x : Pkg) : (s.setPkg x).gangs = s.gangs := rfl
@[simp] theorem State.setPkg_barriers (s : State) (x : Pkg) : (s.setPkg x).barriers = s.barriers := rfl
@[simp] theorem State.setPkg_frames (s : State) (x : Pkg) : (s.setPkg x).frames = s.frames := rfl
@[simp] theorem State.setPkg_pkg (s : State) (x : Pkg) : (s.setPkg x).pkg = x := rfl
@[simp] theorem State.setPkg_cur (s : State) (x : Pkg) : (s.setPkg x).cur = s.cur := rfl
@[simp] theorem State.setPkg_agenda (s : State) (x : Pkg) : (s.setPkg x).agenda = s.agenda := rfl
@[simp] theorem State.setPkg_eager (s : State) (x : Pkg) : (s.setPkg x).eager = s.eager := rfl
@[simp] theorem State.setPkg_tick (s : State) (x : Pkg) : (s.setPkg x).tick = s.tick := rfl
@[simp] theorem State.setPkg_now (s : State) (x : Pkg) : (s.setPkg x).now = s.now := rfl
@[simp] theorem State.setPkg_fresh (s : State) (x : Pkg) : (s.setPkg x).fresh = s.fresh := rfl
@[simp] theorem State.setPkg_out (s : State) (x : Pkg) : (s.setPkg x).out = s.out := rfl

/-! ### State.bump -/

@[simp] theorem State.bump_harts (s : State) (n : Nat) : (s.bump n).harts = s.harts := rfl
@[simp] theorem State.bump_cores (s : State) (n : Nat) : (s.bump n).cores = s.cores := rfl
@[simp] theorem State.bump_stations (s : State) (n : Nat) : (s.bump n).stations = s.stations := rfl
@[simp] theorem State.bump_dies (s : State) (n : Nat) : (s.bump n).dies = s.dies := rfl
@[simp] theorem State.bump_ctxs (s : State) (n : Nat) : (s.bump n).ctxs = s.ctxs := rfl
@[simp] theorem State.bump_spares (s : State) (n : Nat) : (s.bump n).spares = s.spares := rfl
@[simp] theorem State.bump_mem (s : State) (n : Nat) : (s.bump n).mem = s.mem := rfl
@[simp] theorem State.bump_watch (s : State) (n : Nat) : (s.bump n).watch = s.watch := rfl
@[simp] theorem State.bump_tlb (s : State) (n : Nat) : (s.bump n).tlb = s.tlb := rfl
@[simp] theorem State.bump_gangs (s : State) (n : Nat) : (s.bump n).gangs = s.gangs := rfl
@[simp] theorem State.bump_barriers (s : State) (n : Nat) : (s.bump n).barriers = s.barriers := rfl
@[simp] theorem State.bump_frames (s : State) (n : Nat) : (s.bump n).frames = s.frames := rfl
@[simp] theorem State.bump_pkg (s : State) (n : Nat) : (s.bump n).pkg = s.pkg := rfl
@[simp] theorem State.bump_cur (s : State) (n : Nat) : (s.bump n).cur = s.cur := rfl
@[simp] theorem State.bump_agenda (s : State) (n : Nat) : (s.bump n).agenda = s.agenda := rfl
@[simp] theorem State.bump_eager (s : State) (n : Nat) : (s.bump n).eager = s.eager := rfl
@[simp] theorem State.bump_tick (s : State) (n : Nat) : (s.bump n).tick = s.tick := rfl
@[simp] theorem State.bump_now (s : State) (n : Nat) : (s.bump n).now = s.now := rfl
@[simp] theorem State.bump_fresh (s : State) (n : Nat) : (s.bump n).fresh = s.fresh + n := rfl
@[simp] theorem State.bump_out (s : State) (n : Nat) : (s.bump n).out = s.out := rfl

/-! ### State.writeMem -/

@[simp] theorem State.writeMem_harts (s : State) (cs : List Host.Cell) : (s.writeMem cs).harts = s.harts := rfl
@[simp] theorem State.writeMem_cores (s : State) (cs : List Host.Cell) : (s.writeMem cs).cores = s.cores := rfl
@[simp] theorem State.writeMem_stations (s : State) (cs : List Host.Cell) : (s.writeMem cs).stations = s.stations := rfl
@[simp] theorem State.writeMem_dies (s : State) (cs : List Host.Cell) : (s.writeMem cs).dies = s.dies := rfl
@[simp] theorem State.writeMem_ctxs (s : State) (cs : List Host.Cell) : (s.writeMem cs).ctxs = s.ctxs := rfl
@[simp] theorem State.writeMem_spares (s : State) (cs : List Host.Cell) : (s.writeMem cs).spares = s.spares := rfl
@[simp] theorem State.writeMem_mem (s : State) (cs : List Host.Cell) : (s.writeMem cs).mem = Memory.writeAll s.mem cs := rfl
@[simp] theorem State.writeMem_tlb (s : State) (cs : List Host.Cell) : (s.writeMem cs).tlb = s.tlb := rfl
@[simp] theorem State.writeMem_gangs (s : State) (cs : List Host.Cell) : (s.writeMem cs).gangs = s.gangs := rfl
@[simp] theorem State.writeMem_barriers (s : State) (cs : List Host.Cell) : (s.writeMem cs).barriers = s.barriers := rfl
@[simp] theorem State.writeMem_frames (s : State) (cs : List Host.Cell) : (s.writeMem cs).frames = s.frames := rfl
@[simp] theorem State.writeMem_pkg (s : State) (cs : List Host.Cell) : (s.writeMem cs).pkg = s.pkg := rfl
@[simp] theorem State.writeMem_cur (s : State) (cs : List Host.Cell) : (s.writeMem cs).cur = s.cur := rfl
@[simp] theorem State.writeMem_agenda (s : State) (cs : List Host.Cell) : (s.writeMem cs).agenda = s.agenda := rfl
@[simp] theorem State.writeMem_eager (s : State) (cs : List Host.Cell) : (s.writeMem cs).eager = s.eager := rfl
@[simp] theorem State.writeMem_tick (s : State) (cs : List Host.Cell) : (s.writeMem cs).tick = s.tick := rfl
@[simp] theorem State.writeMem_now (s : State) (cs : List Host.Cell) : (s.writeMem cs).now = s.now := rfl
@[simp] theorem State.writeMem_fresh (s : State) (cs : List Host.Cell) : (s.writeMem cs).fresh = s.fresh := rfl
@[simp] theorem State.writeMem_out (s : State) (cs : List Host.Cell) : (s.writeMem cs).out = s.out := rfl

/-! ### State.send -/

@[simp] theorem State.send_harts (s : State) (m : Sent) : (s.send m).harts = s.harts := rfl
@[simp] theorem State.send_cores (s : State) (m : Sent) : (s.send m).cores = s.cores := rfl
@[simp] theorem State.send_stations (s : State) (m : Sent) : (s.send m).stations = s.stations := rfl
@[simp] theorem State.send_dies (s : State) (m : Sent) : (s.send m).dies = s.dies := rfl
@[simp] theorem State.send_ctxs (s : State) (m : Sent) : (s.send m).ctxs = s.ctxs := rfl
@[simp] theorem State.send_spares (s : State) (m : Sent) : (s.send m).spares = s.spares := rfl
@[simp] theorem State.send_mem (s : State) (m : Sent) : (s.send m).mem = s.mem := rfl
@[simp] theorem State.send_watch (s : State) (m : Sent) : (s.send m).watch = s.watch := rfl
@[simp] theorem State.send_tlb (s : State) (m : Sent) : (s.send m).tlb = s.tlb := rfl
@[simp] theorem State.send_gangs (s : State) (m : Sent) : (s.send m).gangs = s.gangs := rfl
@[simp] theorem State.send_barriers (s : State) (m : Sent) : (s.send m).barriers = s.barriers := rfl
@[simp] theorem State.send_frames (s : State) (m : Sent) : (s.send m).frames = s.frames := rfl
@[simp] theorem State.send_pkg (s : State) (m : Sent) : (s.send m).pkg = s.pkg := rfl
@[simp] theorem State.send_cur (s : State) (m : Sent) : (s.send m).cur = s.cur := rfl
@[simp] theorem State.send_agenda (s : State) (m : Sent) : (s.send m).agenda = s.agenda := rfl
@[simp] theorem State.send_eager (s : State) (m : Sent) : (s.send m).eager = s.eager := rfl
@[simp] theorem State.send_tick (s : State) (m : Sent) : (s.send m).tick = s.tick := rfl
@[simp] theorem State.send_now (s : State) (m : Sent) : (s.send m).now = s.now := rfl
@[simp] theorem State.send_fresh (s : State) (m : Sent) : (s.send m).fresh = s.fresh := rfl
@[simp] theorem State.send_out (s : State) (m : Sent) : (s.send m).out = s.out ++ [m] := rfl

/-! ### Hart.skip -/

@[simp] theorem Hart.skip_ctx (h : Hart) : (h.skip).ctx = h.ctx := rfl
@[simp] theorem Hart.skip_pc (h : Hart) : (h.skip).pc = h.pc + 4 := rfl
@[simp] theorem Hart.skip_g (h : Hart) : (h.skip).g = h.g := rfl
@[simp] theorem Hart.skip_f (h : Hart) : (h.skip).f = h.f := rfl
@[simp] theorem Hart.skip_v (h : Hart) : (h.skip).v = h.v := rfl
@[simp] theorem Hart.skip_m (h : Hart) : (h.skip).m = h.m := rfl
@[simp] theorem Hart.skip_xacc (h : Hart) : (h.skip).xacc = h.xacc := rfl
@[simp] theorem Hart.skip_slots (h : Hart) : (h.skip).slots = h.slots := rfl
@[simp] theorem Hart.skip_binds (h : Hart) : (h.skip).binds = h.binds := rfl
@[simp] theorem Hart.skip_status (h : Hart) : (h.skip).status = h.status := rfl
@[simp] theorem Hart.skip_fflags (h : Hart) : (h.skip).fflags = h.fflags := rfl
@[simp] theorem Hart.skip_tcInt (h : Hart) : (h.skip).tcInt = h.tcInt := rfl
@[simp] theorem Hart.skip_tcCode (h : Hart) : (h.skip).tcCode = h.tcCode := rfl
@[simp] theorem Hart.skip_ipend (h : Hart) : (h.skip).ipend = h.ipend := rfl
@[simp] theorem Hart.skip_trappc (h : Hart) : (h.skip).trappc = h.trappc := rfl
@[simp] theorem Hart.skip_trapval (h : Hart) : (h.skip).trapval = h.trapval := rfl
@[simp] theorem Hart.skip_trapvec (h : Hart) : (h.skip).trapvec = h.trapvec := rfl
@[simp] theorem Hart.skip_ipval (h : Hart) : (h.skip).ipval = h.ipval := rfl
@[simp] theorem Hart.skip_vl (h : Hart) : (h.skip).vl = h.vl := rfl
@[simp] theorem Hart.skip_vtype (h : Hart) : (h.skip).vtype = h.vtype := rfl
@[simp] theorem Hart.skip_vcfg (h : Hart) : (h.skip).vcfg = h.vcfg := rfl
@[simp] theorem Hart.skip_vgrant (h : Hart) : (h.skip).vgrant = h.vgrant := rfl
@[simp] theorem Hart.skip_vcp (h : Hart) : (h.skip).vcp = h.vcp := rfl
@[simp] theorem Hart.skip_estart (h : Hart) : (h.skip).estart = h.estart := rfl
@[simp] theorem Hart.skip_tshape (h : Hart) : (h.skip).tshape = h.tshape := rfl
@[simp] theorem Hart.skip_srseed (h : Hart) : (h.skip).srseed = h.srseed := rfl
@[simp] theorem Hart.skip_srctr (h : Hart) : (h.skip).srctr = h.srctr := rfl
@[simp] theorem Hart.skip_tkroute (h : Hart) : (h.skip).tkroute = h.tkroute := rfl
@[simp] theorem Hart.skip_prio (h : Hart) : (h.skip).prio = h.prio := rfl
@[simp] theorem Hart.skip_effective (h : Hart) : (h.skip).effective = h.effective := rfl
@[simp] theorem Hart.skip_sliceStart (h : Hart) : (h.skip).sliceStart = h.sliceStart := rfl
@[simp] theorem Hart.skip_sliceHead (h : Hart) : (h.skip).sliceHead = h.sliceHead := rfl
@[simp] theorem Hart.skip_sbcap (h : Hart) : (h.skip).sbcap = h.sbcap := rfl
@[simp] theorem Hart.skip_fstat (h : Hart) : (h.skip).fstat = h.fstat := rfl
@[simp] theorem Hart.skip_stepid (h : Hart) : (h.skip).stepid = h.stepid := rfl
@[simp] theorem Hart.skip_dlslack (h : Hart) : (h.skip).dlslack = h.dlslack := rfl
@[simp] theorem Hart.skip_step (h : Hart) : (h.skip).step = h.step := rfl
@[simp] theorem Hart.skip_vq (h : Hart) : (h.skip).vq = h.vq := rfl
@[simp] theorem Hart.skip_mq (h : Hart) : (h.skip).mq = h.mq := rfl
@[simp] theorem Hart.skip_sq (h : Hart) : (h.skip).sq = h.sq := rfl
@[simp] theorem Hart.skip_seq (h : Hart) : (h.skip).seq = h.seq := rfl
@[simp] theorem Hart.skip_qstop (h : Hart) : (h.skip).qstop = h.qstop := rfl
@[simp] theorem Hart.skip_inTrap (h : Hart) : (h.skip).inTrap = h.inTrap := rfl
@[simp] theorem Hart.skip_faults (h : Hart) : (h.skip).faults = h.faults := rfl
@[simp] theorem Hart.skip_tok (h : Hart) : (h.skip).tok = h.tok := rfl
@[simp] theorem Hart.skip_ilk (h : Hart) : (h.skip).ilk = h.ilk := rfl
@[simp] theorem Hart.skip_convoy (h : Hart) : (h.skip).convoy = h.convoy := rfl
@[simp] theorem Hart.skip_groups (h : Hart) : (h.skip).groups = h.groups := rfl
@[simp] theorem Hart.skip_deficit (h : Hart) : (h.skip).deficit = h.deficit := rfl
@[simp] theorem Hart.skip_spill (h : Hart) : (h.skip).spill = h.spill := rfl
@[simp] theorem Hart.skip_wait (h : Hart) : (h.skip).wait = h.wait := rfl
@[simp] theorem Hart.skip_waitSince (h : Hart) : (h.skip).waitSince = h.waitSince := rfl
@[simp] theorem Hart.skip_frozen (h : Hart) : (h.skip).frozen = h.frozen := rfl
@[simp] theorem Hart.skip_frozenReason (h : Hart) : (h.skip).frozenReason = h.frozenReason := rfl
@[simp] theorem Hart.skip_held (h : Hart) : (h.skip).held = h.held := rfl
@[simp] theorem Hart.skip_bar (h : Hart) : (h.skip).bar = h.bar := rfl
@[simp] theorem Hart.skip_barPc (h : Hart) : (h.skip).barPc = h.barPc := rfl
@[simp] theorem Hart.skip_gang (h : Hart) : (h.skip).gang = h.gang := rfl
@[simp] theorem Hart.skip_mcast (h : Hart) : (h.skip).mcast = h.mcast := rfl
@[simp] theorem Hart.skip_strip (h : Hart) : (h.skip).strip = h.strip := rfl
@[simp] theorem Hart.skip_sbpend (h : Hart) : (h.skip).sbpend = h.sbpend := rfl
@[simp] theorem Hart.skip_flushAt (h : Hart) : (h.skip).flushAt = h.flushAt := rfl
@[simp] theorem Hart.skip_stale (h : Hart) : (h.skip).stale = h.stale := rfl
@[simp] theorem Hart.skip_woosaddr (h : Hart) : (h.skip).woosaddr = h.woosaddr := rfl
@[simp] theorem Hart.skip_refillSince (h : Hart) : (h.skip).refillSince = h.refillSince := rfl
@[simp] theorem Hart.skip_saved (h : Hart) : (h.skip).saved = h.saved := rfl
@[simp] theorem Hart.skip_lcache (h : Hart) : (h.skip).lcache = h.lcache := rfl

/-! ### Hart.beats -/

@[simp] theorem Hart.beats_ctx (h : Hart) (n : Nat) : (h.beats n).ctx = h.ctx := rfl
@[simp] theorem Hart.beats_pc (h : Hart) (n : Nat) : (h.beats n).pc = h.pc := rfl
@[simp] theorem Hart.beats_g (h : Hart) (n : Nat) : (h.beats n).g = h.g := rfl
@[simp] theorem Hart.beats_f (h : Hart) (n : Nat) : (h.beats n).f = h.f := rfl
@[simp] theorem Hart.beats_v (h : Hart) (n : Nat) : (h.beats n).v = h.v := rfl
@[simp] theorem Hart.beats_m (h : Hart) (n : Nat) : (h.beats n).m = h.m := rfl
@[simp] theorem Hart.beats_xacc (h : Hart) (n : Nat) : (h.beats n).xacc = h.xacc := rfl
@[simp] theorem Hart.beats_slots (h : Hart) (n : Nat) : (h.beats n).slots = h.slots := rfl
@[simp] theorem Hart.beats_binds (h : Hart) (n : Nat) : (h.beats n).binds = h.binds := rfl
@[simp] theorem Hart.beats_status (h : Hart) (n : Nat) : (h.beats n).status = h.status := rfl
@[simp] theorem Hart.beats_fflags (h : Hart) (n : Nat) : (h.beats n).fflags = h.fflags := rfl
@[simp] theorem Hart.beats_tcInt (h : Hart) (n : Nat) : (h.beats n).tcInt = h.tcInt := rfl
@[simp] theorem Hart.beats_tcCode (h : Hart) (n : Nat) : (h.beats n).tcCode = h.tcCode := rfl
@[simp] theorem Hart.beats_ipend (h : Hart) (n : Nat) : (h.beats n).ipend = h.ipend := rfl
@[simp] theorem Hart.beats_trappc (h : Hart) (n : Nat) : (h.beats n).trappc = h.trappc := rfl
@[simp] theorem Hart.beats_trapval (h : Hart) (n : Nat) : (h.beats n).trapval = h.trapval := rfl
@[simp] theorem Hart.beats_trapvec (h : Hart) (n : Nat) : (h.beats n).trapvec = h.trapvec := rfl
@[simp] theorem Hart.beats_ipval (h : Hart) (n : Nat) : (h.beats n).ipval = h.ipval := rfl
@[simp] theorem Hart.beats_vl (h : Hart) (n : Nat) : (h.beats n).vl = h.vl := rfl
@[simp] theorem Hart.beats_vtype (h : Hart) (n : Nat) : (h.beats n).vtype = h.vtype := rfl
@[simp] theorem Hart.beats_vcfg (h : Hart) (n : Nat) : (h.beats n).vcfg = h.vcfg := rfl
@[simp] theorem Hart.beats_vgrant (h : Hart) (n : Nat) : (h.beats n).vgrant = h.vgrant := rfl
@[simp] theorem Hart.beats_vcp (h : Hart) (n : Nat) : (h.beats n).vcp = h.vcp := rfl
@[simp] theorem Hart.beats_estart (h : Hart) (n : Nat) : (h.beats n).estart = h.estart := rfl
@[simp] theorem Hart.beats_tshape (h : Hart) (n : Nat) : (h.beats n).tshape = h.tshape := rfl
@[simp] theorem Hart.beats_srseed (h : Hart) (n : Nat) : (h.beats n).srseed = h.srseed := rfl
@[simp] theorem Hart.beats_srctr (h : Hart) (n : Nat) : (h.beats n).srctr = h.srctr := rfl
@[simp] theorem Hart.beats_tkroute (h : Hart) (n : Nat) : (h.beats n).tkroute = h.tkroute := rfl
@[simp] theorem Hart.beats_prio (h : Hart) (n : Nat) : (h.beats n).prio = h.prio := rfl
@[simp] theorem Hart.beats_effective (h : Hart) (n : Nat) : (h.beats n).effective = h.effective := rfl
@[simp] theorem Hart.beats_sliceStart (h : Hart) (n : Nat) : (h.beats n).sliceStart = h.sliceStart := rfl
@[simp] theorem Hart.beats_sliceHead (h : Hart) (n : Nat) : (h.beats n).sliceHead = h.sliceHead := rfl
@[simp] theorem Hart.beats_sbcap (h : Hart) (n : Nat) : (h.beats n).sbcap = h.sbcap := rfl
@[simp] theorem Hart.beats_fstat (h : Hart) (n : Nat) : (h.beats n).fstat = h.fstat := rfl
@[simp] theorem Hart.beats_stepid (h : Hart) (n : Nat) : (h.beats n).stepid = h.stepid := rfl
@[simp] theorem Hart.beats_dlslack (h : Hart) (n : Nat) : (h.beats n).dlslack = h.dlslack := rfl
@[simp] theorem Hart.beats_step (h : Hart) (n : Nat) : (h.beats n).step = h.step.map fun r => { r with done := r.done + n } := rfl
@[simp] theorem Hart.beats_vq (h : Hart) (n : Nat) : (h.beats n).vq = h.vq := rfl
@[simp] theorem Hart.beats_mq (h : Hart) (n : Nat) : (h.beats n).mq = h.mq := rfl
@[simp] theorem Hart.beats_sq (h : Hart) (n : Nat) : (h.beats n).sq = h.sq := rfl
@[simp] theorem Hart.beats_seq (h : Hart) (n : Nat) : (h.beats n).seq = h.seq := rfl
@[simp] theorem Hart.beats_qstop (h : Hart) (n : Nat) : (h.beats n).qstop = h.qstop := rfl
@[simp] theorem Hart.beats_inTrap (h : Hart) (n : Nat) : (h.beats n).inTrap = h.inTrap := rfl
@[simp] theorem Hart.beats_faults (h : Hart) (n : Nat) : (h.beats n).faults = h.faults := rfl
@[simp] theorem Hart.beats_tok (h : Hart) (n : Nat) : (h.beats n).tok = h.tok := rfl
@[simp] theorem Hart.beats_ilk (h : Hart) (n : Nat) : (h.beats n).ilk = h.ilk := rfl
@[simp] theorem Hart.beats_convoy (h : Hart) (n : Nat) : (h.beats n).convoy = h.convoy := rfl
@[simp] theorem Hart.beats_groups (h : Hart) (n : Nat) : (h.beats n).groups = h.groups := rfl
@[simp] theorem Hart.beats_deficit (h : Hart) (n : Nat) : (h.beats n).deficit = h.deficit := rfl
@[simp] theorem Hart.beats_spill (h : Hart) (n : Nat) : (h.beats n).spill = h.spill := rfl
@[simp] theorem Hart.beats_wait (h : Hart) (n : Nat) : (h.beats n).wait = h.wait := rfl
@[simp] theorem Hart.beats_waitSince (h : Hart) (n : Nat) : (h.beats n).waitSince = h.waitSince := rfl
@[simp] theorem Hart.beats_frozen (h : Hart) (n : Nat) : (h.beats n).frozen = h.frozen := rfl
@[simp] theorem Hart.beats_frozenReason (h : Hart) (n : Nat) : (h.beats n).frozenReason = h.frozenReason := rfl
@[simp] theorem Hart.beats_held (h : Hart) (n : Nat) : (h.beats n).held = h.held := rfl
@[simp] theorem Hart.beats_bar (h : Hart) (n : Nat) : (h.beats n).bar = h.bar := rfl
@[simp] theorem Hart.beats_barPc (h : Hart) (n : Nat) : (h.beats n).barPc = h.barPc := rfl
@[simp] theorem Hart.beats_gang (h : Hart) (n : Nat) : (h.beats n).gang = h.gang := rfl
@[simp] theorem Hart.beats_mcast (h : Hart) (n : Nat) : (h.beats n).mcast = h.mcast := rfl
@[simp] theorem Hart.beats_strip (h : Hart) (n : Nat) : (h.beats n).strip = h.strip := rfl
@[simp] theorem Hart.beats_sbpend (h : Hart) (n : Nat) : (h.beats n).sbpend = h.sbpend := rfl
@[simp] theorem Hart.beats_flushAt (h : Hart) (n : Nat) : (h.beats n).flushAt = h.flushAt := rfl
@[simp] theorem Hart.beats_stale (h : Hart) (n : Nat) : (h.beats n).stale = h.stale := rfl
@[simp] theorem Hart.beats_woosaddr (h : Hart) (n : Nat) : (h.beats n).woosaddr = h.woosaddr := rfl
@[simp] theorem Hart.beats_refillSince (h : Hart) (n : Nat) : (h.beats n).refillSince = h.refillSince := rfl
@[simp] theorem Hart.beats_saved (h : Hart) (n : Nat) : (h.beats n).saved = h.saved := rfl
@[simp] theorem Hart.beats_lcache (h : Hart) (n : Nat) : (h.beats n).lcache = h.lcache := rfl

/-! ### Hart.orFlags -/

@[simp] theorem Hart.orFlags_ctx (h : Hart) (fl : Nat) : (h.orFlags fl).ctx = h.ctx := rfl
@[simp] theorem Hart.orFlags_pc (h : Hart) (fl : Nat) : (h.orFlags fl).pc = h.pc := rfl
@[simp] theorem Hart.orFlags_g (h : Hart) (fl : Nat) : (h.orFlags fl).g = h.g := rfl
@[simp] theorem Hart.orFlags_f (h : Hart) (fl : Nat) : (h.orFlags fl).f = h.f := rfl
@[simp] theorem Hart.orFlags_v (h : Hart) (fl : Nat) : (h.orFlags fl).v = h.v := rfl
@[simp] theorem Hart.orFlags_m (h : Hart) (fl : Nat) : (h.orFlags fl).m = h.m := rfl
@[simp] theorem Hart.orFlags_xacc (h : Hart) (fl : Nat) : (h.orFlags fl).xacc = h.xacc := rfl
@[simp] theorem Hart.orFlags_slots (h : Hart) (fl : Nat) : (h.orFlags fl).slots = h.slots := rfl
@[simp] theorem Hart.orFlags_binds (h : Hart) (fl : Nat) : (h.orFlags fl).binds = h.binds := rfl
@[simp] theorem Hart.orFlags_status (h : Hart) (fl : Nat) : (h.orFlags fl).status = h.status := rfl
@[simp] theorem Hart.orFlags_fflags (h : Hart) (fl : Nat) : (h.orFlags fl).fflags = h.fflags ||| fl := rfl
@[simp] theorem Hart.orFlags_tcInt (h : Hart) (fl : Nat) : (h.orFlags fl).tcInt = h.tcInt := rfl
@[simp] theorem Hart.orFlags_tcCode (h : Hart) (fl : Nat) : (h.orFlags fl).tcCode = h.tcCode := rfl
@[simp] theorem Hart.orFlags_ipend (h : Hart) (fl : Nat) : (h.orFlags fl).ipend = h.ipend := rfl
@[simp] theorem Hart.orFlags_trappc (h : Hart) (fl : Nat) : (h.orFlags fl).trappc = h.trappc := rfl
@[simp] theorem Hart.orFlags_trapval (h : Hart) (fl : Nat) : (h.orFlags fl).trapval = h.trapval := rfl
@[simp] theorem Hart.orFlags_trapvec (h : Hart) (fl : Nat) : (h.orFlags fl).trapvec = h.trapvec := rfl
@[simp] theorem Hart.orFlags_ipval (h : Hart) (fl : Nat) : (h.orFlags fl).ipval = h.ipval := rfl
@[simp] theorem Hart.orFlags_vl (h : Hart) (fl : Nat) : (h.orFlags fl).vl = h.vl := rfl
@[simp] theorem Hart.orFlags_vtype (h : Hart) (fl : Nat) : (h.orFlags fl).vtype = h.vtype := rfl
@[simp] theorem Hart.orFlags_vcfg (h : Hart) (fl : Nat) : (h.orFlags fl).vcfg = h.vcfg := rfl
@[simp] theorem Hart.orFlags_vgrant (h : Hart) (fl : Nat) : (h.orFlags fl).vgrant = h.vgrant := rfl
@[simp] theorem Hart.orFlags_vcp (h : Hart) (fl : Nat) : (h.orFlags fl).vcp = h.vcp := rfl
@[simp] theorem Hart.orFlags_estart (h : Hart) (fl : Nat) : (h.orFlags fl).estart = h.estart := rfl
@[simp] theorem Hart.orFlags_tshape (h : Hart) (fl : Nat) : (h.orFlags fl).tshape = h.tshape := rfl
@[simp] theorem Hart.orFlags_srseed (h : Hart) (fl : Nat) : (h.orFlags fl).srseed = h.srseed := rfl
@[simp] theorem Hart.orFlags_srctr (h : Hart) (fl : Nat) : (h.orFlags fl).srctr = h.srctr := rfl
@[simp] theorem Hart.orFlags_tkroute (h : Hart) (fl : Nat) : (h.orFlags fl).tkroute = h.tkroute := rfl
@[simp] theorem Hart.orFlags_prio (h : Hart) (fl : Nat) : (h.orFlags fl).prio = h.prio := rfl
@[simp] theorem Hart.orFlags_effective (h : Hart) (fl : Nat) : (h.orFlags fl).effective = h.effective := rfl
@[simp] theorem Hart.orFlags_sliceStart (h : Hart) (fl : Nat) : (h.orFlags fl).sliceStart = h.sliceStart := rfl
@[simp] theorem Hart.orFlags_sliceHead (h : Hart) (fl : Nat) : (h.orFlags fl).sliceHead = h.sliceHead := rfl
@[simp] theorem Hart.orFlags_sbcap (h : Hart) (fl : Nat) : (h.orFlags fl).sbcap = h.sbcap := rfl
@[simp] theorem Hart.orFlags_fstat (h : Hart) (fl : Nat) : (h.orFlags fl).fstat = h.fstat := rfl
@[simp] theorem Hart.orFlags_stepid (h : Hart) (fl : Nat) : (h.orFlags fl).stepid = h.stepid := rfl
@[simp] theorem Hart.orFlags_dlslack (h : Hart) (fl : Nat) : (h.orFlags fl).dlslack = h.dlslack := rfl
@[simp] theorem Hart.orFlags_step (h : Hart) (fl : Nat) : (h.orFlags fl).step = h.step := rfl
@[simp] theorem Hart.orFlags_vq (h : Hart) (fl : Nat) : (h.orFlags fl).vq = h.vq := rfl
@[simp] theorem Hart.orFlags_mq (h : Hart) (fl : Nat) : (h.orFlags fl).mq = h.mq := rfl
@[simp] theorem Hart.orFlags_sq (h : Hart) (fl : Nat) : (h.orFlags fl).sq = h.sq := rfl
@[simp] theorem Hart.orFlags_seq (h : Hart) (fl : Nat) : (h.orFlags fl).seq = h.seq := rfl
@[simp] theorem Hart.orFlags_qstop (h : Hart) (fl : Nat) : (h.orFlags fl).qstop = h.qstop := rfl
@[simp] theorem Hart.orFlags_inTrap (h : Hart) (fl : Nat) : (h.orFlags fl).inTrap = h.inTrap := rfl
@[simp] theorem Hart.orFlags_faults (h : Hart) (fl : Nat) : (h.orFlags fl).faults = h.faults := rfl
@[simp] theorem Hart.orFlags_tok (h : Hart) (fl : Nat) : (h.orFlags fl).tok = h.tok := rfl
@[simp] theorem Hart.orFlags_ilk (h : Hart) (fl : Nat) : (h.orFlags fl).ilk = h.ilk := rfl
@[simp] theorem Hart.orFlags_convoy (h : Hart) (fl : Nat) : (h.orFlags fl).convoy = h.convoy := rfl
@[simp] theorem Hart.orFlags_groups (h : Hart) (fl : Nat) : (h.orFlags fl).groups = h.groups := rfl
@[simp] theorem Hart.orFlags_deficit (h : Hart) (fl : Nat) : (h.orFlags fl).deficit = h.deficit := rfl
@[simp] theorem Hart.orFlags_spill (h : Hart) (fl : Nat) : (h.orFlags fl).spill = h.spill := rfl
@[simp] theorem Hart.orFlags_wait (h : Hart) (fl : Nat) : (h.orFlags fl).wait = h.wait := rfl
@[simp] theorem Hart.orFlags_waitSince (h : Hart) (fl : Nat) : (h.orFlags fl).waitSince = h.waitSince := rfl
@[simp] theorem Hart.orFlags_frozen (h : Hart) (fl : Nat) : (h.orFlags fl).frozen = h.frozen := rfl
@[simp] theorem Hart.orFlags_frozenReason (h : Hart) (fl : Nat) : (h.orFlags fl).frozenReason = h.frozenReason := rfl
@[simp] theorem Hart.orFlags_held (h : Hart) (fl : Nat) : (h.orFlags fl).held = h.held := rfl
@[simp] theorem Hart.orFlags_bar (h : Hart) (fl : Nat) : (h.orFlags fl).bar = h.bar := rfl
@[simp] theorem Hart.orFlags_barPc (h : Hart) (fl : Nat) : (h.orFlags fl).barPc = h.barPc := rfl
@[simp] theorem Hart.orFlags_gang (h : Hart) (fl : Nat) : (h.orFlags fl).gang = h.gang := rfl
@[simp] theorem Hart.orFlags_mcast (h : Hart) (fl : Nat) : (h.orFlags fl).mcast = h.mcast := rfl
@[simp] theorem Hart.orFlags_strip (h : Hart) (fl : Nat) : (h.orFlags fl).strip = h.strip := rfl
@[simp] theorem Hart.orFlags_sbpend (h : Hart) (fl : Nat) : (h.orFlags fl).sbpend = h.sbpend := rfl
@[simp] theorem Hart.orFlags_flushAt (h : Hart) (fl : Nat) : (h.orFlags fl).flushAt = h.flushAt := rfl
@[simp] theorem Hart.orFlags_stale (h : Hart) (fl : Nat) : (h.orFlags fl).stale = h.stale := rfl
@[simp] theorem Hart.orFlags_woosaddr (h : Hart) (fl : Nat) : (h.orFlags fl).woosaddr = h.woosaddr := rfl
@[simp] theorem Hart.orFlags_refillSince (h : Hart) (fl : Nat) : (h.orFlags fl).refillSince = h.refillSince := rfl
@[simp] theorem Hart.orFlags_saved (h : Hart) (fl : Nat) : (h.orFlags fl).saved = h.saved := rfl
@[simp] theorem Hart.orFlags_lcache (h : Hart) (fl : Nat) : (h.orFlags fl).lcache = h.lcache := rfl

/-! ### Hart.setF -/

@[simp] theorem Hart.setF_ctx (h : Hart) (n : Nat) (x : W32) : (h.setF n x).ctx = h.ctx := rfl
@[simp] theorem Hart.setF_pc (h : Hart) (n : Nat) (x : W32) : (h.setF n x).pc = h.pc := rfl
@[simp] theorem Hart.setF_g (h : Hart) (n : Nat) (x : W32) : (h.setF n x).g = h.g := rfl
@[simp] theorem Hart.setF_f (h : Hart) (n : Nat) (x : W32) : (h.setF n x).f = h.f.setIfInBounds n x := rfl
@[simp] theorem Hart.setF_v (h : Hart) (n : Nat) (x : W32) : (h.setF n x).v = h.v := rfl
@[simp] theorem Hart.setF_m (h : Hart) (n : Nat) (x : W32) : (h.setF n x).m = h.m := rfl
@[simp] theorem Hart.setF_xacc (h : Hart) (n : Nat) (x : W32) : (h.setF n x).xacc = h.xacc := rfl
@[simp] theorem Hart.setF_slots (h : Hart) (n : Nat) (x : W32) : (h.setF n x).slots = h.slots := rfl
@[simp] theorem Hart.setF_binds (h : Hart) (n : Nat) (x : W32) : (h.setF n x).binds = h.binds := rfl
@[simp] theorem Hart.setF_status (h : Hart) (n : Nat) (x : W32) : (h.setF n x).status = h.status := rfl
@[simp] theorem Hart.setF_fflags (h : Hart) (n : Nat) (x : W32) : (h.setF n x).fflags = h.fflags := rfl
@[simp] theorem Hart.setF_tcInt (h : Hart) (n : Nat) (x : W32) : (h.setF n x).tcInt = h.tcInt := rfl
@[simp] theorem Hart.setF_tcCode (h : Hart) (n : Nat) (x : W32) : (h.setF n x).tcCode = h.tcCode := rfl
@[simp] theorem Hart.setF_ipend (h : Hart) (n : Nat) (x : W32) : (h.setF n x).ipend = h.ipend := rfl
@[simp] theorem Hart.setF_trappc (h : Hart) (n : Nat) (x : W32) : (h.setF n x).trappc = h.trappc := rfl
@[simp] theorem Hart.setF_trapval (h : Hart) (n : Nat) (x : W32) : (h.setF n x).trapval = h.trapval := rfl
@[simp] theorem Hart.setF_trapvec (h : Hart) (n : Nat) (x : W32) : (h.setF n x).trapvec = h.trapvec := rfl
@[simp] theorem Hart.setF_ipval (h : Hart) (n : Nat) (x : W32) : (h.setF n x).ipval = h.ipval := rfl
@[simp] theorem Hart.setF_vl (h : Hart) (n : Nat) (x : W32) : (h.setF n x).vl = h.vl := rfl
@[simp] theorem Hart.setF_vtype (h : Hart) (n : Nat) (x : W32) : (h.setF n x).vtype = h.vtype := rfl
@[simp] theorem Hart.setF_vcfg (h : Hart) (n : Nat) (x : W32) : (h.setF n x).vcfg = h.vcfg := rfl
@[simp] theorem Hart.setF_vgrant (h : Hart) (n : Nat) (x : W32) : (h.setF n x).vgrant = h.vgrant := rfl
@[simp] theorem Hart.setF_vcp (h : Hart) (n : Nat) (x : W32) : (h.setF n x).vcp = h.vcp := rfl
@[simp] theorem Hart.setF_estart (h : Hart) (n : Nat) (x : W32) : (h.setF n x).estart = h.estart := rfl
@[simp] theorem Hart.setF_tshape (h : Hart) (n : Nat) (x : W32) : (h.setF n x).tshape = h.tshape := rfl
@[simp] theorem Hart.setF_srseed (h : Hart) (n : Nat) (x : W32) : (h.setF n x).srseed = h.srseed := rfl
@[simp] theorem Hart.setF_srctr (h : Hart) (n : Nat) (x : W32) : (h.setF n x).srctr = h.srctr := rfl
@[simp] theorem Hart.setF_tkroute (h : Hart) (n : Nat) (x : W32) : (h.setF n x).tkroute = h.tkroute := rfl
@[simp] theorem Hart.setF_prio (h : Hart) (n : Nat) (x : W32) : (h.setF n x).prio = h.prio := rfl
@[simp] theorem Hart.setF_effective (h : Hart) (n : Nat) (x : W32) : (h.setF n x).effective = h.effective := rfl
@[simp] theorem Hart.setF_sliceStart (h : Hart) (n : Nat) (x : W32) : (h.setF n x).sliceStart = h.sliceStart := rfl
@[simp] theorem Hart.setF_sliceHead (h : Hart) (n : Nat) (x : W32) : (h.setF n x).sliceHead = h.sliceHead := rfl
@[simp] theorem Hart.setF_sbcap (h : Hart) (n : Nat) (x : W32) : (h.setF n x).sbcap = h.sbcap := rfl
@[simp] theorem Hart.setF_fstat (h : Hart) (n : Nat) (x : W32) : (h.setF n x).fstat = h.fstat := rfl
@[simp] theorem Hart.setF_stepid (h : Hart) (n : Nat) (x : W32) : (h.setF n x).stepid = h.stepid := rfl
@[simp] theorem Hart.setF_dlslack (h : Hart) (n : Nat) (x : W32) : (h.setF n x).dlslack = h.dlslack := rfl
@[simp] theorem Hart.setF_step (h : Hart) (n : Nat) (x : W32) : (h.setF n x).step = h.step := rfl
@[simp] theorem Hart.setF_vq (h : Hart) (n : Nat) (x : W32) : (h.setF n x).vq = h.vq := rfl
@[simp] theorem Hart.setF_mq (h : Hart) (n : Nat) (x : W32) : (h.setF n x).mq = h.mq := rfl
@[simp] theorem Hart.setF_sq (h : Hart) (n : Nat) (x : W32) : (h.setF n x).sq = h.sq := rfl
@[simp] theorem Hart.setF_seq (h : Hart) (n : Nat) (x : W32) : (h.setF n x).seq = h.seq := rfl
@[simp] theorem Hart.setF_qstop (h : Hart) (n : Nat) (x : W32) : (h.setF n x).qstop = h.qstop := rfl
@[simp] theorem Hart.setF_inTrap (h : Hart) (n : Nat) (x : W32) : (h.setF n x).inTrap = h.inTrap := rfl
@[simp] theorem Hart.setF_faults (h : Hart) (n : Nat) (x : W32) : (h.setF n x).faults = h.faults := rfl
@[simp] theorem Hart.setF_tok (h : Hart) (n : Nat) (x : W32) : (h.setF n x).tok = h.tok := rfl
@[simp] theorem Hart.setF_ilk (h : Hart) (n : Nat) (x : W32) : (h.setF n x).ilk = h.ilk := rfl
@[simp] theorem Hart.setF_convoy (h : Hart) (n : Nat) (x : W32) : (h.setF n x).convoy = h.convoy := rfl
@[simp] theorem Hart.setF_groups (h : Hart) (n : Nat) (x : W32) : (h.setF n x).groups = h.groups := rfl
@[simp] theorem Hart.setF_deficit (h : Hart) (n : Nat) (x : W32) : (h.setF n x).deficit = h.deficit := rfl
@[simp] theorem Hart.setF_spill (h : Hart) (n : Nat) (x : W32) : (h.setF n x).spill = h.spill := rfl
@[simp] theorem Hart.setF_wait (h : Hart) (n : Nat) (x : W32) : (h.setF n x).wait = h.wait := rfl
@[simp] theorem Hart.setF_waitSince (h : Hart) (n : Nat) (x : W32) : (h.setF n x).waitSince = h.waitSince := rfl
@[simp] theorem Hart.setF_frozen (h : Hart) (n : Nat) (x : W32) : (h.setF n x).frozen = h.frozen := rfl
@[simp] theorem Hart.setF_frozenReason (h : Hart) (n : Nat) (x : W32) : (h.setF n x).frozenReason = h.frozenReason := rfl
@[simp] theorem Hart.setF_held (h : Hart) (n : Nat) (x : W32) : (h.setF n x).held = h.held := rfl
@[simp] theorem Hart.setF_bar (h : Hart) (n : Nat) (x : W32) : (h.setF n x).bar = h.bar := rfl
@[simp] theorem Hart.setF_barPc (h : Hart) (n : Nat) (x : W32) : (h.setF n x).barPc = h.barPc := rfl
@[simp] theorem Hart.setF_gang (h : Hart) (n : Nat) (x : W32) : (h.setF n x).gang = h.gang := rfl
@[simp] theorem Hart.setF_mcast (h : Hart) (n : Nat) (x : W32) : (h.setF n x).mcast = h.mcast := rfl
@[simp] theorem Hart.setF_strip (h : Hart) (n : Nat) (x : W32) : (h.setF n x).strip = h.strip := rfl
@[simp] theorem Hart.setF_sbpend (h : Hart) (n : Nat) (x : W32) : (h.setF n x).sbpend = h.sbpend := rfl
@[simp] theorem Hart.setF_flushAt (h : Hart) (n : Nat) (x : W32) : (h.setF n x).flushAt = h.flushAt := rfl
@[simp] theorem Hart.setF_stale (h : Hart) (n : Nat) (x : W32) : (h.setF n x).stale = h.stale := rfl
@[simp] theorem Hart.setF_woosaddr (h : Hart) (n : Nat) (x : W32) : (h.setF n x).woosaddr = h.woosaddr := rfl
@[simp] theorem Hart.setF_refillSince (h : Hart) (n : Nat) (x : W32) : (h.setF n x).refillSince = h.refillSince := rfl
@[simp] theorem Hart.setF_saved (h : Hart) (n : Nat) (x : W32) : (h.setF n x).saved = h.saved := rfl
@[simp] theorem Hart.setF_lcache (h : Hart) (n : Nat) (x : W32) : (h.setF n x).lcache = h.lcache := rfl

/-! ### Hart.setTokens -/

@[simp] theorem Hart.setTokens_ctx (h : Hart) (f n : Nat) : (h.setTokens f n).ctx = h.ctx := rfl
@[simp] theorem Hart.setTokens_pc (h : Hart) (f n : Nat) : (h.setTokens f n).pc = h.pc := rfl
@[simp] theorem Hart.setTokens_g (h : Hart) (f n : Nat) : (h.setTokens f n).g = h.g := rfl
@[simp] theorem Hart.setTokens_f (h : Hart) (f n : Nat) : (h.setTokens f n).f = h.f := rfl
@[simp] theorem Hart.setTokens_v (h : Hart) (f n : Nat) : (h.setTokens f n).v = h.v := rfl
@[simp] theorem Hart.setTokens_m (h : Hart) (f n : Nat) : (h.setTokens f n).m = h.m := rfl
@[simp] theorem Hart.setTokens_xacc (h : Hart) (f n : Nat) : (h.setTokens f n).xacc = h.xacc := rfl
@[simp] theorem Hart.setTokens_slots (h : Hart) (f n : Nat) : (h.setTokens f n).slots = h.slots := rfl
@[simp] theorem Hart.setTokens_binds (h : Hart) (f n : Nat) : (h.setTokens f n).binds = h.binds := rfl
@[simp] theorem Hart.setTokens_status (h : Hart) (f n : Nat) : (h.setTokens f n).status = h.status := rfl
@[simp] theorem Hart.setTokens_fflags (h : Hart) (f n : Nat) : (h.setTokens f n).fflags = h.fflags := rfl
@[simp] theorem Hart.setTokens_tcInt (h : Hart) (f n : Nat) : (h.setTokens f n).tcInt = h.tcInt := rfl
@[simp] theorem Hart.setTokens_tcCode (h : Hart) (f n : Nat) : (h.setTokens f n).tcCode = h.tcCode := rfl
@[simp] theorem Hart.setTokens_ipend (h : Hart) (f n : Nat) : (h.setTokens f n).ipend = h.ipend := rfl
@[simp] theorem Hart.setTokens_trappc (h : Hart) (f n : Nat) : (h.setTokens f n).trappc = h.trappc := rfl
@[simp] theorem Hart.setTokens_trapval (h : Hart) (f n : Nat) : (h.setTokens f n).trapval = h.trapval := rfl
@[simp] theorem Hart.setTokens_trapvec (h : Hart) (f n : Nat) : (h.setTokens f n).trapvec = h.trapvec := rfl
@[simp] theorem Hart.setTokens_ipval (h : Hart) (f n : Nat) : (h.setTokens f n).ipval = h.ipval := rfl
@[simp] theorem Hart.setTokens_vl (h : Hart) (f n : Nat) : (h.setTokens f n).vl = h.vl := rfl
@[simp] theorem Hart.setTokens_vtype (h : Hart) (f n : Nat) : (h.setTokens f n).vtype = h.vtype := rfl
@[simp] theorem Hart.setTokens_vcfg (h : Hart) (f n : Nat) : (h.setTokens f n).vcfg = h.vcfg := rfl
@[simp] theorem Hart.setTokens_vgrant (h : Hart) (f n : Nat) : (h.setTokens f n).vgrant = h.vgrant := rfl
@[simp] theorem Hart.setTokens_vcp (h : Hart) (f n : Nat) : (h.setTokens f n).vcp = h.vcp := rfl
@[simp] theorem Hart.setTokens_estart (h : Hart) (f n : Nat) : (h.setTokens f n).estart = h.estart := rfl
@[simp] theorem Hart.setTokens_tshape (h : Hart) (f n : Nat) : (h.setTokens f n).tshape = h.tshape := rfl
@[simp] theorem Hart.setTokens_srseed (h : Hart) (f n : Nat) : (h.setTokens f n).srseed = h.srseed := rfl
@[simp] theorem Hart.setTokens_srctr (h : Hart) (f n : Nat) : (h.setTokens f n).srctr = h.srctr := rfl
@[simp] theorem Hart.setTokens_tkroute (h : Hart) (f n : Nat) : (h.setTokens f n).tkroute = h.tkroute := rfl
@[simp] theorem Hart.setTokens_prio (h : Hart) (f n : Nat) : (h.setTokens f n).prio = h.prio := rfl
@[simp] theorem Hart.setTokens_effective (h : Hart) (f n : Nat) : (h.setTokens f n).effective = h.effective := rfl
@[simp] theorem Hart.setTokens_sliceStart (h : Hart) (f n : Nat) : (h.setTokens f n).sliceStart = h.sliceStart := rfl
@[simp] theorem Hart.setTokens_sliceHead (h : Hart) (f n : Nat) : (h.setTokens f n).sliceHead = h.sliceHead := rfl
@[simp] theorem Hart.setTokens_sbcap (h : Hart) (f n : Nat) : (h.setTokens f n).sbcap = h.sbcap := rfl
@[simp] theorem Hart.setTokens_fstat (h : Hart) (f n : Nat) : (h.setTokens f n).fstat = h.fstat := rfl
@[simp] theorem Hart.setTokens_stepid (h : Hart) (f n : Nat) : (h.setTokens f n).stepid = h.stepid := rfl
@[simp] theorem Hart.setTokens_dlslack (h : Hart) (f n : Nat) : (h.setTokens f n).dlslack = h.dlslack := rfl
@[simp] theorem Hart.setTokens_step (h : Hart) (f n : Nat) : (h.setTokens f n).step = h.step := rfl
@[simp] theorem Hart.setTokens_vq (h : Hart) (f n : Nat) : (h.setTokens f n).vq = h.vq := rfl
@[simp] theorem Hart.setTokens_mq (h : Hart) (f n : Nat) : (h.setTokens f n).mq = h.mq := rfl
@[simp] theorem Hart.setTokens_sq (h : Hart) (f n : Nat) : (h.setTokens f n).sq = h.sq := rfl
@[simp] theorem Hart.setTokens_seq (h : Hart) (f n : Nat) : (h.setTokens f n).seq = h.seq := rfl
@[simp] theorem Hart.setTokens_qstop (h : Hart) (f n : Nat) : (h.setTokens f n).qstop = h.qstop := rfl
@[simp] theorem Hart.setTokens_inTrap (h : Hart) (f n : Nat) : (h.setTokens f n).inTrap = h.inTrap := rfl
@[simp] theorem Hart.setTokens_faults (h : Hart) (f n : Nat) : (h.setTokens f n).faults = h.faults := rfl
@[simp] theorem Hart.setTokens_tok (h : Hart) (f n : Nat) : (h.setTokens f n).tok = h.tok.setIfInBounds f n := rfl
@[simp] theorem Hart.setTokens_ilk (h : Hart) (f n : Nat) : (h.setTokens f n).ilk = h.ilk := rfl
@[simp] theorem Hart.setTokens_convoy (h : Hart) (f n : Nat) : (h.setTokens f n).convoy = h.convoy := rfl
@[simp] theorem Hart.setTokens_groups (h : Hart) (f n : Nat) : (h.setTokens f n).groups = h.groups := rfl
@[simp] theorem Hart.setTokens_deficit (h : Hart) (f n : Nat) : (h.setTokens f n).deficit = h.deficit := rfl
@[simp] theorem Hart.setTokens_spill (h : Hart) (f n : Nat) : (h.setTokens f n).spill = h.spill := rfl
@[simp] theorem Hart.setTokens_wait (h : Hart) (f n : Nat) : (h.setTokens f n).wait = h.wait := rfl
@[simp] theorem Hart.setTokens_waitSince (h : Hart) (f n : Nat) : (h.setTokens f n).waitSince = h.waitSince := rfl
@[simp] theorem Hart.setTokens_frozen (h : Hart) (f n : Nat) : (h.setTokens f n).frozen = h.frozen := rfl
@[simp] theorem Hart.setTokens_frozenReason (h : Hart) (f n : Nat) : (h.setTokens f n).frozenReason = h.frozenReason := rfl
@[simp] theorem Hart.setTokens_held (h : Hart) (f n : Nat) : (h.setTokens f n).held = h.held := rfl
@[simp] theorem Hart.setTokens_bar (h : Hart) (f n : Nat) : (h.setTokens f n).bar = h.bar := rfl
@[simp] theorem Hart.setTokens_barPc (h : Hart) (f n : Nat) : (h.setTokens f n).barPc = h.barPc := rfl
@[simp] theorem Hart.setTokens_gang (h : Hart) (f n : Nat) : (h.setTokens f n).gang = h.gang := rfl
@[simp] theorem Hart.setTokens_mcast (h : Hart) (f n : Nat) : (h.setTokens f n).mcast = h.mcast := rfl
@[simp] theorem Hart.setTokens_strip (h : Hart) (f n : Nat) : (h.setTokens f n).strip = h.strip := rfl
@[simp] theorem Hart.setTokens_sbpend (h : Hart) (f n : Nat) : (h.setTokens f n).sbpend = h.sbpend := rfl
@[simp] theorem Hart.setTokens_flushAt (h : Hart) (f n : Nat) : (h.setTokens f n).flushAt = h.flushAt := rfl
@[simp] theorem Hart.setTokens_stale (h : Hart) (f n : Nat) : (h.setTokens f n).stale = h.stale := rfl
@[simp] theorem Hart.setTokens_woosaddr (h : Hart) (f n : Nat) : (h.setTokens f n).woosaddr = h.woosaddr := rfl
@[simp] theorem Hart.setTokens_refillSince (h : Hart) (f n : Nat) : (h.setTokens f n).refillSince = h.refillSince := rfl
@[simp] theorem Hart.setTokens_saved (h : Hart) (f n : Nat) : (h.setTokens f n).saved = h.saved := rfl
@[simp] theorem Hart.setTokens_lcache (h : Hart) (f n : Nat) : (h.setTokens f n).lcache = h.lcache := rfl

/-! ### Hart.advance -/

@[simp] theorem Hart.advance_ctx (h : Hart) : (h.advance).ctx = h.ctx := rfl
@[simp] theorem Hart.advance_pc (h : Hart) : (h.advance).pc = h.pc + 4 := rfl
@[simp] theorem Hart.advance_g (h : Hart) : (h.advance).g = h.g := rfl
@[simp] theorem Hart.advance_f (h : Hart) : (h.advance).f = h.f := rfl
@[simp] theorem Hart.advance_v (h : Hart) : (h.advance).v = h.v := rfl
@[simp] theorem Hart.advance_m (h : Hart) : (h.advance).m = h.m := rfl
@[simp] theorem Hart.advance_xacc (h : Hart) : (h.advance).xacc = h.xacc := rfl
@[simp] theorem Hart.advance_slots (h : Hart) : (h.advance).slots = h.slots := rfl
@[simp] theorem Hart.advance_binds (h : Hart) : (h.advance).binds = h.binds := rfl
@[simp] theorem Hart.advance_status (h : Hart) : (h.advance).status = h.status := rfl
@[simp] theorem Hart.advance_fflags (h : Hart) : (h.advance).fflags = h.fflags := rfl
@[simp] theorem Hart.advance_tcInt (h : Hart) : (h.advance).tcInt = h.tcInt := rfl
@[simp] theorem Hart.advance_tcCode (h : Hart) : (h.advance).tcCode = h.tcCode := rfl
@[simp] theorem Hart.advance_ipend (h : Hart) : (h.advance).ipend = h.ipend := rfl
@[simp] theorem Hart.advance_trappc (h : Hart) : (h.advance).trappc = h.trappc := rfl
@[simp] theorem Hart.advance_trapval (h : Hart) : (h.advance).trapval = h.trapval := rfl
@[simp] theorem Hart.advance_trapvec (h : Hart) : (h.advance).trapvec = h.trapvec := rfl
@[simp] theorem Hart.advance_ipval (h : Hart) : (h.advance).ipval = h.ipval := rfl
@[simp] theorem Hart.advance_vl (h : Hart) : (h.advance).vl = h.vl := rfl
@[simp] theorem Hart.advance_vtype (h : Hart) : (h.advance).vtype = h.vtype := rfl
@[simp] theorem Hart.advance_vcfg (h : Hart) : (h.advance).vcfg = h.vcfg := rfl
@[simp] theorem Hart.advance_vgrant (h : Hart) : (h.advance).vgrant = h.vgrant := rfl
@[simp] theorem Hart.advance_vcp (h : Hart) : (h.advance).vcp = h.vcp := rfl
@[simp] theorem Hart.advance_estart (h : Hart) : (h.advance).estart = h.estart := rfl
@[simp] theorem Hart.advance_tshape (h : Hart) : (h.advance).tshape = h.tshape := rfl
@[simp] theorem Hart.advance_srseed (h : Hart) : (h.advance).srseed = h.srseed := rfl
@[simp] theorem Hart.advance_srctr (h : Hart) : (h.advance).srctr = h.srctr := rfl
@[simp] theorem Hart.advance_tkroute (h : Hart) : (h.advance).tkroute = h.tkroute := rfl
@[simp] theorem Hart.advance_prio (h : Hart) : (h.advance).prio = h.prio := rfl
@[simp] theorem Hart.advance_effective (h : Hart) : (h.advance).effective = h.effective := rfl
@[simp] theorem Hart.advance_sliceStart (h : Hart) : (h.advance).sliceStart = h.sliceStart := rfl
@[simp] theorem Hart.advance_sliceHead (h : Hart) : (h.advance).sliceHead = h.sliceHead := rfl
@[simp] theorem Hart.advance_sbcap (h : Hart) : (h.advance).sbcap = h.sbcap := rfl
@[simp] theorem Hart.advance_fstat (h : Hart) : (h.advance).fstat = h.fstat := rfl
@[simp] theorem Hart.advance_stepid (h : Hart) : (h.advance).stepid = h.stepid := rfl
@[simp] theorem Hart.advance_dlslack (h : Hart) : (h.advance).dlslack = h.dlslack := rfl
@[simp] theorem Hart.advance_step (h : Hart) : (h.advance).step = h.step.map fun r => { r with done := r.done + 1 } := rfl
@[simp] theorem Hart.advance_vq (h : Hart) : (h.advance).vq = h.vq := rfl
@[simp] theorem Hart.advance_mq (h : Hart) : (h.advance).mq = h.mq := rfl
@[simp] theorem Hart.advance_sq (h : Hart) : (h.advance).sq = h.sq := rfl
@[simp] theorem Hart.advance_seq (h : Hart) : (h.advance).seq = h.seq := rfl
@[simp] theorem Hart.advance_qstop (h : Hart) : (h.advance).qstop = h.qstop := rfl
@[simp] theorem Hart.advance_inTrap (h : Hart) : (h.advance).inTrap = h.inTrap := rfl
@[simp] theorem Hart.advance_faults (h : Hart) : (h.advance).faults = h.faults := rfl
@[simp] theorem Hart.advance_tok (h : Hart) : (h.advance).tok = h.tok := rfl
@[simp] theorem Hart.advance_ilk (h : Hart) : (h.advance).ilk = h.ilk := rfl
@[simp] theorem Hart.advance_convoy (h : Hart) : (h.advance).convoy = h.convoy := rfl
@[simp] theorem Hart.advance_groups (h : Hart) : (h.advance).groups = h.groups := rfl
@[simp] theorem Hart.advance_deficit (h : Hart) : (h.advance).deficit = h.deficit := rfl
@[simp] theorem Hart.advance_spill (h : Hart) : (h.advance).spill = h.spill := rfl
@[simp] theorem Hart.advance_wait (h : Hart) : (h.advance).wait = h.wait := rfl
@[simp] theorem Hart.advance_waitSince (h : Hart) : (h.advance).waitSince = h.waitSince := rfl
@[simp] theorem Hart.advance_frozen (h : Hart) : (h.advance).frozen = h.frozen := rfl
@[simp] theorem Hart.advance_frozenReason (h : Hart) : (h.advance).frozenReason = h.frozenReason := rfl
@[simp] theorem Hart.advance_held (h : Hart) : (h.advance).held = h.held := rfl
@[simp] theorem Hart.advance_bar (h : Hart) : (h.advance).bar = h.bar := rfl
@[simp] theorem Hart.advance_barPc (h : Hart) : (h.advance).barPc = h.barPc := rfl
@[simp] theorem Hart.advance_gang (h : Hart) : (h.advance).gang = h.gang := rfl
@[simp] theorem Hart.advance_mcast (h : Hart) : (h.advance).mcast = h.mcast := rfl
@[simp] theorem Hart.advance_strip (h : Hart) : (h.advance).strip = h.strip := rfl
@[simp] theorem Hart.advance_sbpend (h : Hart) : (h.advance).sbpend = h.sbpend := rfl
@[simp] theorem Hart.advance_flushAt (h : Hart) : (h.advance).flushAt = h.flushAt := rfl
@[simp] theorem Hart.advance_stale (h : Hart) : (h.advance).stale = h.stale := rfl
@[simp] theorem Hart.advance_woosaddr (h : Hart) : (h.advance).woosaddr = h.woosaddr := rfl
@[simp] theorem Hart.advance_refillSince (h : Hart) : (h.advance).refillSince = h.refillSince := rfl
@[simp] theorem Hart.advance_saved (h : Hart) : (h.advance).saved = h.saved := rfl
@[simp] theorem Hart.advance_lcache (h : Hart) : (h.advance).lcache = h.lcache := rfl

/-! ### Hart.jump -/

@[simp] theorem Hart.jump_ctx (h : Hart) (t : W64) : (h.jump t).ctx = h.ctx := rfl
@[simp] theorem Hart.jump_pc (h : Hart) (t : W64) : (h.jump t).pc = t &&& ~~~3 := rfl
@[simp] theorem Hart.jump_g (h : Hart) (t : W64) : (h.jump t).g = h.g := rfl
@[simp] theorem Hart.jump_f (h : Hart) (t : W64) : (h.jump t).f = h.f := rfl
@[simp] theorem Hart.jump_v (h : Hart) (t : W64) : (h.jump t).v = h.v := rfl
@[simp] theorem Hart.jump_m (h : Hart) (t : W64) : (h.jump t).m = h.m := rfl
@[simp] theorem Hart.jump_xacc (h : Hart) (t : W64) : (h.jump t).xacc = h.xacc := rfl
@[simp] theorem Hart.jump_slots (h : Hart) (t : W64) : (h.jump t).slots = h.slots := rfl
@[simp] theorem Hart.jump_binds (h : Hart) (t : W64) : (h.jump t).binds = h.binds := rfl
@[simp] theorem Hart.jump_status (h : Hart) (t : W64) : (h.jump t).status = h.status := rfl
@[simp] theorem Hart.jump_fflags (h : Hart) (t : W64) : (h.jump t).fflags = h.fflags := rfl
@[simp] theorem Hart.jump_tcInt (h : Hart) (t : W64) : (h.jump t).tcInt = h.tcInt := rfl
@[simp] theorem Hart.jump_tcCode (h : Hart) (t : W64) : (h.jump t).tcCode = h.tcCode := rfl
@[simp] theorem Hart.jump_ipend (h : Hart) (t : W64) : (h.jump t).ipend = h.ipend := rfl
@[simp] theorem Hart.jump_trappc (h : Hart) (t : W64) : (h.jump t).trappc = h.trappc := rfl
@[simp] theorem Hart.jump_trapval (h : Hart) (t : W64) : (h.jump t).trapval = h.trapval := rfl
@[simp] theorem Hart.jump_trapvec (h : Hart) (t : W64) : (h.jump t).trapvec = h.trapvec := rfl
@[simp] theorem Hart.jump_ipval (h : Hart) (t : W64) : (h.jump t).ipval = h.ipval := rfl
@[simp] theorem Hart.jump_vl (h : Hart) (t : W64) : (h.jump t).vl = h.vl := rfl
@[simp] theorem Hart.jump_vtype (h : Hart) (t : W64) : (h.jump t).vtype = h.vtype := rfl
@[simp] theorem Hart.jump_vcfg (h : Hart) (t : W64) : (h.jump t).vcfg = h.vcfg := rfl
@[simp] theorem Hart.jump_vgrant (h : Hart) (t : W64) : (h.jump t).vgrant = h.vgrant := rfl
@[simp] theorem Hart.jump_vcp (h : Hart) (t : W64) : (h.jump t).vcp = h.vcp := rfl
@[simp] theorem Hart.jump_estart (h : Hart) (t : W64) : (h.jump t).estart = h.estart := rfl
@[simp] theorem Hart.jump_tshape (h : Hart) (t : W64) : (h.jump t).tshape = h.tshape := rfl
@[simp] theorem Hart.jump_srseed (h : Hart) (t : W64) : (h.jump t).srseed = h.srseed := rfl
@[simp] theorem Hart.jump_srctr (h : Hart) (t : W64) : (h.jump t).srctr = h.srctr := rfl
@[simp] theorem Hart.jump_tkroute (h : Hart) (t : W64) : (h.jump t).tkroute = h.tkroute := rfl
@[simp] theorem Hart.jump_prio (h : Hart) (t : W64) : (h.jump t).prio = h.prio := rfl
@[simp] theorem Hart.jump_effective (h : Hart) (t : W64) : (h.jump t).effective = h.effective := rfl
@[simp] theorem Hart.jump_sliceStart (h : Hart) (t : W64) : (h.jump t).sliceStart = h.sliceStart := rfl
@[simp] theorem Hart.jump_sliceHead (h : Hart) (t : W64) : (h.jump t).sliceHead = h.sliceHead := rfl
@[simp] theorem Hart.jump_sbcap (h : Hart) (t : W64) : (h.jump t).sbcap = h.sbcap := rfl
@[simp] theorem Hart.jump_fstat (h : Hart) (t : W64) : (h.jump t).fstat = h.fstat := rfl
@[simp] theorem Hart.jump_stepid (h : Hart) (t : W64) : (h.jump t).stepid = h.stepid := rfl
@[simp] theorem Hart.jump_dlslack (h : Hart) (t : W64) : (h.jump t).dlslack = h.dlslack := rfl
@[simp] theorem Hart.jump_step (h : Hart) (t : W64) : (h.jump t).step = h.step.map fun r => { r with done := r.done + 1 } := rfl
@[simp] theorem Hart.jump_vq (h : Hart) (t : W64) : (h.jump t).vq = h.vq := rfl
@[simp] theorem Hart.jump_mq (h : Hart) (t : W64) : (h.jump t).mq = h.mq := rfl
@[simp] theorem Hart.jump_sq (h : Hart) (t : W64) : (h.jump t).sq = h.sq := rfl
@[simp] theorem Hart.jump_seq (h : Hart) (t : W64) : (h.jump t).seq = h.seq := rfl
@[simp] theorem Hart.jump_qstop (h : Hart) (t : W64) : (h.jump t).qstop = h.qstop := rfl
@[simp] theorem Hart.jump_inTrap (h : Hart) (t : W64) : (h.jump t).inTrap = h.inTrap := rfl
@[simp] theorem Hart.jump_faults (h : Hart) (t : W64) : (h.jump t).faults = h.faults := rfl
@[simp] theorem Hart.jump_tok (h : Hart) (t : W64) : (h.jump t).tok = h.tok := rfl
@[simp] theorem Hart.jump_ilk (h : Hart) (t : W64) : (h.jump t).ilk = h.ilk := rfl
@[simp] theorem Hart.jump_convoy (h : Hart) (t : W64) : (h.jump t).convoy = h.convoy := rfl
@[simp] theorem Hart.jump_groups (h : Hart) (t : W64) : (h.jump t).groups = h.groups := rfl
@[simp] theorem Hart.jump_deficit (h : Hart) (t : W64) : (h.jump t).deficit = h.deficit := rfl
@[simp] theorem Hart.jump_spill (h : Hart) (t : W64) : (h.jump t).spill = h.spill := rfl
@[simp] theorem Hart.jump_wait (h : Hart) (t : W64) : (h.jump t).wait = h.wait := rfl
@[simp] theorem Hart.jump_waitSince (h : Hart) (t : W64) : (h.jump t).waitSince = h.waitSince := rfl
@[simp] theorem Hart.jump_frozen (h : Hart) (t : W64) : (h.jump t).frozen = h.frozen := rfl
@[simp] theorem Hart.jump_frozenReason (h : Hart) (t : W64) : (h.jump t).frozenReason = h.frozenReason := rfl
@[simp] theorem Hart.jump_held (h : Hart) (t : W64) : (h.jump t).held = h.held := rfl
@[simp] theorem Hart.jump_bar (h : Hart) (t : W64) : (h.jump t).bar = h.bar := rfl
@[simp] theorem Hart.jump_barPc (h : Hart) (t : W64) : (h.jump t).barPc = h.barPc := rfl
@[simp] theorem Hart.jump_gang (h : Hart) (t : W64) : (h.jump t).gang = h.gang := rfl
@[simp] theorem Hart.jump_mcast (h : Hart) (t : W64) : (h.jump t).mcast = h.mcast := rfl
@[simp] theorem Hart.jump_strip (h : Hart) (t : W64) : (h.jump t).strip = h.strip := rfl
@[simp] theorem Hart.jump_sbpend (h : Hart) (t : W64) : (h.jump t).sbpend = h.sbpend := rfl
@[simp] theorem Hart.jump_flushAt (h : Hart) (t : W64) : (h.jump t).flushAt = h.flushAt := rfl
@[simp] theorem Hart.jump_stale (h : Hart) (t : W64) : (h.jump t).stale = h.stale := rfl
@[simp] theorem Hart.jump_woosaddr (h : Hart) (t : W64) : (h.jump t).woosaddr = h.woosaddr := rfl
@[simp] theorem Hart.jump_refillSince (h : Hart) (t : W64) : (h.jump t).refillSince = h.refillSince := rfl
@[simp] theorem Hart.jump_saved (h : Hart) (t : W64) : (h.jump t).saved = h.saved := rfl
@[simp] theorem Hart.jump_lcache (h : Hart) (t : W64) : (h.jump t).lcache = h.lcache := rfl

/-! ### Hart.setG: a write to g0 is discarded (R52) -/

@[simp] theorem Hart.setG_ctx (h : Hart) (n : Nat) (x : W64) : (h.setG n x).ctx = h.ctx := by unfold Hart.setG; split <;> rfl
@[simp] theorem Hart.setG_pc (h : Hart) (n : Nat) (x : W64) : (h.setG n x).pc = h.pc := by unfold Hart.setG; split <;> rfl
@[simp] theorem Hart.setG_f (h : Hart) (n : Nat) (x : W64) : (h.setG n x).f = h.f := by unfold Hart.setG; split <;> rfl
@[simp] theorem Hart.setG_v (h : Hart) (n : Nat) (x : W64) : (h.setG n x).v = h.v := by unfold Hart.setG; split <;> rfl
@[simp] theorem Hart.setG_m (h : Hart) (n : Nat) (x : W64) : (h.setG n x).m = h.m := by unfold Hart.setG; split <;> rfl
@[simp] theorem Hart.setG_xacc (h : Hart) (n : Nat) (x : W64) : (h.setG n x).xacc = h.xacc := by unfold Hart.setG; split <;> rfl
@[simp] theorem Hart.setG_slots (h : Hart) (n : Nat) (x : W64) : (h.setG n x).slots = h.slots := by unfold Hart.setG; split <;> rfl
@[simp] theorem Hart.setG_binds (h : Hart) (n : Nat) (x : W64) : (h.setG n x).binds = h.binds := by unfold Hart.setG; split <;> rfl
@[simp] theorem Hart.setG_status (h : Hart) (n : Nat) (x : W64) : (h.setG n x).status = h.status := by unfold Hart.setG; split <;> rfl
@[simp] theorem Hart.setG_fflags (h : Hart) (n : Nat) (x : W64) : (h.setG n x).fflags = h.fflags := by unfold Hart.setG; split <;> rfl
@[simp] theorem Hart.setG_tcInt (h : Hart) (n : Nat) (x : W64) : (h.setG n x).tcInt = h.tcInt := by unfold Hart.setG; split <;> rfl
@[simp] theorem Hart.setG_tcCode (h : Hart) (n : Nat) (x : W64) : (h.setG n x).tcCode = h.tcCode := by unfold Hart.setG; split <;> rfl
@[simp] theorem Hart.setG_ipend (h : Hart) (n : Nat) (x : W64) : (h.setG n x).ipend = h.ipend := by unfold Hart.setG; split <;> rfl
@[simp] theorem Hart.setG_trappc (h : Hart) (n : Nat) (x : W64) : (h.setG n x).trappc = h.trappc := by unfold Hart.setG; split <;> rfl
@[simp] theorem Hart.setG_trapval (h : Hart) (n : Nat) (x : W64) : (h.setG n x).trapval = h.trapval := by unfold Hart.setG; split <;> rfl
@[simp] theorem Hart.setG_trapvec (h : Hart) (n : Nat) (x : W64) : (h.setG n x).trapvec = h.trapvec := by unfold Hart.setG; split <;> rfl
@[simp] theorem Hart.setG_ipval (h : Hart) (n : Nat) (x : W64) : (h.setG n x).ipval = h.ipval := by unfold Hart.setG; split <;> rfl
@[simp] theorem Hart.setG_vl (h : Hart) (n : Nat) (x : W64) : (h.setG n x).vl = h.vl := by unfold Hart.setG; split <;> rfl
@[simp] theorem Hart.setG_vtype (h : Hart) (n : Nat) (x : W64) : (h.setG n x).vtype = h.vtype := by unfold Hart.setG; split <;> rfl
@[simp] theorem Hart.setG_vcfg (h : Hart) (n : Nat) (x : W64) : (h.setG n x).vcfg = h.vcfg := by unfold Hart.setG; split <;> rfl
@[simp] theorem Hart.setG_vgrant (h : Hart) (n : Nat) (x : W64) : (h.setG n x).vgrant = h.vgrant := by unfold Hart.setG; split <;> rfl
@[simp] theorem Hart.setG_vcp (h : Hart) (n : Nat) (x : W64) : (h.setG n x).vcp = h.vcp := by unfold Hart.setG; split <;> rfl
@[simp] theorem Hart.setG_estart (h : Hart) (n : Nat) (x : W64) : (h.setG n x).estart = h.estart := by unfold Hart.setG; split <;> rfl
@[simp] theorem Hart.setG_tshape (h : Hart) (n : Nat) (x : W64) : (h.setG n x).tshape = h.tshape := by unfold Hart.setG; split <;> rfl
@[simp] theorem Hart.setG_srseed (h : Hart) (n : Nat) (x : W64) : (h.setG n x).srseed = h.srseed := by unfold Hart.setG; split <;> rfl
@[simp] theorem Hart.setG_srctr (h : Hart) (n : Nat) (x : W64) : (h.setG n x).srctr = h.srctr := by unfold Hart.setG; split <;> rfl
@[simp] theorem Hart.setG_tkroute (h : Hart) (n : Nat) (x : W64) : (h.setG n x).tkroute = h.tkroute := by unfold Hart.setG; split <;> rfl
@[simp] theorem Hart.setG_prio (h : Hart) (n : Nat) (x : W64) : (h.setG n x).prio = h.prio := by unfold Hart.setG; split <;> rfl
@[simp] theorem Hart.setG_effective (h : Hart) (n : Nat) (x : W64) : (h.setG n x).effective = h.effective := by unfold Hart.setG; split <;> rfl
@[simp] theorem Hart.setG_sliceStart (h : Hart) (n : Nat) (x : W64) : (h.setG n x).sliceStart = h.sliceStart := by unfold Hart.setG; split <;> rfl
@[simp] theorem Hart.setG_sliceHead (h : Hart) (n : Nat) (x : W64) : (h.setG n x).sliceHead = h.sliceHead := by unfold Hart.setG; split <;> rfl
@[simp] theorem Hart.setG_sbcap (h : Hart) (n : Nat) (x : W64) : (h.setG n x).sbcap = h.sbcap := by unfold Hart.setG; split <;> rfl
@[simp] theorem Hart.setG_fstat (h : Hart) (n : Nat) (x : W64) : (h.setG n x).fstat = h.fstat := by unfold Hart.setG; split <;> rfl
@[simp] theorem Hart.setG_stepid (h : Hart) (n : Nat) (x : W64) : (h.setG n x).stepid = h.stepid := by unfold Hart.setG; split <;> rfl
@[simp] theorem Hart.setG_dlslack (h : Hart) (n : Nat) (x : W64) : (h.setG n x).dlslack = h.dlslack := by unfold Hart.setG; split <;> rfl
@[simp] theorem Hart.setG_step (h : Hart) (n : Nat) (x : W64) : (h.setG n x).step = h.step := by unfold Hart.setG; split <;> rfl
@[simp] theorem Hart.setG_vq (h : Hart) (n : Nat) (x : W64) : (h.setG n x).vq = h.vq := by unfold Hart.setG; split <;> rfl
@[simp] theorem Hart.setG_mq (h : Hart) (n : Nat) (x : W64) : (h.setG n x).mq = h.mq := by unfold Hart.setG; split <;> rfl
@[simp] theorem Hart.setG_sq (h : Hart) (n : Nat) (x : W64) : (h.setG n x).sq = h.sq := by unfold Hart.setG; split <;> rfl
@[simp] theorem Hart.setG_seq (h : Hart) (n : Nat) (x : W64) : (h.setG n x).seq = h.seq := by unfold Hart.setG; split <;> rfl
@[simp] theorem Hart.setG_qstop (h : Hart) (n : Nat) (x : W64) : (h.setG n x).qstop = h.qstop := by unfold Hart.setG; split <;> rfl
@[simp] theorem Hart.setG_inTrap (h : Hart) (n : Nat) (x : W64) : (h.setG n x).inTrap = h.inTrap := by unfold Hart.setG; split <;> rfl
@[simp] theorem Hart.setG_faults (h : Hart) (n : Nat) (x : W64) : (h.setG n x).faults = h.faults := by unfold Hart.setG; split <;> rfl
@[simp] theorem Hart.setG_tok (h : Hart) (n : Nat) (x : W64) : (h.setG n x).tok = h.tok := by unfold Hart.setG; split <;> rfl
@[simp] theorem Hart.setG_ilk (h : Hart) (n : Nat) (x : W64) : (h.setG n x).ilk = h.ilk := by unfold Hart.setG; split <;> rfl
@[simp] theorem Hart.setG_convoy (h : Hart) (n : Nat) (x : W64) : (h.setG n x).convoy = h.convoy := by unfold Hart.setG; split <;> rfl
@[simp] theorem Hart.setG_groups (h : Hart) (n : Nat) (x : W64) : (h.setG n x).groups = h.groups := by unfold Hart.setG; split <;> rfl
@[simp] theorem Hart.setG_deficit (h : Hart) (n : Nat) (x : W64) : (h.setG n x).deficit = h.deficit := by unfold Hart.setG; split <;> rfl
@[simp] theorem Hart.setG_spill (h : Hart) (n : Nat) (x : W64) : (h.setG n x).spill = h.spill := by unfold Hart.setG; split <;> rfl
@[simp] theorem Hart.setG_wait (h : Hart) (n : Nat) (x : W64) : (h.setG n x).wait = h.wait := by unfold Hart.setG; split <;> rfl
@[simp] theorem Hart.setG_waitSince (h : Hart) (n : Nat) (x : W64) : (h.setG n x).waitSince = h.waitSince := by unfold Hart.setG; split <;> rfl
@[simp] theorem Hart.setG_frozen (h : Hart) (n : Nat) (x : W64) : (h.setG n x).frozen = h.frozen := by unfold Hart.setG; split <;> rfl
@[simp] theorem Hart.setG_frozenReason (h : Hart) (n : Nat) (x : W64) : (h.setG n x).frozenReason = h.frozenReason := by unfold Hart.setG; split <;> rfl
@[simp] theorem Hart.setG_held (h : Hart) (n : Nat) (x : W64) : (h.setG n x).held = h.held := by unfold Hart.setG; split <;> rfl
@[simp] theorem Hart.setG_bar (h : Hart) (n : Nat) (x : W64) : (h.setG n x).bar = h.bar := by unfold Hart.setG; split <;> rfl
@[simp] theorem Hart.setG_barPc (h : Hart) (n : Nat) (x : W64) : (h.setG n x).barPc = h.barPc := by unfold Hart.setG; split <;> rfl
@[simp] theorem Hart.setG_gang (h : Hart) (n : Nat) (x : W64) : (h.setG n x).gang = h.gang := by unfold Hart.setG; split <;> rfl
@[simp] theorem Hart.setG_mcast (h : Hart) (n : Nat) (x : W64) : (h.setG n x).mcast = h.mcast := by unfold Hart.setG; split <;> rfl
@[simp] theorem Hart.setG_strip (h : Hart) (n : Nat) (x : W64) : (h.setG n x).strip = h.strip := by unfold Hart.setG; split <;> rfl
@[simp] theorem Hart.setG_sbpend (h : Hart) (n : Nat) (x : W64) : (h.setG n x).sbpend = h.sbpend := by unfold Hart.setG; split <;> rfl
@[simp] theorem Hart.setG_flushAt (h : Hart) (n : Nat) (x : W64) : (h.setG n x).flushAt = h.flushAt := by unfold Hart.setG; split <;> rfl
@[simp] theorem Hart.setG_stale (h : Hart) (n : Nat) (x : W64) : (h.setG n x).stale = h.stale := by unfold Hart.setG; split <;> rfl
@[simp] theorem Hart.setG_woosaddr (h : Hart) (n : Nat) (x : W64) : (h.setG n x).woosaddr = h.woosaddr := by unfold Hart.setG; split <;> rfl
@[simp] theorem Hart.setG_refillSince (h : Hart) (n : Nat) (x : W64) : (h.setG n x).refillSince = h.refillSince := by unfold Hart.setG; split <;> rfl
@[simp] theorem Hart.setG_saved (h : Hart) (n : Nat) (x : W64) : (h.setG n x).saved = h.saved := by unfold Hart.setG; split <;> rfl
@[simp] theorem Hart.setG_lcache (h : Hart) (n : Nat) (x : W64) : (h.setG n x).lcache = h.lcache := by unfold Hart.setG; split <;> rfl
@[simp] theorem Hart.setG_zero (h : Hart) (x : W64) : h.setG 0 x = h := rfl
theorem Hart.setG_g (h : Hart) (n : Nat) (x : W64) (hn : n ≠ 0) : (h.setG n x).g = h.g.setIfInBounds n x := by
  simp [Hart.setG, hn]

end Sys2Proof.Machine
end

