-- ==== Sys2Proof/Laws/Ops.lean ====
section
/-! SUPPORT. What the shared operations do, each said once: keyed lists, registers, the executing hart, scalar results,
traps, the supervisor check. -/

namespace Sys2Proof.Machine

/-! ### Keyed lists -/

theorem find?_put {α : Type} (l : List (Nat × α)) (k j : Nat) (a : α) :
    find? (put l k a) j = if k = j then some a else find? l j := by
  induction l with
  | nil => rfl
  | cons p t ih =>
    obtain ⟨i, b⟩ := p
    simp only [put]
    split
    · rfl
    · split
      · subst_vars; simp only [find?]; split <;> rfl
      · simp only [find?, ih]; split <;> split <;> first | rfl | omega

@[simp] theorem find?_put_same {α : Type} (l : List (Nat × α)) (k : Nat) (a : α) : find? (put l k a) k = some a := by
  simp [find?_put]

theorem find?_put_other {α : Type} (l : List (Nat × α)) {k j : Nat} (a : α) (h : k ≠ j) :
    find? (put l k a) j = find? l j := by simp [find?_put, h]

theorem getD_put {α : Type} (l : List (Nat × α)) (k j : Nat) (a d : α) :
    getD (put l k a) j d = if k = j then a else getD l j d := by
  simp only [getD, find?_put]; split <;> rfl

@[simp] theorem getD_put_same {α : Type} (l : List (Nat × α)) (k : Nat) (a d : α) : getD (put l k a) k d = a := by
  simp [getD_put]

/-- Two writes of one piece: the later stands. -/
@[simp] theorem put_put {α : Type} (l : List (Nat × α)) (k : Nat) (a b : α) : put (put l k a) k b = put l k b := by
  induction l with
  | nil => simp [put]
  | cons p t ih =>
    obtain ⟨i, c⟩ := p
    simp only [put]
    split
    · simp [put]
    · split
      · simp [put]
      · simp only [put, ih]; simp [*]

/-! ### The pieces of the state -/

@[simp] theorem State.hart?_setHart (s : State) (id : Nat) (h : Hart) : (s.setHart id h).hart? id = some h := by
  simp [State.hart?]

theorem State.hart?_setHart_other (s : State) {id j : Nat} (h : Hart) (hj : id ≠ j) :
    (s.setHart id h).hart? j = s.hart? j := by simp [State.hart?, find?_put, hj]

@[simp] theorem State.setHart_setHart (s : State) (id : Nat) (h h' : Hart) :
    (s.setHart id h).setHart id h' = s.setHart id h' := by
  simp only [State.setHart, put_put]

theorem State.modHart_some {s : State} {id : Nat} {h : Hart} (f : Hart → Hart) (hh : s.hart? id = some h) :
    s.modHart id f = s.setHart id (f h) := by simp [State.modHart, hh]

theorem State.modHart_none {s : State} {id : Nat} (f : Hart → Hart) (hh : s.hart? id = none) : s.modHart id f = s := by
  simp [State.modHart, hh]

@[simp] theorem State.core_setCore (s : State) (k : Nat) (c : Core) : (s.setCore k c).core k = c := by simp [State.core]
@[simp] theorem State.stn_setStn (s : State) (k : Nat) (t : Station) : (s.setStn k t).stn k = t := by simp [State.stn]
@[simp] theorem State.die_setDie (s : State) (d : Nat) (x : Die) : (s.setDie d x).die d = x := by simp [State.die]
@[simp] theorem State.ctx_setCtx (s : State) (c : Nat) (x : Ctx) : (s.setCtx c x).ctx c = x := by simp [State.ctx]

/-! ### Registers (R52) -/

@[simp] theorem Hart.rg_zero (h : Hart) : h.rg 0 = 0 := rfl

/-- A g-register after a write: the destination, unless it is g0 or no register. -/
theorem Hart.rg_setG (h : Hart) (d n : Nat) (x : W64) (hd : d < 32) :
    (h.setG d x).rg n = if n = d ∧ n ≠ 0 then x else h.rg n := by
  unfold Hart.rg Hart.setG vat
  by_cases hn : n = 0
  · simp [hn]
  · by_cases h0 : d = 0
    · simp [h0, hn]
    · by_cases e : n = d
      · subst e; simp [hn, hd]
      · simp [h0, hn, e, Ne.symm e]

theorem Hart.rf_setF (h : Hart) (d n : Nat) (x : W32) (hd : d < 16) :
    (h.setF d x).rf n = if n = d then x else h.rf n := by
  unfold Hart.rf Hart.setF vat
  by_cases e : n = d
  · subst e; simp [hd]
  · simp [e, Ne.symm e]

/-! ### The executing hart -/

theorem onHart_some {s : State} {h : Hart} (k : Nat → Hart → Out) (hh : s.hart? s.cur = some h) :
    onHart s k = k s.cur h := by simp [onHart, hh]

theorem onHart_none {s : State} (k : Nat → Hart → Out) (hh : s.hart? s.cur = none) : onHart s k = .fault .noHart := by
  simp [onHart, hh]

/-- A scalar instruction with one g-register result: the result, and the next word. -/
theorem aluOp_some {s : State} {h : Hart} (d : Nat) (f : Hart → W64) (hh : s.hart? s.cur = some h) :
    aluOp s d f = .next (s.setHart s.cur (h.setG d (f h)).advance) := by
  simp [aluOp, onHart_some _ hh, finish]

theorem fpuOp_some {s : State} {h : Hart} (d : Nat) (f : Hart → Nat × Nat) (hh : s.hart? s.cur = some h) :
    fpuOp s d f = .next (s.setHart s.cur ((h.setF d (BitVec.ofNat 32 (f h).1)).orFlags (f h).2).advance) := by
  simp [fpuOp, onHart_some _ hh, finish]

theorem fpuToG_some {s : State} {h : Hart} (d : Nat) (f : Hart → W64 × Nat) (hh : s.hart? s.cur = some h) :
    fpuToG s d f = .next (s.setHart s.cur ((h.setG d (f h).1).orFlags (f h).2).advance) := by
  simp [fpuToG, onHart_some _ hh, finish]

/-! ### Traps (R177) -/

/-- A precise trap of a hart that may take it. -/
theorem State.trapHart_taken {s : State} {id : Nat} {h : Hart} (c : Cause) (ret val : W64)
    (ht : h.sup = false ∨ h.ie = true) :
    s.trapHart id h c ret val = s.setHart id (h.takeTrap false c.code ret val) := by
  unfold State.trapHart; obtain ht | ht := ht <;> simp [ht]

/-- A double trap freezes the hart with reason 0x01. -/
theorem State.trapHart_double {s : State} {id : Nat} {h : Hart} (c : Cause) (ret val : W64)
    (hs : h.sup = true) (hi : h.ie = false) :
    s.trapHart id h c ret val = s.freezeHart id h 0x01 { cause := c, pc := ret, val := val } := by
  simp [State.trapHart, hs, hi]

@[simp] theorem Hart.takeTrap_g (h : Hart) (i : Bool) (c : Nat) (r v : W64) : (h.takeTrap i c r v).g = h.g := rfl
@[simp] theorem Hart.takeTrap_pc (h : Hart) (i : Bool) (c : Nat) (r v : W64) : (h.takeTrap i c r v).pc = h.vector := rfl
@[simp] theorem Hart.takeTrap_trappc (h : Hart) (i : Bool) (c : Nat) (r v : W64) :
    (h.takeTrap i c r v).trappc = trapPcField r := rfl
@[simp] theorem Hart.takeTrap_trapval (h : Hart) (i : Bool) (c : Nat) (r v : W64) : (h.takeTrap i c r v).trapval = v := rfl
@[simp] theorem Hart.takeTrap_tcCode (h : Hart) (i : Bool) (c : Nat) (r v : W64) : (h.takeTrap i c r v).tcCode = c := rfl
@[simp] theorem Hart.takeTrap_tcInt (h : Hart) (i : Bool) (c : Nat) (r v : W64) : (h.takeTrap i c r v).tcInt = i := rfl
@[simp] theorem Hart.takeTrap_status (h : Hart) (i : Bool) (c : Nat) (r v : W64) :
    (h.takeTrap i c r v).status = trapStatus h.status := rfl

theorem trapStatus_bits (st : W64) :
    (trapStatus st).getLsbD 0 = true ∧ (trapStatus st).getLsbD 1 = false ∧
    (trapStatus st).getLsbD 2 = st.getLsbD 0 ∧ (trapStatus st).getLsbD 3 = st.getLsbD 1 := by
  unfold trapStatus
  cases st.getLsbD 0 <;> cases st.getLsbD 1 <;> simp

/-- After RET.T, MODE is PMODE and IE is PIE (R173). -/
theorem retStatus_bits (st : W64) :
    (retStatus st).getLsbD 0 = st.getLsbD 2 ∧ (retStatus st).getLsbD 1 = st.getLsbD 3 := by
  unfold retStatus
  cases h2 : st.getLsbD 2 <;> cases h3 : st.getLsbD 3 <;> simp

/-- RET.T after a trap gives back MODE and IE. -/
theorem retStatus_trapStatus (st : W64) :
    (retStatus (trapStatus st)).getLsbD 0 = st.getLsbD 0 ∧ (retStatus (trapStatus st)).getLsbD 1 = st.getLsbD 1 := by
  rw [(retStatus_bits _).1, (retStatus_bits _).2, (trapStatus_bits st).2.2.1, (trapStatus_bits st).2.2.2]
  exact ⟨rfl, rfl⟩

/-! ### The supervisor check (R50) -/

theorem supOnly_sup {s : State} {h : Hart} (i : Instr) (k : Nat → Hart → Out) (hh : s.hart? s.cur = some h)
    (hs : h.sup = true) : supOnly s i k = k s.cur h := by simp [supOnly, onHart_some _ hh, hs]

theorem supOnly_user {s : State} {h : Hart} (i : Instr) (k : Nat → Hart → Out) (hh : s.hart? s.cur = some h)
    (hs : h.sup = false) :
    supOnly s i k = .next (s.setHart s.cur (h.takeTrap false 0x01 h.pc (w64 (encode i)))) := by
  simp [supOnly, onHart_some _ hh, hs, trapAt, State.trapHart_taken _ _ _ (.inl hs), Cause.code]

end Sys2Proof.Machine
end

