-- ==== Sys2Proof/Laws/PerInstr.lean ====
section
/-! SUPPORT. For every instruction: the word of a well-formed one has 32 bits (R29). -/

namespace Sys2Proof.Laws.Word32

set_option Elab.async false

/-- The word of a well-formed instruction fits in 32 bits (R29); an event has the word 0. -/
def Statement (i : Instr) : Prop := i.wf = true → encode i < 2 ^ 32

/-- An instruction whose word is 0. -/
theorem of_zero {i : Instr} (h : encode i = 0) : Statement i := fun _ => by rw [h]; decide

/-- A sysreg number has 12 bits (R53). -/
theorem sys_lt : ∀ n, sysAssigned n = true → n < 4096 := by
  intro n h; simp [sysAssigned, sysNumbers] at h; omega

theorem addi (d : Nat) (a : Nat) (i : Nat) : Statement (.addi d a i) := by
  simp only [Statement, Instr.wf, encode, with3, Bool.and_eq_true, decide_eq_true_eq]; omega
theorem andi (d : Nat) (a : Nat) (i : Nat) : Statement (.andi d a i) := by
  simp only [Statement, Instr.wf, encode, with3, Bool.and_eq_true, decide_eq_true_eq]; omega
theorem ori (d : Nat) (a : Nat) (i : Nat) : Statement (.ori d a i) := by
  simp only [Statement, Instr.wf, encode, with3, Bool.and_eq_true, decide_eq_true_eq]; omega
theorem xori (d : Nat) (a : Nat) (i : Nat) : Statement (.xori d a i) := by
  simp only [Statement, Instr.wf, encode, with3, Bool.and_eq_true, decide_eq_true_eq]; omega
theorem slti (d : Nat) (a : Nat) (i : Nat) : Statement (.slti d a i) := by
  simp only [Statement, Instr.wf, encode, with3, Bool.and_eq_true, decide_eq_true_eq]; omega
theorem sltiu (d : Nat) (a : Nat) (i : Nat) : Statement (.sltiu d a i) := by
  simp only [Statement, Instr.wf, encode, with3, Bool.and_eq_true, decide_eq_true_eq]; omega
theorem slli (d : Nat) (a : Nat) (s : Nat) : Statement (.slli d a s) := by
  simp only [Statement, Instr.wf, encode, with3, Bool.and_eq_true, decide_eq_true_eq]; omega
theorem srli (d : Nat) (a : Nat) (s : Nat) : Statement (.srli d a s) := by
  simp only [Statement, Instr.wf, encode, with3, Bool.and_eq_true, decide_eq_true_eq]; omega
theorem srai (d : Nat) (a : Nat) (s : Nat) : Statement (.srai d a s) := by
  simp only [Statement, Instr.wf, encode, with3, Bool.and_eq_true, decide_eq_true_eq]; omega
theorem lui (d : Nat) (i : Nat) : Statement (.lui d i) := by
  simp only [Statement, Instr.wf, encode, with2, Bool.and_eq_true, decide_eq_true_eq]; omega
theorem addpc (d : Nat) (i : Nat) : Statement (.addpc d i) := by
  simp only [Statement, Instr.wf, encode, with2, Bool.and_eq_true, decide_eq_true_eq]; omega
theorem jalr (d : Nat) (a : Nat) (i : Nat) : Statement (.jalr d a i) := by
  simp only [Statement, Instr.wf, encode, with3, Bool.and_eq_true, decide_eq_true_eq]; omega
theorem j (o : Nat) : Statement (.j o) := by
  simp only [Statement, Instr.wf, encode, with1, decide_eq_true_eq]; omega
theorem jal (o : Nat) : Statement (.jal o) := by
  simp only [Statement, Instr.wf, encode, with1, decide_eq_true_eq]; omega
theorem beq (a : Nat) (b : Nat) (o : Nat) : Statement (.beq a b o) := by
  simp only [Statement, Instr.wf, encode, with3, Bool.and_eq_true, decide_eq_true_eq]; omega
theorem bne (a : Nat) (b : Nat) (o : Nat) : Statement (.bne a b o) := by
  simp only [Statement, Instr.wf, encode, with3, Bool.and_eq_true, decide_eq_true_eq]; omega
theorem blt (a : Nat) (b : Nat) (o : Nat) : Statement (.blt a b o) := by
  simp only [Statement, Instr.wf, encode, with3, Bool.and_eq_true, decide_eq_true_eq]; omega
theorem bge (a : Nat) (b : Nat) (o : Nat) : Statement (.bge a b o) := by
  simp only [Statement, Instr.wf, encode, with3, Bool.and_eq_true, decide_eq_true_eq]; omega
theorem bltu (a : Nat) (b : Nat) (o : Nat) : Statement (.bltu a b o) := by
  simp only [Statement, Instr.wf, encode, with3, Bool.and_eq_true, decide_eq_true_eq]; omega
theorem bgeu (a : Nat) (b : Nat) (o : Nat) : Statement (.bgeu a b o) := by
  simp only [Statement, Instr.wf, encode, with3, Bool.and_eq_true, decide_eq_true_eq]; omega
theorem lb (d : Nat) (a : Nat) (i : Nat) : Statement (.lb d a i) := by
  simp only [Statement, Instr.wf, encode, with3, Bool.and_eq_true, decide_eq_true_eq]; omega
theorem lbu (d : Nat) (a : Nat) (i : Nat) : Statement (.lbu d a i) := by
  simp only [Statement, Instr.wf, encode, with3, Bool.and_eq_true, decide_eq_true_eq]; omega
theorem lh (d : Nat) (a : Nat) (i : Nat) : Statement (.lh d a i) := by
  simp only [Statement, Instr.wf, encode, with3, Bool.and_eq_true, decide_eq_true_eq]; omega
theorem lhu (d : Nat) (a : Nat) (i : Nat) : Statement (.lhu d a i) := by
  simp only [Statement, Instr.wf, encode, with3, Bool.and_eq_true, decide_eq_true_eq]; omega
theorem lw (d : Nat) (a : Nat) (i : Nat) : Statement (.lw d a i) := by
  simp only [Statement, Instr.wf, encode, with3, Bool.and_eq_true, decide_eq_true_eq]; omega
theorem lwu (d : Nat) (a : Nat) (i : Nat) : Statement (.lwu d a i) := by
  simp only [Statement, Instr.wf, encode, with3, Bool.and_eq_true, decide_eq_true_eq]; omega
theorem ld (d : Nat) (a : Nat) (i : Nat) : Statement (.ld d a i) := by
  simp only [Statement, Instr.wf, encode, with3, Bool.and_eq_true, decide_eq_true_eq]; omega
theorem flw (d : Nat) (a : Nat) (i : Nat) : Statement (.flw d a i) := by
  simp only [Statement, Instr.wf, encode, with3, Bool.and_eq_true, decide_eq_true_eq]; omega
theorem sb (d : Nat) (a : Nat) (i : Nat) : Statement (.sb d a i) := by
  simp only [Statement, Instr.wf, encode, with3, Bool.and_eq_true, decide_eq_true_eq]; omega
theorem sh (d : Nat) (a : Nat) (i : Nat) : Statement (.sh d a i) := by
  simp only [Statement, Instr.wf, encode, with3, Bool.and_eq_true, decide_eq_true_eq]; omega
theorem sw (d : Nat) (a : Nat) (i : Nat) : Statement (.sw d a i) := by
  simp only [Statement, Instr.wf, encode, with3, Bool.and_eq_true, decide_eq_true_eq]; omega
theorem sd (d : Nat) (a : Nat) (i : Nat) : Statement (.sd d a i) := by
  simp only [Statement, Instr.wf, encode, with3, Bool.and_eq_true, decide_eq_true_eq]; omega
theorem fsw (d : Nat) (a : Nat) (i : Nat) : Statement (.fsw d a i) := by
  simp only [Statement, Instr.wf, encode, with3, Bool.and_eq_true, decide_eq_true_eq]; omega
theorem add (d : Nat) (a : Nat) (b : Nat) : Statement (.add d a b) := by
  simp only [Statement, Instr.wf, encode, with3, Bool.and_eq_true, decide_eq_true_eq]; omega
theorem sub (d : Nat) (a : Nat) (b : Nat) : Statement (.sub d a b) := by
  simp only [Statement, Instr.wf, encode, with3, Bool.and_eq_true, decide_eq_true_eq]; omega
theorem and (d : Nat) (a : Nat) (b : Nat) : Statement (.and d a b) := by
  simp only [Statement, Instr.wf, encode, with3, Bool.and_eq_true, decide_eq_true_eq]; omega
theorem or (d : Nat) (a : Nat) (b : Nat) : Statement (.or d a b) := by
  simp only [Statement, Instr.wf, encode, with3, Bool.and_eq_true, decide_eq_true_eq]; omega
theorem xor (d : Nat) (a : Nat) (b : Nat) : Statement (.xor d a b) := by
  simp only [Statement, Instr.wf, encode, with3, Bool.and_eq_true, decide_eq_true_eq]; omega
theorem sll (d : Nat) (a : Nat) (b : Nat) : Statement (.sll d a b) := by
  simp only [Statement, Instr.wf, encode, with3, Bool.and_eq_true, decide_eq_true_eq]; omega
theorem srl (d : Nat) (a : Nat) (b : Nat) : Statement (.srl d a b) := by
  simp only [Statement, Instr.wf, encode, with3, Bool.and_eq_true, decide_eq_true_eq]; omega
theorem sra (d : Nat) (a : Nat) (b : Nat) : Statement (.sra d a b) := by
  simp only [Statement, Instr.wf, encode, with3, Bool.and_eq_true, decide_eq_true_eq]; omega
theorem slt (d : Nat) (a : Nat) (b : Nat) : Statement (.slt d a b) := by
  simp only [Statement, Instr.wf, encode, with3, Bool.and_eq_true, decide_eq_true_eq]; omega
theorem sltu (d : Nat) (a : Nat) (b : Nat) : Statement (.sltu d a b) := by
  simp only [Statement, Instr.wf, encode, with3, Bool.and_eq_true, decide_eq_true_eq]; omega
theorem mul (d : Nat) (a : Nat) (b : Nat) : Statement (.mul d a b) := by
  simp only [Statement, Instr.wf, encode, with3, Bool.and_eq_true, decide_eq_true_eq]; omega
theorem mulh (d : Nat) (a : Nat) (b : Nat) : Statement (.mulh d a b) := by
  simp only [Statement, Instr.wf, encode, with3, Bool.and_eq_true, decide_eq_true_eq]; omega
theorem mulhu (d : Nat) (a : Nat) (b : Nat) : Statement (.mulhu d a b) := by
  simp only [Statement, Instr.wf, encode, with3, Bool.and_eq_true, decide_eq_true_eq]; omega
theorem div (d : Nat) (a : Nat) (b : Nat) : Statement (.div d a b) := by
  simp only [Statement, Instr.wf, encode, with3, Bool.and_eq_true, decide_eq_true_eq]; omega
theorem divu (d : Nat) (a : Nat) (b : Nat) : Statement (.divu d a b) := by
  simp only [Statement, Instr.wf, encode, with3, Bool.and_eq_true, decide_eq_true_eq]; omega
theorem rem (d : Nat) (a : Nat) (b : Nat) : Statement (.rem d a b) := by
  simp only [Statement, Instr.wf, encode, with3, Bool.and_eq_true, decide_eq_true_eq]; omega
theorem remu (d : Nat) (a : Nat) (b : Nat) : Statement (.remu d a b) := by
  simp only [Statement, Instr.wf, encode, with3, Bool.and_eq_true, decide_eq_true_eq]; omega
theorem min (d : Nat) (a : Nat) (b : Nat) : Statement (.min d a b) := by
  simp only [Statement, Instr.wf, encode, with3, Bool.and_eq_true, decide_eq_true_eq]; omega
theorem max (d : Nat) (a : Nat) (b : Nat) : Statement (.max d a b) := by
  simp only [Statement, Instr.wf, encode, with3, Bool.and_eq_true, decide_eq_true_eq]; omega
theorem minu (d : Nat) (a : Nat) (b : Nat) : Statement (.minu d a b) := by
  simp only [Statement, Instr.wf, encode, with3, Bool.and_eq_true, decide_eq_true_eq]; omega
theorem maxu (d : Nat) (a : Nat) (b : Nat) : Statement (.maxu d a b) := by
  simp only [Statement, Instr.wf, encode, with3, Bool.and_eq_true, decide_eq_true_eq]; omega
theorem clz (d : Nat) (a : Nat) : Statement (.clz d a) := by
  simp only [Statement, Instr.wf, encode, with2, Bool.and_eq_true, decide_eq_true_eq]; omega
theorem ctz (d : Nat) (a : Nat) : Statement (.ctz d a) := by
  simp only [Statement, Instr.wf, encode, with2, Bool.and_eq_true, decide_eq_true_eq]; omega
theorem popc (d : Nat) (a : Nat) : Statement (.popc d a) := by
  simp only [Statement, Instr.wf, encode, with2, Bool.and_eq_true, decide_eq_true_eq]; omega
theorem fadd (d : Nat) (a : Nat) (b : Nat) (r : Nat) : Statement (.fadd d a b r) := by
  simp only [Statement, Instr.wf, encode, with4, Bool.and_eq_true, decide_eq_true_eq]; omega
theorem fsub (d : Nat) (a : Nat) (b : Nat) (r : Nat) : Statement (.fsub d a b r) := by
  simp only [Statement, Instr.wf, encode, with4, Bool.and_eq_true, decide_eq_true_eq]; omega
theorem fmul (d : Nat) (a : Nat) (b : Nat) (r : Nat) : Statement (.fmul d a b r) := by
  simp only [Statement, Instr.wf, encode, with4, Bool.and_eq_true, decide_eq_true_eq]; omega
theorem fdiv (d : Nat) (a : Nat) (b : Nat) (r : Nat) : Statement (.fdiv d a b r) := by
  simp only [Statement, Instr.wf, encode, with4, Bool.and_eq_true, decide_eq_true_eq]; omega
theorem fsqrt (d : Nat) (a : Nat) (r : Nat) : Statement (.fsqrt d a r) := by
  simp only [Statement, Instr.wf, encode, with3, Bool.and_eq_true, decide_eq_true_eq]; omega
theorem fmin (d : Nat) (a : Nat) (b : Nat) : Statement (.fmin d a b) := by
  simp only [Statement, Instr.wf, encode, with3, Bool.and_eq_true, decide_eq_true_eq]; omega
theorem fmax (d : Nat) (a : Nat) (b : Nat) : Statement (.fmax d a b) := by
  simp only [Statement, Instr.wf, encode, with3, Bool.and_eq_true, decide_eq_true_eq]; omega
theorem feq (d : Nat) (a : Nat) (b : Nat) : Statement (.feq d a b) := by
  simp only [Statement, Instr.wf, encode, with3, Bool.and_eq_true, decide_eq_true_eq]; omega
theorem flt (d : Nat) (a : Nat) (b : Nat) : Statement (.flt d a b) := by
  simp only [Statement, Instr.wf, encode, with3, Bool.and_eq_true, decide_eq_true_eq]; omega
theorem fle (d : Nat) (a : Nat) (b : Nat) : Statement (.fle d a b) := by
  simp only [Statement, Instr.wf, encode, with3, Bool.and_eq_true, decide_eq_true_eq]; omega
theorem fcvtGF (d : Nat) (a : Nat) (r : Nat) : Statement (.fcvtGF d a r) := by
  simp only [Statement, Instr.wf, encode, with3, Bool.and_eq_true, decide_eq_true_eq]; omega
theorem fcvtFG (d : Nat) (a : Nat) (r : Nat) : Statement (.fcvtFG d a r) := by
  simp only [Statement, Instr.wf, encode, with3, Bool.and_eq_true, decide_eq_true_eq]; omega
theorem fmvGf (d : Nat) (a : Nat) : Statement (.fmvGf d a) := by
  simp only [Statement, Instr.wf, encode, with2, Bool.and_eq_true, decide_eq_true_eq]; omega
theorem fmvFg (d : Nat) (a : Nat) : Statement (.fmvFg d a) := by
  simp only [Statement, Instr.wf, encode, with2, Bool.and_eq_true, decide_eq_true_eq]; omega
theorem amoadd (d : Nat) (a : Nat) (b : Nat) (s : Nat) (w : Nat) : Statement (.amoadd d a b s w) := by
  simp only [Statement, Instr.wf, encode, with5, Bool.and_eq_true, decide_eq_true_eq]; omega
theorem amoor (d : Nat) (a : Nat) (b : Nat) (s : Nat) (w : Nat) : Statement (.amoor d a b s w) := by
  simp only [Statement, Instr.wf, encode, with5, Bool.and_eq_true, decide_eq_true_eq]; omega
theorem amoand (d : Nat) (a : Nat) (b : Nat) (s : Nat) (w : Nat) : Statement (.amoand d a b s w) := by
  simp only [Statement, Instr.wf, encode, with5, Bool.and_eq_true, decide_eq_true_eq]; omega
theorem amomin (d : Nat) (a : Nat) (b : Nat) (s : Nat) (w : Nat) : Statement (.amomin d a b s w) := by
  simp only [Statement, Instr.wf, encode, with5, Bool.and_eq_true, decide_eq_true_eq]; omega
theorem amomax (d : Nat) (a : Nat) (b : Nat) (s : Nat) (w : Nat) : Statement (.amomax d a b s w) := by
  simp only [Statement, Instr.wf, encode, with5, Bool.and_eq_true, decide_eq_true_eq]; omega
theorem amoswap (d : Nat) (a : Nat) (b : Nat) (s : Nat) (w : Nat) : Statement (.amoswap d a b s w) := by
  simp only [Statement, Instr.wf, encode, with5, Bool.and_eq_true, decide_eq_true_eq]; omega
theorem amocas (d : Nat) (a : Nat) (b : Nat) (s : Nat) (w : Nat) : Statement (.amocas d a b s w) := by
  simp only [Statement, Instr.wf, encode, with5, Bool.and_eq_true, decide_eq_true_eq]; omega
theorem lda (d : Nat) (a : Nat) (s : Nat) (w : Nat) : Statement (.lda d a s w) := by
  simp only [Statement, Instr.wf, encode, with4, Bool.and_eq_true, decide_eq_true_eq]; omega
theorem str (a : Nat) (b : Nat) (s : Nat) (w : Nat) : Statement (.str a b s w) := by
  simp only [Statement, Instr.wf, encode, with4, Bool.and_eq_true, decide_eq_true_eq]; omega
theorem fence (s : Nat) : Statement (.fence s) := by
  simp only [Statement, Instr.wf, encode, with1, decide_eq_true_eq]; omega
theorem lsync : Statement (.lsync) := fun _ => by decide
theorem bar (s : Nat) : Statement (.bar s) := by
  simp only [Statement, Instr.wf, encode, with1, Bool.and_eq_true, decide_eq_true_eq]; omega
theorem waitw (d : Nat) (a : Nat) (b : Nat) (s : Nat) : Statement (.waitw d a b s) := by
  simp only [Statement, Instr.wf, encode, with4, Bool.and_eq_true, decide_eq_true_eq]; omega
theorem tkpush (a : Nat) : Statement (.tkpush a) := by
  simp only [Statement, Instr.wf, encode, with1, decide_eq_true_eq]; omega
theorem tkpop (a : Nat) : Statement (.tkpop a) := by
  simp only [Statement, Instr.wf, encode, with1, decide_eq_true_eq]; omega
theorem spawn (d : Nat) (a : Nat) (b : Nat) : Statement (.spawn d a b) := by
  simp only [Statement, Instr.wf, encode, with3, Bool.and_eq_true, decide_eq_true_eq]; omega
theorem halt : Statement (.halt) := fun _ => by decide
theorem gangJoin (d : Nat) (a : Nat) (b : Nat) : Statement (.gangJoin d a b) := by
  simp only [Statement, Instr.wf, encode, with3, Bool.and_eq_true, decide_eq_true_eq]; omega
theorem gangLeave : Statement (.gangLeave) := fun _ => by decide
theorem yield : Statement (.yield) := fun _ => by decide
theorem prio (d : Nat) (a : Nat) : Statement (.prio d a) := by
  simp only [Statement, Instr.wf, encode, with2, Bool.and_eq_true, decide_eq_true_eq]; omega
theorem sysrd (d : Nat) (s : Nat) : Statement (.sysrd d s) := by
  simp only [Statement, Instr.wf, encode, with2, Bool.and_eq_true, decide_eq_true_eq]; intro h; have := sys_lt s (by simp_all); omega
theorem syswr (a : Nat) (s : Nat) : Statement (.syswr a s) := by
  simp only [Statement, Instr.wf, encode, with2, Bool.and_eq_true, decide_eq_true_eq]; intro h; have := sys_lt s (by simp_all); omega
theorem sysswap (d : Nat) (a : Nat) (s : Nat) : Statement (.sysswap d a s) := by
  simp only [Statement, Instr.wf, encode, with3, Bool.and_eq_true, decide_eq_true_eq]; intro h; have := sys_lt s (by simp_all); omega
theorem trap (c : Nat) : Statement (.trap c) := by
  simp only [Statement, Instr.wf, encode, with1, decide_eq_true_eq]; omega
theorem retT : Statement (.retT) := fun _ => by decide
theorem invpg (a : Nat) : Statement (.invpg a) := by
  simp only [Statement, Instr.wf, encode, with1, decide_eq_true_eq]; omega
theorem invall (a : Nat) : Statement (.invall a) := by
  simp only [Statement, Instr.wf, encode, with1, decide_eq_true_eq]; omega
theorem vframeSave (d : Nat) (a : Nat) : Statement (.vframeSave d a) := by
  simp only [Statement, Instr.wf, encode, with2, Bool.and_eq_true, decide_eq_true_eq]; omega
theorem vframeRestore (d : Nat) (a : Nat) : Statement (.vframeRestore d a) := by
  simp only [Statement, Instr.wf, encode, with2, Bool.and_eq_true, decide_eq_true_eq]; omega
theorem bkpt (c : Nat) : Statement (.bkpt c) := by
  simp only [Statement, Instr.wf, encode, with1, decide_eq_true_eq]; omega
theorem vsetvl (d : Nat) (a : Nat) (b : Nat) : Statement (.vsetvl d a b) := by
  simp only [Statement, Instr.wf, encode, with3, Bool.and_eq_true, decide_eq_true_eq]; omega
theorem vcfg (d : Nat) (a : Nat) : Statement (.vcfg d a) := by
  simp only [Statement, Instr.wf, encode, with2, Bool.and_eq_true, decide_eq_true_eq]; omega
theorem vmread (d : Nat) (a : Nat) (b : Nat) : Statement (.vmread d a b) := by
  simp only [Statement, Instr.wf, encode, with3, Bool.and_eq_true, decide_eq_true_eq]; omega
theorem vmpopc (d : Nat) (a : Nat) : Statement (.vmpopc d a) := by
  simp only [Statement, Instr.wf, encode, with2, Bool.and_eq_true, decide_eq_true_eq]; omega
theorem stepBegin (d : Nat) (a : Nat) (b : Nat) : Statement (.stepBegin d a b) := by
  simp only [Statement, Instr.wf, encode, with3, Bool.and_eq_true, decide_eq_true_eq]; omega
theorem stepEnd (d : Nat) : Statement (.stepEnd d) := by
  simp only [Statement, Instr.wf, encode, with1, decide_eq_true_eq]; omega
theorem stepQuery (d : Nat) : Statement (.stepQuery d) := by
  simp only [Statement, Instr.wf, encode, with1, decide_eq_true_eq]; omega
theorem weirHint (d : Nat) (a : Nat) (b : Nat) : Statement (.weirHint d a b) := by
  simp only [Statement, Instr.wf, encode, with3, Bool.and_eq_true, decide_eq_true_eq]; omega
theorem weirQuery (d : Nat) (a : Nat) : Statement (.weirQuery d a) := by
  simp only [Statement, Instr.wf, encode, with2, Bool.and_eq_true, decide_eq_true_eq]; omega
theorem vaddV (h : VHdr) (d : Nat) (a : Nat) (b : Nat) : Statement (.vaddV h d a b) := by
  simp only [Statement, Instr.wf, encode, with3, VHdr.vecBits, Nat.add_eq, Bool.and_eq_true, decide_eq_true_eq]; omega
theorem vaddVX (h : VHdr) (d : Nat) (a : Nat) (b : Nat) : Statement (.vaddVX h d a b) := by
  simp only [Statement, Instr.wf, encode, with3, VHdr.vecBits, Nat.add_eq, Bool.and_eq_true, decide_eq_true_eq]; omega
theorem vsubV (h : VHdr) (d : Nat) (a : Nat) (b : Nat) : Statement (.vsubV h d a b) := by
  simp only [Statement, Instr.wf, encode, with3, VHdr.vecBits, Nat.add_eq, Bool.and_eq_true, decide_eq_true_eq]; omega
theorem vsubVX (h : VHdr) (d : Nat) (a : Nat) (b : Nat) : Statement (.vsubVX h d a b) := by
  simp only [Statement, Instr.wf, encode, with3, VHdr.vecBits, Nat.add_eq, Bool.and_eq_true, decide_eq_true_eq]; omega
theorem vrsub (h : VHdr) (d : Nat) (a : Nat) (b : Nat) : Statement (.vrsub h d a b) := by
  simp only [Statement, Instr.wf, encode, with3, VHdr.vecBits, Nat.add_eq, Bool.and_eq_true, decide_eq_true_eq]; omega
theorem vminV (h : VHdr) (d : Nat) (a : Nat) (b : Nat) : Statement (.vminV h d a b) := by
  simp only [Statement, Instr.wf, encode, with3, VHdr.vecBits, Nat.add_eq, Bool.and_eq_true, decide_eq_true_eq]; omega
theorem vminVX (h : VHdr) (d : Nat) (a : Nat) (b : Nat) : Statement (.vminVX h d a b) := by
  simp only [Statement, Instr.wf, encode, with3, VHdr.vecBits, Nat.add_eq, Bool.and_eq_true, decide_eq_true_eq]; omega
theorem vmaxV (h : VHdr) (d : Nat) (a : Nat) (b : Nat) : Statement (.vmaxV h d a b) := by
  simp only [Statement, Instr.wf, encode, with3, VHdr.vecBits, Nat.add_eq, Bool.and_eq_true, decide_eq_true_eq]; omega
theorem vmaxVX (h : VHdr) (d : Nat) (a : Nat) (b : Nat) : Statement (.vmaxVX h d a b) := by
  simp only [Statement, Instr.wf, encode, with3, VHdr.vecBits, Nat.add_eq, Bool.and_eq_true, decide_eq_true_eq]; omega
theorem vandV (h : VHdr) (d : Nat) (a : Nat) (b : Nat) : Statement (.vandV h d a b) := by
  simp only [Statement, Instr.wf, encode, with3, VHdr.vecBits, Nat.add_eq, Bool.and_eq_true, decide_eq_true_eq]; omega
theorem vandVX (h : VHdr) (d : Nat) (a : Nat) (b : Nat) : Statement (.vandVX h d a b) := by
  simp only [Statement, Instr.wf, encode, with3, VHdr.vecBits, Nat.add_eq, Bool.and_eq_true, decide_eq_true_eq]; omega
theorem vorV (h : VHdr) (d : Nat) (a : Nat) (b : Nat) : Statement (.vorV h d a b) := by
  simp only [Statement, Instr.wf, encode, with3, VHdr.vecBits, Nat.add_eq, Bool.and_eq_true, decide_eq_true_eq]; omega
theorem vorVX (h : VHdr) (d : Nat) (a : Nat) (b : Nat) : Statement (.vorVX h d a b) := by
  simp only [Statement, Instr.wf, encode, with3, VHdr.vecBits, Nat.add_eq, Bool.and_eq_true, decide_eq_true_eq]; omega
theorem vxorV (h : VHdr) (d : Nat) (a : Nat) (b : Nat) : Statement (.vxorV h d a b) := by
  simp only [Statement, Instr.wf, encode, with3, VHdr.vecBits, Nat.add_eq, Bool.and_eq_true, decide_eq_true_eq]; omega
theorem vxorVX (h : VHdr) (d : Nat) (a : Nat) (b : Nat) : Statement (.vxorVX h d a b) := by
  simp only [Statement, Instr.wf, encode, with3, VHdr.vecBits, Nat.add_eq, Bool.and_eq_true, decide_eq_true_eq]; omega
theorem vsllV (h : VHdr) (d : Nat) (a : Nat) (b : Nat) : Statement (.vsllV h d a b) := by
  simp only [Statement, Instr.wf, encode, with3, VHdr.vecBits, Nat.add_eq, Bool.and_eq_true, decide_eq_true_eq]; omega
theorem vsllVX (h : VHdr) (d : Nat) (a : Nat) (b : Nat) : Statement (.vsllVX h d a b) := by
  simp only [Statement, Instr.wf, encode, with3, VHdr.vecBits, Nat.add_eq, Bool.and_eq_true, decide_eq_true_eq]; omega
theorem vsrlV (h : VHdr) (d : Nat) (a : Nat) (b : Nat) : Statement (.vsrlV h d a b) := by
  simp only [Statement, Instr.wf, encode, with3, VHdr.vecBits, Nat.add_eq, Bool.and_eq_true, decide_eq_true_eq]; omega
theorem vsrlVX (h : VHdr) (d : Nat) (a : Nat) (b : Nat) : Statement (.vsrlVX h d a b) := by
  simp only [Statement, Instr.wf, encode, with3, VHdr.vecBits, Nat.add_eq, Bool.and_eq_true, decide_eq_true_eq]; omega
theorem vsraV (h : VHdr) (d : Nat) (a : Nat) (b : Nat) : Statement (.vsraV h d a b) := by
  simp only [Statement, Instr.wf, encode, with3, VHdr.vecBits, Nat.add_eq, Bool.and_eq_true, decide_eq_true_eq]; omega
theorem vsraVX (h : VHdr) (d : Nat) (a : Nat) (b : Nat) : Statement (.vsraVX h d a b) := by
  simp only [Statement, Instr.wf, encode, with3, VHdr.vecBits, Nat.add_eq, Bool.and_eq_true, decide_eq_true_eq]; omega
theorem vsaddV (h : VHdr) (d : Nat) (a : Nat) (b : Nat) : Statement (.vsaddV h d a b) := by
  simp only [Statement, Instr.wf, encode, with3, VHdr.vecBits, Nat.add_eq, Bool.and_eq_true, decide_eq_true_eq]; omega
theorem vsaddVX (h : VHdr) (d : Nat) (a : Nat) (b : Nat) : Statement (.vsaddVX h d a b) := by
  simp only [Statement, Instr.wf, encode, with3, VHdr.vecBits, Nat.add_eq, Bool.and_eq_true, decide_eq_true_eq]; omega
theorem vssubV (h : VHdr) (d : Nat) (a : Nat) (b : Nat) : Statement (.vssubV h d a b) := by
  simp only [Statement, Instr.wf, encode, with3, VHdr.vecBits, Nat.add_eq, Bool.and_eq_true, decide_eq_true_eq]; omega
theorem vssubVX (h : VHdr) (d : Nat) (a : Nat) (b : Nat) : Statement (.vssubVX h d a b) := by
  simp only [Statement, Instr.wf, encode, with3, VHdr.vecBits, Nat.add_eq, Bool.and_eq_true, decide_eq_true_eq]; omega
theorem vavgV (h : VHdr) (d : Nat) (a : Nat) (b : Nat) : Statement (.vavgV h d a b) := by
  simp only [Statement, Instr.wf, encode, with3, VHdr.vecBits, Nat.add_eq, Bool.and_eq_true, decide_eq_true_eq]; omega
theorem vavgVX (h : VHdr) (d : Nat) (a : Nat) (b : Nat) : Statement (.vavgVX h d a b) := by
  simp only [Statement, Instr.wf, encode, with3, VHdr.vecBits, Nat.add_eq, Bool.and_eq_true, decide_eq_true_eq]; omega
theorem vabs (h : VHdr) (d : Nat) (a : Nat) : Statement (.vabs h d a) := by
  simp only [Statement, Instr.wf, encode, with2, VHdr.vecBits, Nat.add_eq, Bool.and_eq_true, decide_eq_true_eq]; omega
theorem vneg (h : VHdr) (d : Nat) (a : Nat) : Statement (.vneg h d a) := by
  simp only [Statement, Instr.wf, encode, with2, VHdr.vecBits, Nat.add_eq, Bool.and_eq_true, decide_eq_true_eq]; omega
theorem vseqV (h : VHdr) (d : Nat) (a : Nat) (b : Nat) : Statement (.vseqV h d a b) := by
  simp only [Statement, Instr.wf, encode, with3, VHdr.vecBits, Nat.add_eq, Bool.and_eq_true, decide_eq_true_eq]; omega
theorem vseqVX (h : VHdr) (d : Nat) (a : Nat) (b : Nat) : Statement (.vseqVX h d a b) := by
  simp only [Statement, Instr.wf, encode, with3, VHdr.vecBits, Nat.add_eq, Bool.and_eq_true, decide_eq_true_eq]; omega
theorem vsneV (h : VHdr) (d : Nat) (a : Nat) (b : Nat) : Statement (.vsneV h d a b) := by
  simp only [Statement, Instr.wf, encode, with3, VHdr.vecBits, Nat.add_eq, Bool.and_eq_true, decide_eq_true_eq]; omega
theorem vsneVX (h : VHdr) (d : Nat) (a : Nat) (b : Nat) : Statement (.vsneVX h d a b) := by
  simp only [Statement, Instr.wf, encode, with3, VHdr.vecBits, Nat.add_eq, Bool.and_eq_true, decide_eq_true_eq]; omega
theorem vsltV (h : VHdr) (d : Nat) (a : Nat) (b : Nat) : Statement (.vsltV h d a b) := by
  simp only [Statement, Instr.wf, encode, with3, VHdr.vecBits, Nat.add_eq, Bool.and_eq_true, decide_eq_true_eq]; omega
theorem vsltVX (h : VHdr) (d : Nat) (a : Nat) (b : Nat) : Statement (.vsltVX h d a b) := by
  simp only [Statement, Instr.wf, encode, with3, VHdr.vecBits, Nat.add_eq, Bool.and_eq_true, decide_eq_true_eq]; omega
theorem vsleV (h : VHdr) (d : Nat) (a : Nat) (b : Nat) : Statement (.vsleV h d a b) := by
  simp only [Statement, Instr.wf, encode, with3, VHdr.vecBits, Nat.add_eq, Bool.and_eq_true, decide_eq_true_eq]; omega
theorem vsleVX (h : VHdr) (d : Nat) (a : Nat) (b : Nat) : Statement (.vsleVX h d a b) := by
  simp only [Statement, Instr.wf, encode, with3, VHdr.vecBits, Nat.add_eq, Bool.and_eq_true, decide_eq_true_eq]; omega
theorem vsgtV (h : VHdr) (d : Nat) (a : Nat) (b : Nat) : Statement (.vsgtV h d a b) := by
  simp only [Statement, Instr.wf, encode, with3, VHdr.vecBits, Nat.add_eq, Bool.and_eq_true, decide_eq_true_eq]; omega
theorem vsgtVX (h : VHdr) (d : Nat) (a : Nat) (b : Nat) : Statement (.vsgtVX h d a b) := by
  simp only [Statement, Instr.wf, encode, with3, VHdr.vecBits, Nat.add_eq, Bool.and_eq_true, decide_eq_true_eq]; omega
theorem vsgeV (h : VHdr) (d : Nat) (a : Nat) (b : Nat) : Statement (.vsgeV h d a b) := by
  simp only [Statement, Instr.wf, encode, with3, VHdr.vecBits, Nat.add_eq, Bool.and_eq_true, decide_eq_true_eq]; omega
theorem vsgeVX (h : VHdr) (d : Nat) (a : Nat) (b : Nat) : Statement (.vsgeVX h d a b) := by
  simp only [Statement, Instr.wf, encode, with3, VHdr.vecBits, Nat.add_eq, Bool.and_eq_true, decide_eq_true_eq]; omega
theorem vselV (h : VHdr) (d : Nat) (a : Nat) (b : Nat) : Statement (.vselV h d a b) := by
  simp only [Statement, Instr.wf, encode, with3, VHdr.vecBits, Nat.add_eq, Bool.and_eq_true, decide_eq_true_eq]; omega
theorem vselVX (h : VHdr) (d : Nat) (a : Nat) (b : Nat) : Statement (.vselVX h d a b) := by
  simp only [Statement, Instr.wf, encode, with3, VHdr.vecBits, Nat.add_eq, Bool.and_eq_true, decide_eq_true_eq]; omega
theorem vmvV (h : VHdr) (d : Nat) (a : Nat) : Statement (.vmvV h d a) := by
  simp only [Statement, Instr.wf, encode, with2, VHdr.vecBits, Nat.add_eq, Bool.and_eq_true, decide_eq_true_eq]; omega
theorem vmvVX (h : VHdr) (d : Nat) (b : Nat) : Statement (.vmvVX h d b) := by
  simp only [Statement, Instr.wf, encode, with2, VHdr.vecBits, Nat.add_eq, Bool.and_eq_true, decide_eq_true_eq]; omega
theorem vcvt (h : VHdr) (d : Nat) (a : Nat) (b : Nat) : Statement (.vcvt h d a b) := by
  simp only [Statement, Instr.wf, encode, with3, VHdr.vecBits, Nat.add_eq, Bool.and_eq_true, decide_eq_true_eq]; omega
theorem vmulV (h : VHdr) (d : Nat) (a : Nat) (b : Nat) : Statement (.vmulV h d a b) := by
  simp only [Statement, Instr.wf, encode, with3, VHdr.vecBits, Nat.add_eq, Bool.and_eq_true, decide_eq_true_eq]; omega
theorem vmulVX (h : VHdr) (d : Nat) (a : Nat) (b : Nat) : Statement (.vmulVX h d a b) := by
  simp only [Statement, Instr.wf, encode, with3, VHdr.vecBits, Nat.add_eq, Bool.and_eq_true, decide_eq_true_eq]; omega
theorem vmulhV (h : VHdr) (d : Nat) (a : Nat) (b : Nat) : Statement (.vmulhV h d a b) := by
  simp only [Statement, Instr.wf, encode, with3, VHdr.vecBits, Nat.add_eq, Bool.and_eq_true, decide_eq_true_eq]; omega
theorem vmulhVX (h : VHdr) (d : Nat) (a : Nat) (b : Nat) : Statement (.vmulhVX h d a b) := by
  simp only [Statement, Instr.wf, encode, with3, VHdr.vecBits, Nat.add_eq, Bool.and_eq_true, decide_eq_true_eq]; omega
theorem vmaccV (h : VHdr) (d : Nat) (a : Nat) (b : Nat) : Statement (.vmaccV h d a b) := by
  simp only [Statement, Instr.wf, encode, with3, VHdr.vecBits, Nat.add_eq, Bool.and_eq_true, decide_eq_true_eq]; omega
theorem vmaccVX (h : VHdr) (d : Nat) (a : Nat) (b : Nat) : Statement (.vmaccVX h d a b) := by
  simp only [Statement, Instr.wf, encode, with3, VHdr.vecBits, Nat.add_eq, Bool.and_eq_true, decide_eq_true_eq]; omega
theorem vdivV (h : VHdr) (d : Nat) (a : Nat) (b : Nat) : Statement (.vdivV h d a b) := by
  simp only [Statement, Instr.wf, encode, with3, VHdr.vecBits, Nat.add_eq, Bool.and_eq_true, decide_eq_true_eq]; omega
theorem vdivVX (h : VHdr) (d : Nat) (a : Nat) (b : Nat) : Statement (.vdivVX h d a b) := by
  simp only [Statement, Instr.wf, encode, with3, VHdr.vecBits, Nat.add_eq, Bool.and_eq_true, decide_eq_true_eq]; omega
theorem vremV (h : VHdr) (d : Nat) (a : Nat) (b : Nat) : Statement (.vremV h d a b) := by
  simp only [Statement, Instr.wf, encode, with3, VHdr.vecBits, Nat.add_eq, Bool.and_eq_true, decide_eq_true_eq]; omega
theorem vremVX (h : VHdr) (d : Nat) (a : Nat) (b : Nat) : Statement (.vremVX h d a b) := by
  simp only [Statement, Instr.wf, encode, with3, VHdr.vecBits, Nat.add_eq, Bool.and_eq_true, decide_eq_true_eq]; omega
theorem vsmulV (h : VHdr) (d : Nat) (a : Nat) (b : Nat) : Statement (.vsmulV h d a b) := by
  simp only [Statement, Instr.wf, encode, with3, VHdr.vecBits, Nat.add_eq, Bool.and_eq_true, decide_eq_true_eq]; omega
theorem vsmulVX (h : VHdr) (d : Nat) (a : Nat) (b : Nat) : Statement (.vsmulVX h d a b) := by
  simp only [Statement, Instr.wf, encode, with3, VHdr.vecBits, Nat.add_eq, Bool.and_eq_true, decide_eq_true_eq]; omega
theorem vexp2 (h : VHdr) (d : Nat) (a : Nat) : Statement (.vexp2 h d a) := by
  simp only [Statement, Instr.wf, encode, with2, VHdr.vecBits, Nat.add_eq, Bool.and_eq_true, decide_eq_true_eq]; omega
theorem vlog2 (h : VHdr) (d : Nat) (a : Nat) : Statement (.vlog2 h d a) := by
  simp only [Statement, Instr.wf, encode, with2, VHdr.vecBits, Nat.add_eq, Bool.and_eq_true, decide_eq_true_eq]; omega
theorem vmand (h : VHdr) (d : Nat) (a : Nat) (b : Nat) : Statement (.vmand h d a b) := by
  simp only [Statement, Instr.wf, encode, with3, VHdr.vecBits, Nat.add_eq, Bool.and_eq_true, decide_eq_true_eq]; omega
theorem vmor (h : VHdr) (d : Nat) (a : Nat) (b : Nat) : Statement (.vmor h d a b) := by
  simp only [Statement, Instr.wf, encode, with3, VHdr.vecBits, Nat.add_eq, Bool.and_eq_true, decide_eq_true_eq]; omega
theorem vmxor (h : VHdr) (d : Nat) (a : Nat) (b : Nat) : Statement (.vmxor h d a b) := by
  simp only [Statement, Instr.wf, encode, with3, VHdr.vecBits, Nat.add_eq, Bool.and_eq_true, decide_eq_true_eq]; omega
theorem vmandn (h : VHdr) (d : Nat) (a : Nat) (b : Nat) : Statement (.vmandn h d a b) := by
  simp only [Statement, Instr.wf, encode, with3, VHdr.vecBits, Nat.add_eq, Bool.and_eq_true, decide_eq_true_eq]; omega
theorem vmnot (h : VHdr) (d : Nat) (a : Nat) : Statement (.vmnot h d a) := by
  simp only [Statement, Instr.wf, encode, with2, VHdr.vecBits, Nat.add_eq, Bool.and_eq_true, decide_eq_true_eq]; omega
theorem vslideup (h : VHdr) (d : Nat) (a : Nat) (b : Nat) : Statement (.vslideup h d a b) := by
  simp only [Statement, Instr.wf, encode, with3, VHdr.vecBits, Nat.add_eq, Bool.and_eq_true, decide_eq_true_eq]; omega
theorem vslidedn (h : VHdr) (d : Nat) (a : Nat) (b : Nat) : Statement (.vslidedn h d a b) := by
  simp only [Statement, Instr.wf, encode, with3, VHdr.vecBits, Nat.add_eq, Bool.and_eq_true, decide_eq_true_eq]; omega
theorem vperm (h : VHdr) (d : Nat) (a : Nat) (b : Nat) : Statement (.vperm h d a b) := by
  simp only [Statement, Instr.wf, encode, with3, VHdr.vecBits, Nat.add_eq, Bool.and_eq_true, decide_eq_true_eq]; omega
theorem vcompress (h : VHdr) (d : Nat) (a : Nat) : Statement (.vcompress h d a) := by
  simp only [Statement, Instr.wf, encode, with2, VHdr.vecBits, Nat.add_eq, Bool.and_eq_true, decide_eq_true_eq]; omega
theorem viota (h : VHdr) (d : Nat) (a : Nat) : Statement (.viota h d a) := by
  simp only [Statement, Instr.wf, encode, with2, VHdr.vecBits, Nat.add_eq, Bool.and_eq_true, decide_eq_true_eq]; omega
theorem vindex (h : VHdr) (d : Nat) : Statement (.vindex h d) := by
  simp only [Statement, Instr.wf, encode, with1, VHdr.vecBits, Nat.add_eq, Bool.and_eq_true, decide_eq_true_eq]; omega
theorem vconfl (h : VHdr) (d : Nat) (a : Nat) : Statement (.vconfl h d a) := by
  simp only [Statement, Instr.wf, encode, with2, VHdr.vecBits, Nat.add_eq, Bool.and_eq_true, decide_eq_true_eq]; omega
theorem vred (h : VHdr) (d : Nat) (a : Nat) (b : Nat) : Statement (.vred h d a b) := by
  simp only [Statement, Instr.wf, encode, with3, VHdr.vecBits, Nat.add_eq, Bool.and_eq_true, decide_eq_true_eq]; omega
theorem vscan (h : VHdr) (d : Nat) (a : Nat) (b : Nat) : Statement (.vscan h d a b) := by
  simp only [Statement, Instr.wf, encode, with3, VHdr.vecBits, Nat.add_eq, Bool.and_eq_true, decide_eq_true_eq]; omega
theorem vredoF (h : VHdr) (d : Nat) (a : Nat) : Statement (.vredoF h d a) := by
  simp only [Statement, Instr.wf, encode, with2, VHdr.vecBits, Nat.add_eq, Bool.and_eq_true, decide_eq_true_eq]; omega
theorem vredx (h : VHdr) (d : Nat) (a : Nat) : Statement (.vredx h d a) := by
  simp only [Statement, Instr.wf, encode, with2, VHdr.vecBits, Nat.add_eq, Bool.and_eq_true, decide_eq_true_eq]; omega
theorem mxq (h : VHdr) (d : Nat) (a : Nat) (b : Nat) : Statement (.mxq h d a b) := by
  simp only [Statement, Instr.wf, encode, with3, VHdr.vecBits, Nat.add_eq, Bool.and_eq_true, decide_eq_true_eq]; omega
theorem mxdq (h : VHdr) (d : Nat) (a : Nat) (b : Nat) : Statement (.mxdq h d a b) := by
  simp only [Statement, Instr.wf, encode, with3, VHdr.vecBits, Nat.add_eq, Bool.and_eq_true, decide_eq_true_eq]; omega
theorem fcvtV (h : VHdr) (d : Nat) (a : Nat) (b : Nat) : Statement (.fcvtV h d a b) := by
  simp only [Statement, Instr.wf, encode, with3, VHdr.vecBits, Nat.add_eq, Bool.and_eq_true, decide_eq_true_eq]; omega
theorem bsexp (h : VHdr) (d : Nat) (a : Nat) (b : Nat) : Statement (.bsexp h d a b) := by
  simp only [Statement, Instr.wf, encode, with3, VHdr.vecBits, Nat.add_eq, Bool.and_eq_true, decide_eq_true_eq]; omega
theorem srseed (h : VHdr) (b : Nat) : Statement (.srseed h b) := by
  simp only [Statement, Instr.wf, encode, with1, VHdr.vecBits, Nat.add_eq, Bool.and_eq_true, decide_eq_true_eq]; omega
theorem srskip (h : VHdr) (b : Nat) : Statement (.srskip h b) := by
  simp only [Statement, Instr.wf, encode, with1, VHdr.vecBits, Nat.add_eq, Bool.and_eq_true, decide_eq_true_eq]; omega
theorem xaccClr (h : VHdr) (d : Nat) : Statement (.xaccClr h d) := by
  simp only [Statement, Instr.wf, encode, with1, VHdr.vecBits, Nat.add_eq, Bool.and_eq_true, decide_eq_true_eq]; omega
theorem xaccAdd (h : VHdr) (d : Nat) (a : Nat) : Statement (.xaccAdd h d a) := by
  simp only [Statement, Instr.wf, encode, with2, VHdr.vecBits, Nat.add_eq, Bool.and_eq_true, decide_eq_true_eq]; omega
theorem xaccRd (h : VHdr) (d : Nat) (a : Nat) (b : Nat) : Statement (.xaccRd h d a b) := by
  simp only [Statement, Instr.wf, encode, with3, VHdr.vecBits, Nat.add_eq, Bool.and_eq_true, decide_eq_true_eq]; omega
theorem xdec (h : VHdr) (d : Nat) (a : Nat) : Statement (.xdec h d a) := by
  simp only [Statement, Instr.wf, encode, with2, VHdr.vecBits, Nat.add_eq, Bool.and_eq_true, decide_eq_true_eq]; omega
theorem xstateSave (h : VHdr) (b : Nat) : Statement (.xstateSave h b) := by
  simp only [Statement, Instr.wf, encode, with1, VHdr.vecBits, Nat.add_eq, Bool.and_eq_true, decide_eq_true_eq]; omega
theorem xstateRestore (h : VHdr) (b : Nat) : Statement (.xstateRestore h b) := by
  simp only [Statement, Instr.wf, encode, with1, VHdr.vecBits, Nat.add_eq, Bool.and_eq_true, decide_eq_true_eq]; omega
theorem vld (h : VHdr) (d : Nat) (a : Nat) : Statement (.vld h d a) := by
  simp only [Statement, Instr.wf, encode, with2, VHdr.vmuBits, Nat.add_eq, Bool.and_eq_true, decide_eq_true_eq]; omega
theorem vlds (h : VHdr) (d : Nat) (a : Nat) (b : Nat) : Statement (.vlds h d a b) := by
  simp only [Statement, Instr.wf, encode, with3, VHdr.vmuBits, Nat.add_eq, Bool.and_eq_true, decide_eq_true_eq]; omega
theorem vldx (h : VHdr) (d : Nat) (a : Nat) (b : Nat) : Statement (.vldx h d a b) := by
  simp only [Statement, Instr.wf, encode, with3, VHdr.vmuBits, Nat.add_eq, Bool.and_eq_true, decide_eq_true_eq]; omega
theorem vldff (h : VHdr) (d : Nat) (a : Nat) (f : Nat) : Statement (.vldff h d a f) := by
  simp only [Statement, Instr.wf, encode, with3, VHdr.vmuBits, Nat.add_eq, Bool.and_eq_true, decide_eq_true_eq]; omega
theorem vlda (h : VHdr) (d : Nat) (a : Nat) (s : Nat) : Statement (.vlda h d a s) := by
  simp only [Statement, Instr.wf, encode, with3, VHdr.vmuBits, Nat.add_eq, Bool.and_eq_true, decide_eq_true_eq]; omega
theorem vst (h : VHdr) (d : Nat) (a : Nat) : Statement (.vst h d a) := by
  simp only [Statement, Instr.wf, encode, with2, VHdr.vmuBits, Nat.add_eq, Bool.and_eq_true, decide_eq_true_eq]; omega
theorem vsts (h : VHdr) (d : Nat) (a : Nat) (b : Nat) : Statement (.vsts h d a b) := by
  simp only [Statement, Instr.wf, encode, with3, VHdr.vmuBits, Nat.add_eq, Bool.and_eq_true, decide_eq_true_eq]; omega
theorem vstx (h : VHdr) (d : Nat) (a : Nat) (b : Nat) : Statement (.vstx h d a b) := by
  simp only [Statement, Instr.wf, encode, with3, VHdr.vmuBits, Nat.add_eq, Bool.and_eq_true, decide_eq_true_eq]; omega
theorem vstr (h : VHdr) (d : Nat) (a : Nat) (s : Nat) : Statement (.vstr h d a s) := by
  simp only [Statement, Instr.wf, encode, with3, VHdr.vmuBits, Nat.add_eq, Bool.and_eq_true, decide_eq_true_eq]; omega
theorem vamoadd (h : VHdr) (d : Nat) (a : Nat) (b : Nat) : Statement (.vamoadd h d a b) := by
  simp only [Statement, Instr.wf, encode, with3, VHdr.vmuBits, Nat.add_eq, Bool.and_eq_true, decide_eq_true_eq]; omega
theorem vamoor (h : VHdr) (d : Nat) (a : Nat) (b : Nat) : Statement (.vamoor h d a b) := by
  simp only [Statement, Instr.wf, encode, with3, VHdr.vmuBits, Nat.add_eq, Bool.and_eq_true, decide_eq_true_eq]; omega
theorem vamoand (h : VHdr) (d : Nat) (a : Nat) (b : Nat) : Statement (.vamoand h d a b) := by
  simp only [Statement, Instr.wf, encode, with3, VHdr.vmuBits, Nat.add_eq, Bool.and_eq_true, decide_eq_true_eq]; omega
theorem vamomin (h : VHdr) (d : Nat) (a : Nat) (b : Nat) : Statement (.vamomin h d a b) := by
  simp only [Statement, Instr.wf, encode, with3, VHdr.vmuBits, Nat.add_eq, Bool.and_eq_true, decide_eq_true_eq]; omega
theorem vamomax (h : VHdr) (d : Nat) (a : Nat) (b : Nat) : Statement (.vamomax h d a b) := by
  simp only [Statement, Instr.wf, encode, with3, VHdr.vmuBits, Nat.add_eq, Bool.and_eq_true, decide_eq_true_eq]; omega
theorem vamoswap (h : VHdr) (d : Nat) (a : Nat) (b : Nat) : Statement (.vamoswap h d a b) := by
  simp only [Statement, Instr.wf, encode, with3, VHdr.vmuBits, Nat.add_eq, Bool.and_eq_true, decide_eq_true_eq]; omega
theorem vamocas (h : VHdr) (d : Nat) (a : Nat) (b : Nat) : Statement (.vamocas h d a b) := by
  simp only [Statement, Instr.wf, encode, with3, VHdr.vmuBits, Nat.add_eq, Bool.and_eq_true, decide_eq_true_eq]; omega
theorem stripBegin (h : VHdr) (a : Nat) : Statement (.stripBegin h a) := by
  simp only [Statement, Instr.wf, encode, with1, VHdr.vmuBits, Nat.add_eq, Bool.and_eq_true, decide_eq_true_eq]; omega
theorem stripCommit (h : VHdr) : Statement (.stripCommit h) := by
  simp only [Statement, Instr.wf, encode, VHdr.vmuBits, Nat.add_eq, Bool.and_eq_true, decide_eq_true_eq]; omega
theorem stripAbort (h : VHdr) : Statement (.stripAbort h) := by
  simp only [Statement, Instr.wf, encode, VHdr.vmuBits, Nat.add_eq, Bool.and_eq_true, decide_eq_true_eq]; omega
theorem opa (x : XHdr) (t : Nat) (a : Nat) (b : Nat) : Statement (.opa x t a b) := by
  simp only [Statement, Instr.wf, encode, with3, XHdr.bits, Nat.add_eq, Bool.and_eq_true, decide_eq_true_eq]; omega
theorem opas (x : XHdr) (t : Nat) (a : Nat) (b : Nat) : Statement (.opas x t a b) := by
  simp only [Statement, Instr.wf, encode, with3, XHdr.bits, Nat.add_eq, Bool.and_eq_true, decide_eq_true_eq]; omega
theorem tzero (x : XHdr) (t : Nat) : Statement (.tzero x t) := by
  simp only [Statement, Instr.wf, encode, with1, XHdr.bits, Nat.add_eq, Bool.and_eq_true, decide_eq_true_eq]; omega
theorem trd (x : XHdr) (t : Nat) (a : Nat) (b : Nat) : Statement (.trd x t a b) := by
  simp only [Statement, Instr.wf, encode, with3, XHdr.bits, Nat.add_eq, Bool.and_eq_true, decide_eq_true_eq]; omega
theorem twr (x : XHdr) (t : Nat) (a : Nat) (b : Nat) : Statement (.twr x t a b) := by
  simp only [Statement, Instr.wf, encode, with3, XHdr.bits, Nat.add_eq, Bool.and_eq_true, decide_eq_true_eq]; omega
theorem tshift (x : XHdr) (t : Nat) (s : Nat) : Statement (.tshift x t s) := by
  simp only [Statement, Instr.wf, encode, with2, XHdr.bits, Nat.add_eq, Bool.and_eq_true, decide_eq_true_eq]; omega
theorem tmerge (x : XHdr) (t : Nat) (a : Nat) : Statement (.tmerge x t a) := by
  simp only [Statement, Instr.wf, encode, with2, XHdr.bits, Nat.add_eq, Bool.and_eq_true, decide_eq_true_eq]; omega
theorem tmergeAtt (x : XHdr) (t : Nat) (a : Nat) : Statement (.tmergeAtt x t a) := by
  simp only [Statement, Instr.wf, encode, with2, XHdr.bits, Nat.add_eq, Bool.and_eq_true, decide_eq_true_eq]; omega
theorem tflags (x : XHdr) (t : Nat) : Statement (.tflags x t) := by
  simp only [Statement, Instr.wf, encode, with1, XHdr.bits, Nat.add_eq, Bool.and_eq_true, decide_eq_true_eq]; omega
theorem talloc (x : XHdr) (t : Nat) : Statement (.talloc x t) := by
  simp only [Statement, Instr.wf, encode, with1, XHdr.bits, Nat.add_eq, Bool.and_eq_true, decide_eq_true_eq]; omega
theorem tfree (x : XHdr) (t : Nat) : Statement (.tfree x t) := by
  simp only [Statement, Instr.wf, encode, with1, XHdr.bits, Nat.add_eq, Bool.and_eq_true, decide_eq_true_eq]; omega
theorem sld (k : Nat) (q : Nat) (d : Nat) (a : Nat) (b : Nat) : Statement (.sld k q d a b) := by
  simp only [Statement, Instr.wf, encode, with5, Bool.and_eq_true, decide_eq_true_eq]; omega
theorem sst (k : Nat) (q : Nat) (d : Nat) (a : Nat) (b : Nat) : Statement (.sst k q d a b) := by
  simp only [Statement, Instr.wf, encode, with5, Bool.and_eq_true, decide_eq_true_eq]; omega
theorem scpy (k : Nat) (q : Nat) (d : Nat) (a : Nat) (b : Nat) : Statement (.scpy k q d a b) := by
  simp only [Statement, Instr.wf, encode, with5, Bool.and_eq_true, decide_eq_true_eq]; omega
theorem spln (k : Nat) (q : Nat) (d : Nat) (a : Nat) (b : Nat) : Statement (.spln k q d a b) := by
  simp only [Statement, Instr.wf, encode, with5, Bool.and_eq_true, decide_eq_true_eq]; omega
theorem sldG (k : Nat) (q : Nat) (d : Nat) (a : Nat) (b : Nat) : Statement (.sldG k q d a b) := by
  simp only [Statement, Instr.wf, encode, with5, Bool.and_eq_true, decide_eq_true_eq]; omega
theorem sind (k : Nat) (q : Nat) (d : Nat) (a : Nat) (b : Nat) : Statement (.sind k q d a b) := by
  simp only [Statement, Instr.wf, encode, with5, Bool.and_eq_true, decide_eq_true_eq]; omega
theorem spat (k : Nat) (q : Nat) (d : Nat) (a : Nat) : Statement (.spat k q d a) := by
  simp only [Statement, Instr.wf, encode, with4, Bool.and_eq_true, decide_eq_true_eq]; omega
theorem sbind (k : Nat) (q : Nat) (d : Nat) (a : Nat) (b : Nat) : Statement (.sbind k q d a b) := by
  simp only [Statement, Instr.wf, encode, with5, Bool.and_eq_true, decide_eq_true_eq]; omega
theorem sunbind (k : Nat) (q : Nat) : Statement (.sunbind k q) := by
  simp only [Statement, Instr.wf, encode, with2, Bool.and_eq_true, decide_eq_true_eq]; omega
theorem ssend (k : Nat) (q : Nat) (d : Nat) (a : Nat) (b : Nat) : Statement (.ssend k q d a b) := by
  simp only [Statement, Instr.wf, encode, with5, Bool.and_eq_true, decide_eq_true_eq]; omega
theorem swait (q : Nat) (b : Nat) : Statement (.swait q b) := by
  simp only [Statement, Instr.wf, encode, with2, Bool.and_eq_true, decide_eq_true_eq]; omega
theorem savail (q : Nat) (d : Nat) : Statement (.savail q d) := by
  simp only [Statement, Instr.wf, encode, with2, Bool.and_eq_true, decide_eq_true_eq]; omega
theorem sstat (q : Nat) (d : Nat) (b : Nat) : Statement (.sstat q d b) := by
  simp only [Statement, Instr.wf, encode, with3, Bool.and_eq_true, decide_eq_true_eq]; omega
theorem illegalEncoding (w : Nat) : Statement (.illegalEncoding w) := of_zero rfl
theorem queueEntryFree (h : Nat) (q : Nat) : Statement (.queueEntryFree h q) := of_zero rfl
theorem convoyStart (h : Nat) : Statement (.convoyStart h) := of_zero rfl
theorem elementGroup (core : Nat) : Statement (.elementGroup core) := of_zero rfl
theorem starvationGrant (core : Nat) (h : Nat) : Statement (.starvationGrant core h) := of_zero rfl
theorem redeal (h : Nat) : Statement (.redeal h) := of_zero rfl
theorem groupRefill (h : Nat) : Statement (.groupRefill h) := of_zero rfl
theorem parking (h : Nat) : Statement (.parking h) := of_zero rfl
theorem gangJoinRetry (h : Nat) : Statement (.gangJoinRetry h) := of_zero rfl
theorem takeEngineFault (h : Nat) : Statement (.takeEngineFault h) := of_zero rfl
theorem takeInterrupt (h : Nat) : Statement (.takeInterrupt h) := of_zero rfl
theorem preempt (h : Nat) : Statement (.preempt h) := of_zero rfl
theorem waitwWake (h : Nat) : Statement (.waitwWake h) := of_zero rfl
theorem tkpopWake (h : Nat) : Statement (.tkpopWake h) := of_zero rfl
theorem swaitWake (h : Nat) : Statement (.swaitWake h) := of_zero rfl
theorem tileGrant (core : Nat) (t : Nat) : Statement (.tileGrant core t) := of_zero rfl
theorem streamBurst (h : Nat) (q : Nat) : Statement (.streamBurst h q) := of_zero rfl
theorem sldGMulticast (ctx : Nat) (die : Nat) (num : Nat) : Statement (.sldGMulticast ctx die num) := of_zero rfl
theorem ssendBurstArrival (h : Nat) (q : Nat) : Statement (.ssendBurstArrival h q) := of_zero rfl
theorem expanderBlock (h : Nat) : Statement (.expanderBlock h) := of_zero rfl
theorem xdecWriteStep (h : Nat) : Statement (.xdecWriteStep h) := of_zero rfl
theorem admitHeldWrite (die : Nat) (pool : Nat) : Statement (.admitHeldWrite die pool) := of_zero rfl
theorem recompress (die : Nat) (pool : Nat) : Statement (.recompress die pool) := of_zero rfl
theorem migrate (die : Nat) (pool : Nat) : Statement (.migrate die pool) := of_zero rfl
theorem balloon (die : Nat) (pool : Nat) : Statement (.balloon die pool) := of_zero rfl
theorem weirboundExpiry (die : Nat) (id : Nat) : Statement (.weirboundExpiry die id) := of_zero rfl
theorem woosrecRead (die : Nat) (d : Nat) : Statement (.woosrecRead die d) := of_zero rfl
theorem replay (die : Nat) (w : Nat) : Statement (.replay die w) := of_zero rfl
theorem cancel (die : Nat) (w : Nat) : Statement (.cancel die w) := of_zero rfl
theorem discard (die : Nat) (fr : Nat) : Statement (.discard die fr) := of_zero rfl
theorem setnone (die : Nat) (fr : Nat) : Statement (.setnone die fr) := of_zero rfl
theorem setlossless (die : Nat) (fr : Nat) : Statement (.setlossless die fr) := of_zero rfl
theorem weirRecall (die : Nat) (fr : Nat) : Statement (.weirRecall die fr) := of_zero rfl
theorem wcmdInvalid (die : Nat) : Statement (.wcmdInvalid die) := of_zero rfl
theorem weirCommandDone (die : Nat) : Statement (.weirCommandDone die) := of_zero rfl
theorem poolEnable (die : Nat) (pool : Nat) : Statement (.poolEnable die pool) := of_zero rfl
theorem deviceRegisterWrite (pa : Nat) (w : Nat) : Statement (.deviceRegisterWrite pa w) := of_zero rfl
theorem svhSet (h : Nat) : Statement (.svhSet h) := of_zero rfl
theorem tsliceWrite (h : Nat) (w : Nat) : Statement (.tsliceWrite h w) := of_zero rfl
theorem tkrouteWrite (h : Nat) (w : Nat) : Statement (.tkrouteWrite h w) := of_zero rfl
theorem flush (h : Nat) : Statement (.flush h) := of_zero rfl
theorem drop (h : Nat) : Statement (.drop h) := of_zero rfl
theorem unfreeze (hd : Nat) : Statement (.unfreeze hd) := of_zero rfl
theorem destroy (hd : Nat) : Statement (.destroy hd) := of_zero rfl
theorem uncorrectableError (src : Nat) (die : Nat) (pa : Nat) (h : Nat) : Statement (.uncorrectableError src die pa h) := of_zero rfl
theorem correctableError (src : Nat) (die : Nat) (pa : Nat) : Statement (.correctableError src die pa) := of_zero rfl
theorem governorEvaluation (die : Nat) (stn : Nat) : Statement (.governorEvaluation die stn) := of_zero rfl
theorem operatingPointStep (die : Nat) (stn : Nat) : Statement (.operatingPointStep die stn) := of_zero rfl
theorem powerCapUpdate : Statement (.powerCapUpdate) := of_zero rfl
theorem budgetShortfall (demand : Nat) : Statement (.budgetShortfall demand) := of_zero rfl
theorem request (port : Nat) (watts : Nat) (rseq : Nat) : Statement (.request port watts rseq) := of_zero rfl
theorem grant (port : Nat) (watts : Nat) (ns : Nat) (rseq : Nat) : Statement (.grant port watts ns rseq) := of_zero rfl
theorem leaseReclaim : Statement (.leaseReclaim) := of_zero rfl
theorem leaseWindDown : Statement (.leaseWindDown) := of_zero rfl
theorem leaseEnd : Statement (.leaseEnd) := of_zero rfl
theorem thermalWarning (die : Nat) (stn : Nat) (temp : Nat) : Statement (.thermalWarning die stn temp) := of_zero rfl
theorem thermalCapDown (die : Nat) (stn : Nat) : Statement (.thermalCapDown die stn) := of_zero rfl
theorem thermalCapUp (die : Nat) (stn : Nat) : Statement (.thermalCapUp die stn) := of_zero rfl
theorem emergencySave (die : Nat) (stn : Nat) (temp : Nat) : Statement (.emergencySave die stn temp) := of_zero rfl
theorem trip : Statement (.trip) := of_zero rfl
theorem powerUp : Statement (.powerUp) := of_zero rfl
theorem packageReset : Statement (.packageReset) := of_zero rfl
theorem standbyPowerApplied : Statement (.standbyPowerApplied) := of_zero rfl
theorem standbyPowerLoss : Statement (.standbyPowerLoss) := of_zero rfl
theorem stationWake (die : Nat) : Statement (.stationWake die) := of_zero rfl
theorem laneGroupGate (core : Nat) (grp : Nat) : Statement (.laneGroupGate core grp) := of_zero rfl
theorem droopWithdraw (die : Nat) (stn : Nat) : Statement (.droopWithdraw die stn) := of_zero rfl
theorem droopRestore (die : Nat) (stn : Nat) : Statement (.droopRestore die stn) := of_zero rfl
theorem stationCacheWriteback (die : Nat) (stn : Nat) (line : Nat) : Statement (.stationCacheWriteback die stn line) := of_zero rfl
theorem stationCacheFill (die : Nat) (stn : Nat) (line : Nat) : Statement (.stationCacheFill die stn line) := of_zero rfl
theorem inboundMemoryRequest (rid : Nat) (wr : Nat) (off : Nat) (len : Nat) (data : Nat) : Statement (.inboundMemoryRequest rid wr off len data) := of_zero rfl
theorem inboundAtomicop (rid : Nat) : Statement (.inboundAtomicop rid) := of_zero rfl
theorem onwctlWrite (w : Nat) : Statement (.onwctlWrite w) := of_zero rfl
theorem outboundCompletion (req : Nat) : Statement (.outboundCompletion req) := of_zero rfl
theorem outboundTimeout (req : Nat) : Statement (.outboundTimeout req) := of_zero rfl
theorem towpathRetryFailure (die : Nat) (link : Nat) (md : Nat) : Statement (.towpathRetryFailure die link md) := of_zero rfl
theorem towpathLinkUp (die : Nat) (link : Nat) (mds : Nat) : Statement (.towpathLinkUp die link mds) := of_zero rfl
theorem draborPortState (port : Nat) (st : Nat) (peer : Nat) : Statement (.draborPortState port st peer) := of_zero rfl
theorem fpost (die : Nat) (w : Nat) : Statement (.fpost die w) := of_zero rfl
theorem fabricTransferArrival (die : Nat) (dst : Nat) (len : Nat) (data : Nat) (cpa : Nat) (inc : Nat) : Statement (.fabricTransferArrival die dst len data cpa inc) := of_zero rfl
theorem fabricAck (id : Nat) (code : Nat) : Statement (.fabricAck id code) := of_zero rfl
theorem loadimg (a0 : Nat) (a1 : Nat) : Statement (.loadimg a0 a1) := of_zero rfl
theorem attest (a0 : Nat) : Statement (.attest a0) := of_zero rfl
theorem start (a0 : Nat) (a1 : Nat) (a2 : Nat) : Statement (.start a0 a1 a2) := of_zero rfl
theorem drain (a0 : Nat) : Statement (.drain a0) := of_zero rfl
theorem swap (a0 : Nat) : Statement (.swap a0) := of_zero rfl
theorem undrain (a0 : Nat) : Statement (.undrain a0) := of_zero rfl
theorem retire (a0 : Nat) : Statement (.retire a0) := of_zero rfl
theorem svcInvalid (op : Nat) : Statement (.svcInvalid op) := of_zero rfl
theorem svcCommandEnd : Statement (.svcCommandEnd) := of_zero rfl
theorem stationDrained (die : Nat) (stn : Nat) : Statement (.stationDrained die stn) := of_zero rfl
theorem marchElement (die : Nat) (k : Nat) (w : Nat) : Statement (.marchElement die k w) := of_zero rfl
theorem marchFinish (die : Nat) (k : Nat) (w : Nat) : Statement (.marchFinish die k w) := of_zero rfl
theorem glearnClear (die : Nat) (stn : Nat) : Statement (.glearnClear die stn) := of_zero rfl
theorem arm (die : Nat) : Statement (.arm die) := of_zero rfl
theorem vframeRestoreGrant (h : Nat) : Statement (.vframeRestoreGrant h) := of_zero rfl
theorem fetchFault (h : Nat) : Statement (.fetchFault h) := of_zero rfl
theorem thermalWarningClear (die : Nat) (stn : Nat) : Statement (.thermalWarningClear die stn) := of_zero rfl

end Sys2Proof.Laws.Word32
end

