-- ==== Sys2Proof/Tests/Slice0.lean ====
section
/-! SUPPORT. The model's own tests: the words of the encoding tables decode to their instructions, ill-formed
instructions are refused, a witness for every statement's hypotheses, and the specification's worked examples. -/

namespace Sys2Proof

/-! ### Decoding: words written out from the fields of R42 to R58 -/

set_option maxRecDepth 10000 in
theorem test_decode_base : ([0x04628005, 0x08628005, 0x0C628005, 0x10628005, 0x14628005, 0x18628005, 0x20608005,
      0x24608005, 0x28628005, 0x2FFFFFFE, 0x32000001, 0x3445FFFE, 0x3845FFFE, 0x3C45FFFE, 0x4045FFFE, 0x4445FFFE,
      0x4845FFFE, 0x4C628005, 0x50628005, 0x54628005, 0x58628005, 0x5C628005, 0x60628005, 0x64628005, 0x68628005,
      0x6C628005, 0x70628005, 0x74628005, 0x78628005, 0x7C628005].map (decodeTableWord 32)) =
    [some (.addi 3 2 32773), some (.andi 3 2 32773), some (.ori 3 2 32773), some (.xori 3 2 32773), some (.slti 3 2
      32773), some (.sltiu 3 2 32773), some (.lui 3 32773), some (.addpc 3 32773), some (.jalr 3 2 32773), some (.j
      67108862), some (.jal 33554433), some (.beq 2 5 65534), some (.bne 2 5 65534), some (.blt 2 5 65534), some
      (.bge 2 5 65534), some (.bltu 2 5 65534), some (.bgeu 2 5 65534), some (.lb 3 2 32773), some (.lbu 3 2 32773),
      some (.lh 3 2 32773), some (.lhu 3 2 32773), some (.lw 3 2 32773), some (.lwu 3 2 32773), some (.ld 3 2
      32773), some (.flw 3 2 32773), some (.sb 3 2 32773), some (.sh 3 2 32773), some (.sw 3 2 32773), some (.sd 3 2
      32773), some (.fsw 3 2 32773)] := by decide

set_option maxRecDepth 10000 in
theorem test_decode_shifts : ([0x1C620021, 0x1C620062, 0x1C6200A3].map (decodeTableWord 32)) =
    [some (.slli 3 2 33), some (.srli 3 2 34), some (.srai 3 2 35)] := by decide

set_option maxRecDepth 10000 in
theorem test_decode_registers : ([0xC0622800, 0xC0622801, 0xC0622802, 0xC0622803, 0xC0622804, 0xC0622805,
      0xC0622806, 0xC0622807, 0xC0622808, 0xC0622809, 0xC062280A, 0xC062280B, 0xC062280C, 0xC062280D, 0xC062280E,
      0xC062280F, 0xC0622810, 0xC0622811, 0xC0622812, 0xC0622813, 0xC0622814, 0xC0620015, 0xC0620016,
      0xC0620017].map (decodeTableWord 32)) =
    [some (.add 3 2 5), some (.sub 3 2 5), some (.and 3 2 5), some (.or 3 2 5), some (.xor 3 2 5), some (.sll 3 2
      5), some (.srl 3 2 5), some (.sra 3 2 5), some (.slt 3 2 5), some (.sltu 3 2 5), some (.mul 3 2 5), some
      (.mulh 3 2 5), some (.mulhu 3 2 5), some (.div 3 2 5), some (.divu 3 2 5), some (.rem 3 2 5), some (.remu 3 2
      5), some (.min 3 2 5), some (.max 3 2 5), some (.minu 3 2 5), some (.maxu 3 2 5), some (.clz 3 2), some (.ctz
      3 2), some (.popc 3 2)] := by decide

set_option maxRecDepth 10000 in
theorem test_decode_float : ([0xC4622900, 0xC4622901, 0xC4622902, 0xC4622903, 0xC4620104, 0xC4622805, 0xC4622806,
      0xC4622807, 0xC4622808, 0xC4622809, 0xC462010A, 0xC462010B, 0xC462000C, 0xC462000D].map (decodeTableWord 32))
      =
    [some (.fadd 3 2 5 1), some (.fsub 3 2 5 1), some (.fmul 3 2 5 1), some (.fdiv 3 2 5 1), some (.fsqrt 3 2 1),
      some (.fmin 3 2 5), some (.fmax 3 2 5), some (.feq 3 2 5), some (.flt 3 2 5), some (.fle 3 2 5), some (.fcvtGF
      3 2 1), some (.fcvtFG 3 2 1), some (.fmvGf 3 2), some (.fmvFg 3 2)] := by decide

set_option maxRecDepth 10000 in
theorem test_decode_atomics : ([0xC8622910, 0xC8622911, 0xC8622912, 0xC8622913, 0xC8622914, 0xC8622915, 0xC8622916,
      0xC8620117, 0xC8022918].map (decodeTableWord 32)) =
    [some (.amoadd 3 2 5 4 1), some (.amoor 3 2 5 4 1), some (.amoand 3 2 5 4 1), some (.amomin 3 2 5 4 1), some
      (.amomax 3 2 5 4 1), some (.amoswap 3 2 5 4 1), some (.amocas 3 2 5 4 1), some (.lda 3 2 4 1), some (.str 2 5
      4 1)] := by decide

set_option maxRecDepth 10000 in
theorem test_decode_sync : ([0xCC000100, 0xCC000001, 0xCC000102, 0xCC622903, 0xCC020004, 0xCC020005, 0xCC622806,
      0xCC000007, 0xCC622808, 0xCC000009, 0xCC00000A, 0xCC62000B].map (decodeTableWord 32)) =
    [some (.fence 4), some .lsync, some (.bar 4), some (.waitw 3 2 5 4), some (.tkpush 2), some (.tkpop 2), some
      (.spawn 3 2 5), some .halt, some (.gangJoin 3 2 5), some .gangLeave, some .yield, some (.prio 3 2)] := by
      decide

set_option maxRecDepth 10000 in
theorem test_decode_system : ([0xD0600430, 0xD0020531, 0xD0620622, 0xD000ABC3, 0xD0000004, 0xD0020005, 0xD0020006,
      0xD0620007, 0xD0620008, 0xD0008019].map (decodeTableWord 32)) =
    [some (.sysrd 3 67), some (.syswr 2 83), some (.sysswap 3 2 98), some (.trap 2748), some .retT, some (.invpg 2),
      some (.invall 2), some (.vframeSave 3 2), some (.vframeRestore 3 2), some (.bkpt 2049)] := by decide

set_option maxRecDepth 10000 in
theorem test_decode_config : ([0xD4622800, 0xD4620001, 0xD4622802, 0xD4620003].map (decodeTableWord 32)) =
    [some (.vsetvl 3 2 5), some (.vcfg 3 2), some (.vmread 3 2 5), some (.vmpopc 3 2)] := by decide

set_option maxRecDepth 10000 in
theorem test_decode_steps : ([0xD8622800, 0xD8600001, 0xD8600002].map (decodeTableWord 32)) =
    [some (.stepBegin 3 2 5), some (.stepEnd 3), some (.stepQuery 3)] := by decide

set_option maxRecDepth 10000 in
theorem test_decode_weir : ([0xDC622800, 0xDC620001].map (decodeTableWord 32)) =
    [some (.weirHint 3 2 5), some (.weirQuery 3 2)] := by decide

set_option maxRecDepth 10000 in
theorem test_decode_vector_1 : ([0x9A311680, 0x9A3116C0, 0x9A311681, 0x9A3116C1, 0x9A3116C2, 0x9A311683, 0x9A3116C3,
      0x9A311684, 0x9A3116C4, 0x9A311685, 0x9A3116C5, 0x9A311686, 0x9A3116C6, 0x9A311687, 0x9A3116C7, 0x9A311688,
      0x9A3116C8, 0x9A311689, 0x9A3116C9, 0x9A31168A, 0x9A3116CA, 0x9A31168B, 0x9A3116CB, 0x9A31168C, 0x9A3116CC,
      0x9A31168D, 0x9A3116CD, 0x9A31028E, 0x9A31028F, 0x9A311690].map (decodeTableWord 32)) =
    [some (.vaddV ⟨1, 2, 1, 5⟩ 3 2 5), some (.vaddVX ⟨1, 2, 1, 5⟩ 3 2 5), some (.vsubV ⟨1, 2, 1, 5⟩ 3 2 5), some
      (.vsubVX ⟨1, 2, 1, 5⟩ 3 2 5), some (.vrsub ⟨1, 2, 1, 5⟩ 3 2 5), some (.vminV ⟨1, 2, 1, 5⟩ 3 2 5), some
      (.vminVX ⟨1, 2, 1, 5⟩ 3 2 5), some (.vmaxV ⟨1, 2, 1, 5⟩ 3 2 5), some (.vmaxVX ⟨1, 2, 1, 5⟩ 3 2 5), some
      (.vandV ⟨1, 2, 1, 5⟩ 3 2 5), some (.vandVX ⟨1, 2, 1, 5⟩ 3 2 5), some (.vorV ⟨1, 2, 1, 5⟩ 3 2 5), some (.vorVX
      ⟨1, 2, 1, 5⟩ 3 2 5), some (.vxorV ⟨1, 2, 1, 5⟩ 3 2 5), some (.vxorVX ⟨1, 2, 1, 5⟩ 3 2 5), some (.vsllV ⟨1, 2,
      1, 5⟩ 3 2 5), some (.vsllVX ⟨1, 2, 1, 5⟩ 3 2 5), some (.vsrlV ⟨1, 2, 1, 5⟩ 3 2 5), some (.vsrlVX ⟨1, 2, 1, 5⟩
      3 2 5), some (.vsraV ⟨1, 2, 1, 5⟩ 3 2 5), some (.vsraVX ⟨1, 2, 1, 5⟩ 3 2 5), some (.vsaddV ⟨1, 2, 1, 5⟩ 3 2
      5), some (.vsaddVX ⟨1, 2, 1, 5⟩ 3 2 5), some (.vssubV ⟨1, 2, 1, 5⟩ 3 2 5), some (.vssubVX ⟨1, 2, 1, 5⟩ 3 2 5),
      some (.vavgV ⟨1, 2, 1, 5⟩ 3 2 5), some (.vavgVX ⟨1, 2, 1, 5⟩ 3 2 5), some (.vabs ⟨1, 2, 1, 5⟩ 3 2), some
      (.vneg ⟨1, 2, 1, 5⟩ 3 2), some (.vseqV ⟨1, 2, 1, 5⟩ 3 2 5)] := by decide

set_option maxRecDepth 10000 in
theorem test_decode_vector_2 : ([0x9A3116D0, 0x9A311691, 0x9A3116D1, 0x9A311692, 0x9A3116D2, 0x9A311693, 0x9A3116D3,
      0x9A311694, 0x9A3116D4, 0x9A311695, 0x9A3116D5, 0x9A311696, 0x9A3116D6, 0x9A310297, 0x9A3016D7, 0x9A311698,
      0x9A3116A0, 0x9A3116E0, 0x9A3116A1, 0x9A3116E1, 0x9A3116A2, 0x9A3116E2, 0x9A3116A3, 0x9A3116E3, 0x9A3116A4,
      0x9A3116E4, 0x9A3116A5, 0x9A3116E5, 0x9A3102A6, 0x9A3102A7].map (decodeTableWord 32)) =
    [some (.vseqVX ⟨1, 2, 1, 5⟩ 3 2 5), some (.vsneV ⟨1, 2, 1, 5⟩ 3 2 5), some (.vsneVX ⟨1, 2, 1, 5⟩ 3 2 5), some
      (.vsltV ⟨1, 2, 1, 5⟩ 3 2 5), some (.vsltVX ⟨1, 2, 1, 5⟩ 3 2 5), some (.vsleV ⟨1, 2, 1, 5⟩ 3 2 5), some
      (.vsleVX ⟨1, 2, 1, 5⟩ 3 2 5), some (.vsgtV ⟨1, 2, 1, 5⟩ 3 2 5), some (.vsgtVX ⟨1, 2, 1, 5⟩ 3 2 5), some
      (.vsgeV ⟨1, 2, 1, 5⟩ 3 2 5), some (.vsgeVX ⟨1, 2, 1, 5⟩ 3 2 5), some (.vselV ⟨1, 2, 1, 5⟩ 3 2 5), some
      (.vselVX ⟨1, 2, 1, 5⟩ 3 2 5), some (.vmvV ⟨1, 2, 1, 5⟩ 3 2), some (.vmvVX ⟨1, 2, 1, 5⟩ 3 5), some (.vcvt ⟨1,
      2, 1, 5⟩ 3 2 5), some (.vmulV ⟨1, 2, 1, 5⟩ 3 2 5), some (.vmulVX ⟨1, 2, 1, 5⟩ 3 2 5), some (.vmulhV ⟨1, 2, 1,
      5⟩ 3 2 5), some (.vmulhVX ⟨1, 2, 1, 5⟩ 3 2 5), some (.vmaccV ⟨1, 2, 1, 5⟩ 3 2 5), some (.vmaccVX ⟨1, 2, 1, 5⟩
      3 2 5), some (.vdivV ⟨1, 2, 1, 5⟩ 3 2 5), some (.vdivVX ⟨1, 2, 1, 5⟩ 3 2 5), some (.vremV ⟨1, 2, 1, 5⟩ 3 2 5),
      some (.vremVX ⟨1, 2, 1, 5⟩ 3 2 5), some (.vsmulV ⟨1, 2, 1, 5⟩ 3 2 5), some (.vsmulVX ⟨1, 2, 1, 5⟩ 3 2 5), some
      (.vexp2 ⟨1, 2, 1, 5⟩ 3 2), some (.vlog2 ⟨1, 2, 1, 5⟩ 3 2)] := by decide

set_option maxRecDepth 10000 in
theorem test_decode_vector_3 : ([0x9A3116B0, 0x9A3116B1, 0x9A3116B2, 0x9A3116B3, 0x9A3102B4, 0x9A3116F5, 0x9A3116F6,
      0x9A3116B7, 0x9A3102B8, 0x9A3102B9, 0x9A3002BA, 0x9A3102BB, 0x9A3116BC, 0x9A310ABD, 0x9A3102BE,
      0x9A3102BF].map (decodeTableWord 32)) =
    [some (.vmand ⟨1, 2, 1, 5⟩ 3 2 5), some (.vmor ⟨1, 2, 1, 5⟩ 3 2 5), some (.vmxor ⟨1, 2, 1, 5⟩ 3 2 5), some
      (.vmandn ⟨1, 2, 1, 5⟩ 3 2 5), some (.vmnot ⟨1, 2, 1, 5⟩ 3 2), some (.vslideup ⟨1, 2, 1, 5⟩ 3 2 5), some
      (.vslidedn ⟨1, 2, 1, 5⟩ 3 2 5), some (.vperm ⟨1, 2, 1, 5⟩ 3 2 5), some (.vcompress ⟨1, 2, 1, 5⟩ 3 2), some
      (.viota ⟨1, 2, 1, 5⟩ 3 2), some (.vindex ⟨1, 2, 1, 5⟩ 3), some (.vconfl ⟨1, 2, 1, 5⟩ 3 2), some (.vred ⟨1, 2,
      1, 5⟩ 3 2 5), some (.vscan ⟨1, 2, 1, 5⟩ 3 2 2), some (.vredoF ⟨1, 2, 1, 5⟩ 3 2), some (.vredx ⟨1, 2, 1, 5⟩ 3
      2)] := by decide

set_option maxRecDepth 10000 in
theorem test_decode_block_scale : ([0xAA311680, 0xAA311E81, 0xAA311682, 0xAA311683, 0xAA001444, 0xAA001445,
      0xAA300006, 0xAA310007, 0xAA311448, 0xAA310010, 0xA0001451, 0xA0001452].map (decodeTableWord 32)) =
    [some (.mxq ⟨0, 2, 1, 5⟩ 3 2 5), some (.mxdq ⟨0, 2, 1, 5⟩ 3 2 7), some (.fcvtV ⟨0, 2, 1, 5⟩ 3 2 5), some (.bsexp
      ⟨0, 2, 1, 5⟩ 3 2 5), some (.srseed ⟨0, 2, 1, 0⟩ 5), some (.srskip ⟨0, 2, 1, 0⟩ 5), some (.xaccClr ⟨0, 2, 1, 0⟩
      3), some (.xaccAdd ⟨0, 2, 1, 0⟩ 3 2), some (.xaccRd ⟨0, 2, 1, 0⟩ 3 2 5), some (.xdec ⟨0, 2, 1, 0⟩ 3 2), some
      (.xstateSave ⟨0, 0, 0, 0⟩ 5), some (.xstateRestore ⟨0, 0, 0, 0⟩ 5)] := by decide

set_option maxRecDepth 10000 in
theorem test_decode_vmu : ([0xB23102C0, 0xB23116C1, 0xB23116C2, 0xB23106C3, 0xB23112C4, 0xB23102C8, 0xB23116C9,
      0xB23116CA, 0xB23112CC, 0xB23116D0, 0xB23116D1, 0xB23116D2, 0xB23116D3, 0xB23116D4, 0xB23116D5, 0xB23116D6,
      0xB2010058, 0xB2000059, 0xB200005A].map (decodeTableWord 32)) =
    [some (.vld ⟨0, 2, 1, 5⟩ 3 2), some (.vlds ⟨0, 2, 1, 5⟩ 3 2 5), some (.vldx ⟨0, 2, 1, 5⟩ 3 2 5), some (.vldff
      ⟨0, 2, 1, 5⟩ 3 2 1), some (.vlda ⟨0, 2, 1, 5⟩ 3 2 4), some (.vst ⟨0, 2, 1, 5⟩ 3 2), some (.vsts ⟨0, 2, 1, 5⟩ 3
      2 5), some (.vstx ⟨0, 2, 1, 5⟩ 3 2 5), some (.vstr ⟨0, 2, 1, 5⟩ 3 2 4), some (.vamoadd ⟨0, 2, 1, 5⟩ 3 2 5),
      some (.vamoor ⟨0, 2, 1, 5⟩ 3 2 5), some (.vamoand ⟨0, 2, 1, 5⟩ 3 2 5), some (.vamomin ⟨0, 2, 1, 5⟩ 3 2 5),
      some (.vamomax ⟨0, 2, 1, 5⟩ 3 2 5), some (.vamoswap ⟨0, 2, 1, 5⟩ 3 2 5), some (.vamocas ⟨0, 2, 1, 5⟩ 3 2 5),
      some (.stripBegin ⟨0, 2, 1, 0⟩ 2), some (.stripCommit ⟨0, 2, 1, 0⟩), some (.stripAbort ⟨0, 2, 1, 0⟩)] := by
      decide

set_option maxRecDepth 10000 in
theorem test_decode_matrix : ([0xB6116C00, 0xB6116C01, 0xB6002C02, 0xB6116C03, 0xB6116C04, 0xB6012C05, 0xB6102C06,
      0xB6106C06, 0xB6000407, 0xB6000408, 0xB6000409].map (decodeTableWord 32)) =
    [some (.opa ⟨2, 5⟩ 2 2 5), some (.opas ⟨2, 5⟩ 2 2 5), some (.tzero ⟨2, 5⟩ 2), some (.trd ⟨2, 5⟩ 2 2 5), some
      (.twr ⟨2, 5⟩ 2 2 5), some (.tshift ⟨2, 5⟩ 2 4), some (.tmerge ⟨2, 5⟩ 2 2), some (.tmergeAtt ⟨2, 5⟩ 2 2), some
      (.tflags ⟨2, 0⟩ 2), some (.talloc ⟨2, 0⟩ 2), some (.tfree ⟨2, 0⟩ 2)] := by decide

set_option maxRecDepth 10000 in
theorem test_decode_streams : ([0xBB0C4580, 0xBB0C4581, 0xBB0C4582, 0xBB0C4583, 0xBB0C4584, 0xBB0C4585, 0xBB0C4086,
      0xBB0C4587, 0xBB000088, 0xBB0C4589, 0xBB00050A, 0xBB0C000B, 0xBB0C050C].map (decodeTableWord 32)) =
    [some (.sld 2 6 3 2 5), some (.sst 2 6 3 2 5), some (.scpy 2 6 3 2 5), some (.spln 2 6 3 2 5), some (.sldG 2 6 3
      2 5), some (.sind 2 6 3 2 5), some (.spat 2 6 3 2), some (.sbind 2 6 3 2 5), some (.sunbind 2 6), some (.ssend
      2 6 3 2 5), some (.swait 6 5), some (.savail 6 3), some (.sstat 6 3 5)] := by decide

/-! ### Ill-formed instructions: one field of each out of its range -/

set_option maxRecDepth 10000 in
theorem test_ill_formed_base : ([.addi 32 2 32773, .addi 3 32 32773, .addi 3 2 65536, .andi 32 2 32773, .andi 3 32
    32773, .andi 3 2 65536, .ori 32 2 32773, .ori 3 32 32773, .ori 3 2 65536, .xori 32 2 32773, .xori 3 32 32773,
    .xori 3 2 65536, .slti 32 2 32773, .slti 3 32 32773, .slti 3 2 65536, .sltiu 32 2 32773, .sltiu 3 32 32773,
    .sltiu 3 2 65536, .lui 32 32773, .lui 3 65536, .addpc 32 32773, .addpc 3 65536, .jalr 32 2 32773, .jalr 3 32
    32773, .jalr 3 2 65536, .j 67108864, .jal 67108864, .beq 32 5 65534, .beq 2 32 65534, .beq 2 5 65536, .bne 32 5
    65534, .bne 2 32 65534, .bne 2 5 65536, .blt 32 5 65534, .blt 2 32 65534, .blt 2 5 65536, .bge 32 5 65534, .bge
    2 32 65534, .bge 2 5 65536, .bltu 32 5 65534, .bltu 2 32 65534, .bltu 2 5 65536, .bgeu 32 5 65534, .bgeu 2 32
    65534, .bgeu 2 5 65536, .lb 32 2 32773, .lb 3 32 32773, .lb 3 2 65536, .lbu 32 2 32773, .lbu 3 32 32773, .lbu 3
    2 65536, .lh 32 2 32773, .lh 3 32 32773, .lh 3 2 65536, .lhu 32 2 32773, .lhu 3 32 32773, .lhu 3 2 65536, .lw 32
    2 32773, .lw 3 32 32773, .lw 3 2 65536, .lwu 32 2 32773, .lwu 3 32 32773, .lwu 3 2 65536, .ld 32 2 32773, .ld 3
    32 32773, .ld 3 2 65536, .flw 16 2 32773, .flw 3 32 32773, .flw 3 2 65536, .sb 32 2 32773, .sb 3 32 32773, .sb 3
    2 65536, .sh 32 2 32773, .sh 3 32 32773, .sh 3 2 65536, .sw 32 2 32773, .sw 3 32 32773, .sw 3 2 65536, .sd 32 2
    32773, .sd 3 32 32773, .sd 3 2 65536, .fsw 16 2 32773, .fsw 3 32 32773, .fsw 3 2 65536] : List Instr).all (fun i
    => !i.wf) = true := by decide

set_option maxRecDepth 10000 in
theorem test_ill_formed_shifts : ([.slli 32 2 33, .slli 3 32 33, .slli 3 2 64, .srli 32 2 34, .srli 3 32 34, .srli 3
    2 64, .srai 32 2 35, .srai 3 32 35, .srai 3 2 64] : List Instr).all (fun i => !i.wf) = true := by decide

set_option maxRecDepth 10000 in
theorem test_ill_formed_registers : ([.add 32 2 5, .add 3 32 5, .add 3 2 32, .sub 32 2 5, .sub 3 32 5, .sub 3 2 32,
    .and 32 2 5, .and 3 32 5, .and 3 2 32, .or 32 2 5, .or 3 32 5, .or 3 2 32, .xor 32 2 5, .xor 3 32 5, .xor 3 2
    32, .sll 32 2 5, .sll 3 32 5, .sll 3 2 32, .srl 32 2 5, .srl 3 32 5, .srl 3 2 32, .sra 32 2 5, .sra 3 32 5, .sra
    3 2 32, .slt 32 2 5, .slt 3 32 5, .slt 3 2 32, .sltu 32 2 5, .sltu 3 32 5, .sltu 3 2 32, .mul 32 2 5, .mul 3 32
    5, .mul 3 2 32, .mulh 32 2 5, .mulh 3 32 5, .mulh 3 2 32, .mulhu 32 2 5, .mulhu 3 32 5, .mulhu 3 2 32, .div 32 2
    5, .div 3 32 5, .div 3 2 32, .divu 32 2 5, .divu 3 32 5, .divu 3 2 32, .rem 32 2 5, .rem 3 32 5, .rem 3 2 32,
    .remu 32 2 5, .remu 3 32 5, .remu 3 2 32, .min 32 2 5, .min 3 32 5, .min 3 2 32, .max 32 2 5, .max 3 32 5, .max
    3 2 32, .minu 32 2 5, .minu 3 32 5, .minu 3 2 32, .maxu 32 2 5, .maxu 3 32 5, .maxu 3 2 32, .clz 32 2, .clz 3
    32, .ctz 32 2, .ctz 3 32, .popc 32 2, .popc 3 32] : List Instr).all (fun i => !i.wf) = true := by decide

set_option maxRecDepth 10000 in
theorem test_ill_formed_float : ([.fadd 16 2 5 1, .fadd 3 16 5 1, .fadd 3 2 16 1, .fadd 3 2 5 5, .fsub 16 2 5 1,
    .fsub 3 16 5 1, .fsub 3 2 16 1, .fsub 3 2 5 5, .fmul 16 2 5 1, .fmul 3 16 5 1, .fmul 3 2 16 1, .fmul 3 2 5 5,
    .fdiv 16 2 5 1, .fdiv 3 16 5 1, .fdiv 3 2 16 1, .fdiv 3 2 5 5, .fsqrt 16 2 1, .fsqrt 3 16 1, .fsqrt 3 2 5, .fmin
    16 2 5, .fmin 3 16 5, .fmin 3 2 16, .fmax 16 2 5, .fmax 3 16 5, .fmax 3 2 16, .feq 32 2 5, .feq 3 16 5, .feq 3 2
    16, .flt 32 2 5, .flt 3 16 5, .flt 3 2 16, .fle 32 2 5, .fle 3 16 5, .fle 3 2 16, .fcvtGF 32 2 1, .fcvtGF 3 16
    1, .fcvtGF 3 2 5, .fcvtFG 16 2 1, .fcvtFG 3 32 1, .fcvtFG 3 2 5, .fmvGf 32 2, .fmvGf 3 16, .fmvFg 16 2, .fmvFg 3
    32] : List Instr).all (fun i => !i.wf) = true := by decide

set_option maxRecDepth 10000 in
theorem test_ill_formed_atomics : ([.amoadd 32 2 5 4 1, .amoadd 3 32 5 4 1, .amoadd 3 2 32 4 1, .amoadd 3 2 5 8 1,
    .amoadd 3 2 5 4 2, .amoor 32 2 5 4 1, .amoor 3 32 5 4 1, .amoor 3 2 32 4 1, .amoor 3 2 5 8 1, .amoor 3 2 5 4 2,
    .amoand 32 2 5 4 1, .amoand 3 32 5 4 1, .amoand 3 2 32 4 1, .amoand 3 2 5 8 1, .amoand 3 2 5 4 2, .amomin 32 2 5
    4 1, .amomin 3 32 5 4 1, .amomin 3 2 32 4 1, .amomin 3 2 5 8 1, .amomin 3 2 5 4 2, .amomax 32 2 5 4 1, .amomax 3
    32 5 4 1, .amomax 3 2 32 4 1, .amomax 3 2 5 8 1, .amomax 3 2 5 4 2, .amoswap 32 2 5 4 1, .amoswap 3 32 5 4 1,
    .amoswap 3 2 32 4 1, .amoswap 3 2 5 8 1, .amoswap 3 2 5 4 2, .amocas 32 2 5 4 1, .amocas 3 32 5 4 1, .amocas 3 2
    32 4 1, .amocas 3 2 5 8 1, .amocas 3 2 5 4 2, .lda 32 2 4 1, .lda 3 32 4 1, .lda 3 2 8 1, .lda 3 2 4 2, .str 32
    5 4 1, .str 2 32 4 1, .str 2 5 8 1, .str 2 5 4 2] : List Instr).all (fun i => !i.wf) = true := by decide

set_option maxRecDepth 10000 in
theorem test_ill_formed_sync : ([.fence 8, .bar 0, .bar 5, .waitw 32 2 5 4, .waitw 3 32 5 4, .waitw 3 2 32 4, .waitw
    3 2 5 2, .waitw 3 2 5 8, .tkpush 32, .tkpop 32, .spawn 32 2 5, .spawn 3 32 5, .spawn 3 2 32, .gangJoin 32 2 5,
    .gangJoin 3 32 5, .gangJoin 3 2 32, .prio 32 2, .prio 3 32] : List Instr).all (fun i => !i.wf) = true := by
    decide

set_option maxRecDepth 10000 in
theorem test_ill_formed_system : ([.sysrd 32 67, .sysrd 3 7, .syswr 32 83, .syswr 2 7, .sysswap 32 2 98, .sysswap 3
    32 98, .sysswap 3 2 7, .trap 4096, .invpg 32, .invall 32, .vframeSave 32 2, .vframeSave 3 32, .vframeRestore 32
    2, .vframeRestore 3 32, .bkpt 4096] : List Instr).all (fun i => !i.wf) = true := by decide

set_option maxRecDepth 10000 in
theorem test_ill_formed_config : ([.vsetvl 32 2 5, .vsetvl 3 32 5, .vsetvl 3 2 32, .vcfg 32 2, .vcfg 3 32, .vmread
    32 2 5, .vmread 3 8 5, .vmread 3 2 32, .vmpopc 32 2, .vmpopc 3 8] : List Instr).all (fun i => !i.wf) = true :=
    by decide

set_option maxRecDepth 10000 in
theorem test_ill_formed_steps : ([.stepBegin 32 2 5, .stepBegin 3 32 5, .stepBegin 3 2 32, .stepEnd 32, .stepQuery
    32] : List Instr).all (fun i => !i.wf) = true := by decide

set_option maxRecDepth 10000 in
theorem test_ill_formed_weir : ([.weirHint 32 2 5, .weirHint 3 32 5, .weirHint 3 2 32, .weirQuery 32 2, .weirQuery 3
    32] : List Instr).all (fun i => !i.wf) = true := by decide

set_option maxRecDepth 10000 in
theorem test_ill_formed_vector_1 : ([.vaddV ⟨2, 2, 1, 5⟩ 3 2 5, .vaddV ⟨1, 4, 1, 5⟩ 3 2 5, .vaddV ⟨1, 2, 2, 5⟩ 3 2
    5, .vaddV ⟨1, 2, 1, 8⟩ 3 2 5, .vaddV ⟨1, 2, 1, 5⟩ 32 2 5, .vaddV ⟨1, 2, 1, 5⟩ 3 32 5, .vaddV ⟨1, 2, 1, 5⟩ 3 2
    32, .vaddVX ⟨2, 2, 1, 5⟩ 3 2 5, .vaddVX ⟨1, 4, 1, 5⟩ 3 2 5, .vaddVX ⟨1, 2, 2, 5⟩ 3 2 5, .vaddVX ⟨1, 2, 1, 8⟩ 3 2
    5, .vaddVX ⟨1, 2, 1, 5⟩ 32 2 5, .vaddVX ⟨1, 2, 1, 5⟩ 3 32 5, .vaddVX ⟨1, 2, 1, 5⟩ 3 2 32, .vsubV ⟨2, 2, 1, 5⟩ 3
    2 5, .vsubV ⟨1, 4, 1, 5⟩ 3 2 5, .vsubV ⟨1, 2, 2, 5⟩ 3 2 5, .vsubV ⟨1, 2, 1, 8⟩ 3 2 5, .vsubV ⟨1, 2, 1, 5⟩ 32 2
    5, .vsubV ⟨1, 2, 1, 5⟩ 3 32 5, .vsubV ⟨1, 2, 1, 5⟩ 3 2 32, .vsubVX ⟨2, 2, 1, 5⟩ 3 2 5, .vsubVX ⟨1, 4, 1, 5⟩ 3 2
    5, .vsubVX ⟨1, 2, 2, 5⟩ 3 2 5, .vsubVX ⟨1, 2, 1, 8⟩ 3 2 5, .vsubVX ⟨1, 2, 1, 5⟩ 32 2 5, .vsubVX ⟨1, 2, 1, 5⟩ 3
    32 5, .vsubVX ⟨1, 2, 1, 5⟩ 3 2 32, .vrsub ⟨2, 2, 1, 5⟩ 3 2 5, .vrsub ⟨1, 4, 1, 5⟩ 3 2 5, .vrsub ⟨1, 2, 2, 5⟩ 3 2
    5, .vrsub ⟨1, 2, 1, 8⟩ 3 2 5, .vrsub ⟨1, 2, 1, 5⟩ 32 2 5, .vrsub ⟨1, 2, 1, 5⟩ 3 32 5, .vrsub ⟨1, 2, 1, 5⟩ 3 2
    32, .vminV ⟨2, 2, 1, 5⟩ 3 2 5, .vminV ⟨1, 4, 1, 5⟩ 3 2 5, .vminV ⟨1, 2, 2, 5⟩ 3 2 5, .vminV ⟨1, 2, 1, 8⟩ 3 2 5,
    .vminV ⟨1, 2, 1, 5⟩ 32 2 5, .vminV ⟨1, 2, 1, 5⟩ 3 32 5, .vminV ⟨1, 2, 1, 5⟩ 3 2 32, .vminVX ⟨2, 2, 1, 5⟩ 3 2 5,
    .vminVX ⟨1, 4, 1, 5⟩ 3 2 5, .vminVX ⟨1, 2, 2, 5⟩ 3 2 5, .vminVX ⟨1, 2, 1, 8⟩ 3 2 5, .vminVX ⟨1, 2, 1, 5⟩ 32 2 5,
    .vminVX ⟨1, 2, 1, 5⟩ 3 32 5, .vminVX ⟨1, 2, 1, 5⟩ 3 2 32, .vmaxV ⟨2, 2, 1, 5⟩ 3 2 5, .vmaxV ⟨1, 4, 1, 5⟩ 3 2 5,
    .vmaxV ⟨1, 2, 2, 5⟩ 3 2 5, .vmaxV ⟨1, 2, 1, 8⟩ 3 2 5, .vmaxV ⟨1, 2, 1, 5⟩ 32 2 5, .vmaxV ⟨1, 2, 1, 5⟩ 3 32 5,
    .vmaxV ⟨1, 2, 1, 5⟩ 3 2 32, .vmaxVX ⟨2, 2, 1, 5⟩ 3 2 5, .vmaxVX ⟨1, 4, 1, 5⟩ 3 2 5, .vmaxVX ⟨1, 2, 2, 5⟩ 3 2 5,
    .vmaxVX ⟨1, 2, 1, 8⟩ 3 2 5, .vmaxVX ⟨1, 2, 1, 5⟩ 32 2 5, .vmaxVX ⟨1, 2, 1, 5⟩ 3 32 5, .vmaxVX ⟨1, 2, 1, 5⟩ 3 2
    32, .vandV ⟨2, 2, 1, 5⟩ 3 2 5, .vandV ⟨1, 4, 1, 5⟩ 3 2 5, .vandV ⟨1, 2, 2, 5⟩ 3 2 5, .vandV ⟨1, 2, 1, 8⟩ 3 2 5,
    .vandV ⟨1, 2, 1, 5⟩ 32 2 5, .vandV ⟨1, 2, 1, 5⟩ 3 32 5, .vandV ⟨1, 2, 1, 5⟩ 3 2 32, .vandVX ⟨2, 2, 1, 5⟩ 3 2 5,
    .vandVX ⟨1, 4, 1, 5⟩ 3 2 5, .vandVX ⟨1, 2, 2, 5⟩ 3 2 5, .vandVX ⟨1, 2, 1, 8⟩ 3 2 5, .vandVX ⟨1, 2, 1, 5⟩ 32 2 5,
    .vandVX ⟨1, 2, 1, 5⟩ 3 32 5, .vandVX ⟨1, 2, 1, 5⟩ 3 2 32, .vorV ⟨2, 2, 1, 5⟩ 3 2 5, .vorV ⟨1, 4, 1, 5⟩ 3 2 5,
    .vorV ⟨1, 2, 2, 5⟩ 3 2 5, .vorV ⟨1, 2, 1, 8⟩ 3 2 5, .vorV ⟨1, 2, 1, 5⟩ 32 2 5, .vorV ⟨1, 2, 1, 5⟩ 3 32 5, .vorV
    ⟨1, 2, 1, 5⟩ 3 2 32, .vorVX ⟨2, 2, 1, 5⟩ 3 2 5, .vorVX ⟨1, 4, 1, 5⟩ 3 2 5, .vorVX ⟨1, 2, 2, 5⟩ 3 2 5, .vorVX ⟨1,
    2, 1, 8⟩ 3 2 5, .vorVX ⟨1, 2, 1, 5⟩ 32 2 5, .vorVX ⟨1, 2, 1, 5⟩ 3 32 5, .vorVX ⟨1, 2, 1, 5⟩ 3 2 32, .vxorV ⟨2,
    2, 1, 5⟩ 3 2 5, .vxorV ⟨1, 4, 1, 5⟩ 3 2 5, .vxorV ⟨1, 2, 2, 5⟩ 3 2 5, .vxorV ⟨1, 2, 1, 8⟩ 3 2 5, .vxorV ⟨1, 2,
    1, 5⟩ 32 2 5, .vxorV ⟨1, 2, 1, 5⟩ 3 32 5, .vxorV ⟨1, 2, 1, 5⟩ 3 2 32, .vxorVX ⟨2, 2, 1, 5⟩ 3 2 5, .vxorVX ⟨1, 4,
    1, 5⟩ 3 2 5] : List Instr).all (fun i => !i.wf) = true := by decide

set_option maxRecDepth 10000 in
theorem test_ill_formed_vector_2 : ([.vxorVX ⟨1, 2, 2, 5⟩ 3 2 5, .vxorVX ⟨1, 2, 1, 8⟩ 3 2 5, .vxorVX ⟨1, 2, 1, 5⟩ 32
    2 5, .vxorVX ⟨1, 2, 1, 5⟩ 3 32 5, .vxorVX ⟨1, 2, 1, 5⟩ 3 2 32, .vsllV ⟨2, 2, 1, 5⟩ 3 2 5, .vsllV ⟨1, 4, 1, 5⟩ 3
    2 5, .vsllV ⟨1, 2, 2, 5⟩ 3 2 5, .vsllV ⟨1, 2, 1, 8⟩ 3 2 5, .vsllV ⟨1, 2, 1, 5⟩ 32 2 5, .vsllV ⟨1, 2, 1, 5⟩ 3 32
    5, .vsllV ⟨1, 2, 1, 5⟩ 3 2 32, .vsllVX ⟨2, 2, 1, 5⟩ 3 2 5, .vsllVX ⟨1, 4, 1, 5⟩ 3 2 5, .vsllVX ⟨1, 2, 2, 5⟩ 3 2
    5, .vsllVX ⟨1, 2, 1, 8⟩ 3 2 5, .vsllVX ⟨1, 2, 1, 5⟩ 32 2 5, .vsllVX ⟨1, 2, 1, 5⟩ 3 32 5, .vsllVX ⟨1, 2, 1, 5⟩ 3
    2 32, .vsrlV ⟨2, 2, 1, 5⟩ 3 2 5, .vsrlV ⟨1, 4, 1, 5⟩ 3 2 5, .vsrlV ⟨1, 2, 2, 5⟩ 3 2 5, .vsrlV ⟨1, 2, 1, 8⟩ 3 2
    5, .vsrlV ⟨1, 2, 1, 5⟩ 32 2 5, .vsrlV ⟨1, 2, 1, 5⟩ 3 32 5, .vsrlV ⟨1, 2, 1, 5⟩ 3 2 32, .vsrlVX ⟨2, 2, 1, 5⟩ 3 2
    5, .vsrlVX ⟨1, 4, 1, 5⟩ 3 2 5, .vsrlVX ⟨1, 2, 2, 5⟩ 3 2 5, .vsrlVX ⟨1, 2, 1, 8⟩ 3 2 5, .vsrlVX ⟨1, 2, 1, 5⟩ 32 2
    5, .vsrlVX ⟨1, 2, 1, 5⟩ 3 32 5, .vsrlVX ⟨1, 2, 1, 5⟩ 3 2 32, .vsraV ⟨2, 2, 1, 5⟩ 3 2 5, .vsraV ⟨1, 4, 1, 5⟩ 3 2
    5, .vsraV ⟨1, 2, 2, 5⟩ 3 2 5, .vsraV ⟨1, 2, 1, 8⟩ 3 2 5, .vsraV ⟨1, 2, 1, 5⟩ 32 2 5, .vsraV ⟨1, 2, 1, 5⟩ 3 32 5,
    .vsraV ⟨1, 2, 1, 5⟩ 3 2 32, .vsraVX ⟨2, 2, 1, 5⟩ 3 2 5, .vsraVX ⟨1, 4, 1, 5⟩ 3 2 5, .vsraVX ⟨1, 2, 2, 5⟩ 3 2 5,
    .vsraVX ⟨1, 2, 1, 8⟩ 3 2 5, .vsraVX ⟨1, 2, 1, 5⟩ 32 2 5, .vsraVX ⟨1, 2, 1, 5⟩ 3 32 5, .vsraVX ⟨1, 2, 1, 5⟩ 3 2
    32, .vsaddV ⟨2, 2, 1, 5⟩ 3 2 5, .vsaddV ⟨1, 4, 1, 5⟩ 3 2 5, .vsaddV ⟨1, 2, 2, 5⟩ 3 2 5, .vsaddV ⟨1, 2, 1, 8⟩ 3 2
    5, .vsaddV ⟨1, 2, 1, 5⟩ 32 2 5, .vsaddV ⟨1, 2, 1, 5⟩ 3 32 5, .vsaddV ⟨1, 2, 1, 5⟩ 3 2 32, .vsaddVX ⟨2, 2, 1, 5⟩
    3 2 5, .vsaddVX ⟨1, 4, 1, 5⟩ 3 2 5, .vsaddVX ⟨1, 2, 2, 5⟩ 3 2 5, .vsaddVX ⟨1, 2, 1, 8⟩ 3 2 5, .vsaddVX ⟨1, 2, 1,
    5⟩ 32 2 5, .vsaddVX ⟨1, 2, 1, 5⟩ 3 32 5, .vsaddVX ⟨1, 2, 1, 5⟩ 3 2 32, .vssubV ⟨2, 2, 1, 5⟩ 3 2 5, .vssubV ⟨1,
    4, 1, 5⟩ 3 2 5, .vssubV ⟨1, 2, 2, 5⟩ 3 2 5, .vssubV ⟨1, 2, 1, 8⟩ 3 2 5, .vssubV ⟨1, 2, 1, 5⟩ 32 2 5, .vssubV ⟨1,
    2, 1, 5⟩ 3 32 5, .vssubV ⟨1, 2, 1, 5⟩ 3 2 32, .vssubVX ⟨2, 2, 1, 5⟩ 3 2 5, .vssubVX ⟨1, 4, 1, 5⟩ 3 2 5, .vssubVX
    ⟨1, 2, 2, 5⟩ 3 2 5, .vssubVX ⟨1, 2, 1, 8⟩ 3 2 5, .vssubVX ⟨1, 2, 1, 5⟩ 32 2 5, .vssubVX ⟨1, 2, 1, 5⟩ 3 32 5,
    .vssubVX ⟨1, 2, 1, 5⟩ 3 2 32, .vavgV ⟨2, 2, 1, 5⟩ 3 2 5, .vavgV ⟨1, 4, 1, 5⟩ 3 2 5, .vavgV ⟨1, 2, 2, 5⟩ 3 2 5,
    .vavgV ⟨1, 2, 1, 8⟩ 3 2 5, .vavgV ⟨1, 2, 1, 5⟩ 32 2 5, .vavgV ⟨1, 2, 1, 5⟩ 3 32 5, .vavgV ⟨1, 2, 1, 5⟩ 3 2 32,
    .vavgVX ⟨2, 2, 1, 5⟩ 3 2 5, .vavgVX ⟨1, 4, 1, 5⟩ 3 2 5, .vavgVX ⟨1, 2, 2, 5⟩ 3 2 5, .vavgVX ⟨1, 2, 1, 8⟩ 3 2 5,
    .vavgVX ⟨1, 2, 1, 5⟩ 32 2 5, .vavgVX ⟨1, 2, 1, 5⟩ 3 32 5, .vavgVX ⟨1, 2, 1, 5⟩ 3 2 32, .vabs ⟨2, 2, 1, 5⟩ 3 2,
    .vabs ⟨1, 4, 1, 5⟩ 3 2, .vabs ⟨1, 2, 2, 5⟩ 3 2, .vabs ⟨1, 2, 1, 8⟩ 3 2, .vabs ⟨1, 2, 1, 5⟩ 32 2, .vabs ⟨1, 2, 1,
    5⟩ 3 32, .vneg ⟨2, 2, 1, 5⟩ 3 2, .vneg ⟨1, 4, 1, 5⟩ 3 2, .vneg ⟨1, 2, 2, 5⟩ 3 2, .vneg ⟨1, 2, 1, 8⟩ 3 2, .vneg
    ⟨1, 2, 1, 5⟩ 32 2] : List Instr).all (fun i => !i.wf) = true := by decide

set_option maxRecDepth 10000 in
theorem test_ill_formed_vector_3 : ([.vneg ⟨1, 2, 1, 5⟩ 3 32, .vseqV ⟨2, 2, 1, 5⟩ 3 2 5, .vseqV ⟨1, 4, 1, 5⟩ 3 2 5,
    .vseqV ⟨1, 2, 2, 5⟩ 3 2 5, .vseqV ⟨1, 2, 1, 8⟩ 3 2 5, .vseqV ⟨1, 2, 1, 5⟩ 32 2 5, .vseqV ⟨1, 2, 1, 5⟩ 3 32 5,
    .vseqV ⟨1, 2, 1, 5⟩ 3 2 32, .vseqVX ⟨2, 2, 1, 5⟩ 3 2 5, .vseqVX ⟨1, 4, 1, 5⟩ 3 2 5, .vseqVX ⟨1, 2, 2, 5⟩ 3 2 5,
    .vseqVX ⟨1, 2, 1, 8⟩ 3 2 5, .vseqVX ⟨1, 2, 1, 5⟩ 32 2 5, .vseqVX ⟨1, 2, 1, 5⟩ 3 32 5, .vseqVX ⟨1, 2, 1, 5⟩ 3 2
    32, .vsneV ⟨2, 2, 1, 5⟩ 3 2 5, .vsneV ⟨1, 4, 1, 5⟩ 3 2 5, .vsneV ⟨1, 2, 2, 5⟩ 3 2 5, .vsneV ⟨1, 2, 1, 8⟩ 3 2 5,
    .vsneV ⟨1, 2, 1, 5⟩ 32 2 5, .vsneV ⟨1, 2, 1, 5⟩ 3 32 5, .vsneV ⟨1, 2, 1, 5⟩ 3 2 32, .vsneVX ⟨2, 2, 1, 5⟩ 3 2 5,
    .vsneVX ⟨1, 4, 1, 5⟩ 3 2 5, .vsneVX ⟨1, 2, 2, 5⟩ 3 2 5, .vsneVX ⟨1, 2, 1, 8⟩ 3 2 5, .vsneVX ⟨1, 2, 1, 5⟩ 32 2 5,
    .vsneVX ⟨1, 2, 1, 5⟩ 3 32 5, .vsneVX ⟨1, 2, 1, 5⟩ 3 2 32, .vsltV ⟨2, 2, 1, 5⟩ 3 2 5, .vsltV ⟨1, 4, 1, 5⟩ 3 2 5,
    .vsltV ⟨1, 2, 2, 5⟩ 3 2 5, .vsltV ⟨1, 2, 1, 8⟩ 3 2 5, .vsltV ⟨1, 2, 1, 5⟩ 32 2 5, .vsltV ⟨1, 2, 1, 5⟩ 3 32 5,
    .vsltV ⟨1, 2, 1, 5⟩ 3 2 32, .vsltVX ⟨2, 2, 1, 5⟩ 3 2 5, .vsltVX ⟨1, 4, 1, 5⟩ 3 2 5, .vsltVX ⟨1, 2, 2, 5⟩ 3 2 5,
    .vsltVX ⟨1, 2, 1, 8⟩ 3 2 5, .vsltVX ⟨1, 2, 1, 5⟩ 32 2 5, .vsltVX ⟨1, 2, 1, 5⟩ 3 32 5, .vsltVX ⟨1, 2, 1, 5⟩ 3 2
    32, .vsleV ⟨2, 2, 1, 5⟩ 3 2 5, .vsleV ⟨1, 4, 1, 5⟩ 3 2 5, .vsleV ⟨1, 2, 2, 5⟩ 3 2 5, .vsleV ⟨1, 2, 1, 8⟩ 3 2 5,
    .vsleV ⟨1, 2, 1, 5⟩ 32 2 5, .vsleV ⟨1, 2, 1, 5⟩ 3 32 5, .vsleV ⟨1, 2, 1, 5⟩ 3 2 32, .vsleVX ⟨2, 2, 1, 5⟩ 3 2 5,
    .vsleVX ⟨1, 4, 1, 5⟩ 3 2 5, .vsleVX ⟨1, 2, 2, 5⟩ 3 2 5, .vsleVX ⟨1, 2, 1, 8⟩ 3 2 5, .vsleVX ⟨1, 2, 1, 5⟩ 32 2 5,
    .vsleVX ⟨1, 2, 1, 5⟩ 3 32 5, .vsleVX ⟨1, 2, 1, 5⟩ 3 2 32, .vsgtV ⟨2, 2, 1, 5⟩ 3 2 5, .vsgtV ⟨1, 4, 1, 5⟩ 3 2 5,
    .vsgtV ⟨1, 2, 2, 5⟩ 3 2 5, .vsgtV ⟨1, 2, 1, 8⟩ 3 2 5, .vsgtV ⟨1, 2, 1, 5⟩ 32 2 5, .vsgtV ⟨1, 2, 1, 5⟩ 3 32 5,
    .vsgtV ⟨1, 2, 1, 5⟩ 3 2 32, .vsgtVX ⟨2, 2, 1, 5⟩ 3 2 5, .vsgtVX ⟨1, 4, 1, 5⟩ 3 2 5, .vsgtVX ⟨1, 2, 2, 5⟩ 3 2 5,
    .vsgtVX ⟨1, 2, 1, 8⟩ 3 2 5, .vsgtVX ⟨1, 2, 1, 5⟩ 32 2 5, .vsgtVX ⟨1, 2, 1, 5⟩ 3 32 5, .vsgtVX ⟨1, 2, 1, 5⟩ 3 2
    32, .vsgeV ⟨2, 2, 1, 5⟩ 3 2 5, .vsgeV ⟨1, 4, 1, 5⟩ 3 2 5, .vsgeV ⟨1, 2, 2, 5⟩ 3 2 5, .vsgeV ⟨1, 2, 1, 8⟩ 3 2 5,
    .vsgeV ⟨1, 2, 1, 5⟩ 32 2 5, .vsgeV ⟨1, 2, 1, 5⟩ 3 32 5, .vsgeV ⟨1, 2, 1, 5⟩ 3 2 32, .vsgeVX ⟨2, 2, 1, 5⟩ 3 2 5,
    .vsgeVX ⟨1, 4, 1, 5⟩ 3 2 5, .vsgeVX ⟨1, 2, 2, 5⟩ 3 2 5, .vsgeVX ⟨1, 2, 1, 8⟩ 3 2 5, .vsgeVX ⟨1, 2, 1, 5⟩ 32 2 5,
    .vsgeVX ⟨1, 2, 1, 5⟩ 3 32 5, .vsgeVX ⟨1, 2, 1, 5⟩ 3 2 32, .vselV ⟨2, 2, 1, 5⟩ 3 2 5, .vselV ⟨1, 4, 1, 5⟩ 3 2 5,
    .vselV ⟨1, 2, 2, 5⟩ 3 2 5, .vselV ⟨1, 2, 1, 8⟩ 3 2 5, .vselV ⟨1, 2, 1, 5⟩ 32 2 5, .vselV ⟨1, 2, 1, 5⟩ 3 32 5,
    .vselV ⟨1, 2, 1, 5⟩ 3 2 32, .vselVX ⟨2, 2, 1, 5⟩ 3 2 5, .vselVX ⟨1, 4, 1, 5⟩ 3 2 5, .vselVX ⟨1, 2, 2, 5⟩ 3 2 5,
    .vselVX ⟨1, 2, 1, 8⟩ 3 2 5, .vselVX ⟨1, 2, 1, 5⟩ 32 2 5, .vselVX ⟨1, 2, 1, 5⟩ 3 32 5, .vselVX ⟨1, 2, 1, 5⟩ 3 2
    32, .vmvV ⟨2, 2, 1, 5⟩ 3 2] : List Instr).all (fun i => !i.wf) = true := by decide

set_option maxRecDepth 10000 in
theorem test_ill_formed_vector_4 : ([.vmvV ⟨1, 4, 1, 5⟩ 3 2, .vmvV ⟨1, 2, 2, 5⟩ 3 2, .vmvV ⟨1, 2, 1, 8⟩ 3 2, .vmvV
    ⟨1, 2, 1, 5⟩ 32 2, .vmvV ⟨1, 2, 1, 5⟩ 3 32, .vmvVX ⟨2, 2, 1, 5⟩ 3 5, .vmvVX ⟨1, 4, 1, 5⟩ 3 5, .vmvVX ⟨1, 2, 2,
    5⟩ 3 5, .vmvVX ⟨1, 2, 1, 8⟩ 3 5, .vmvVX ⟨1, 2, 1, 5⟩ 32 5, .vmvVX ⟨1, 2, 1, 5⟩ 3 32, .vcvt ⟨2, 2, 1, 5⟩ 3 2 5,
    .vcvt ⟨1, 4, 1, 5⟩ 3 2 5, .vcvt ⟨1, 2, 2, 5⟩ 3 2 5, .vcvt ⟨1, 2, 1, 8⟩ 3 2 5, .vcvt ⟨1, 2, 1, 5⟩ 32 2 5, .vcvt
    ⟨1, 2, 1, 5⟩ 3 32 5, .vcvt ⟨1, 2, 1, 5⟩ 3 2 13, .vmulV ⟨2, 2, 1, 5⟩ 3 2 5, .vmulV ⟨1, 4, 1, 5⟩ 3 2 5, .vmulV ⟨1,
    2, 2, 5⟩ 3 2 5, .vmulV ⟨1, 2, 1, 8⟩ 3 2 5, .vmulV ⟨1, 2, 1, 5⟩ 32 2 5, .vmulV ⟨1, 2, 1, 5⟩ 3 32 5, .vmulV ⟨1, 2,
    1, 5⟩ 3 2 32, .vmulVX ⟨2, 2, 1, 5⟩ 3 2 5, .vmulVX ⟨1, 4, 1, 5⟩ 3 2 5, .vmulVX ⟨1, 2, 2, 5⟩ 3 2 5, .vmulVX ⟨1, 2,
    1, 8⟩ 3 2 5, .vmulVX ⟨1, 2, 1, 5⟩ 32 2 5, .vmulVX ⟨1, 2, 1, 5⟩ 3 32 5, .vmulVX ⟨1, 2, 1, 5⟩ 3 2 32, .vmulhV ⟨2,
    2, 1, 5⟩ 3 2 5, .vmulhV ⟨1, 4, 1, 5⟩ 3 2 5, .vmulhV ⟨1, 2, 2, 5⟩ 3 2 5, .vmulhV ⟨1, 2, 1, 8⟩ 3 2 5, .vmulhV ⟨1,
    2, 1, 5⟩ 32 2 5, .vmulhV ⟨1, 2, 1, 5⟩ 3 32 5, .vmulhV ⟨1, 2, 1, 5⟩ 3 2 32, .vmulhVX ⟨2, 2, 1, 5⟩ 3 2 5, .vmulhVX
    ⟨1, 4, 1, 5⟩ 3 2 5, .vmulhVX ⟨1, 2, 2, 5⟩ 3 2 5, .vmulhVX ⟨1, 2, 1, 8⟩ 3 2 5, .vmulhVX ⟨1, 2, 1, 5⟩ 32 2 5,
    .vmulhVX ⟨1, 2, 1, 5⟩ 3 32 5, .vmulhVX ⟨1, 2, 1, 5⟩ 3 2 32, .vmaccV ⟨2, 2, 1, 5⟩ 3 2 5, .vmaccV ⟨1, 4, 1, 5⟩ 3 2
    5, .vmaccV ⟨1, 2, 2, 5⟩ 3 2 5, .vmaccV ⟨1, 2, 1, 8⟩ 3 2 5, .vmaccV ⟨1, 2, 1, 5⟩ 32 2 5, .vmaccV ⟨1, 2, 1, 5⟩ 3
    32 5, .vmaccV ⟨1, 2, 1, 5⟩ 3 2 32, .vmaccVX ⟨2, 2, 1, 5⟩ 3 2 5, .vmaccVX ⟨1, 4, 1, 5⟩ 3 2 5, .vmaccVX ⟨1, 2, 2,
    5⟩ 3 2 5, .vmaccVX ⟨1, 2, 1, 8⟩ 3 2 5, .vmaccVX ⟨1, 2, 1, 5⟩ 32 2 5, .vmaccVX ⟨1, 2, 1, 5⟩ 3 32 5, .vmaccVX ⟨1,
    2, 1, 5⟩ 3 2 32, .vdivV ⟨2, 2, 1, 5⟩ 3 2 5, .vdivV ⟨1, 4, 1, 5⟩ 3 2 5, .vdivV ⟨1, 2, 2, 5⟩ 3 2 5, .vdivV ⟨1, 2,
    1, 8⟩ 3 2 5, .vdivV ⟨1, 2, 1, 5⟩ 32 2 5, .vdivV ⟨1, 2, 1, 5⟩ 3 32 5, .vdivV ⟨1, 2, 1, 5⟩ 3 2 32, .vdivVX ⟨2, 2,
    1, 5⟩ 3 2 5, .vdivVX ⟨1, 4, 1, 5⟩ 3 2 5, .vdivVX ⟨1, 2, 2, 5⟩ 3 2 5, .vdivVX ⟨1, 2, 1, 8⟩ 3 2 5, .vdivVX ⟨1, 2,
    1, 5⟩ 32 2 5, .vdivVX ⟨1, 2, 1, 5⟩ 3 32 5, .vdivVX ⟨1, 2, 1, 5⟩ 3 2 32, .vremV ⟨2, 2, 1, 5⟩ 3 2 5, .vremV ⟨1, 4,
    1, 5⟩ 3 2 5, .vremV ⟨1, 2, 2, 5⟩ 3 2 5, .vremV ⟨1, 2, 1, 8⟩ 3 2 5, .vremV ⟨1, 2, 1, 5⟩ 32 2 5, .vremV ⟨1, 2, 1,
    5⟩ 3 32 5, .vremV ⟨1, 2, 1, 5⟩ 3 2 32, .vremVX ⟨2, 2, 1, 5⟩ 3 2 5, .vremVX ⟨1, 4, 1, 5⟩ 3 2 5, .vremVX ⟨1, 2, 2,
    5⟩ 3 2 5, .vremVX ⟨1, 2, 1, 8⟩ 3 2 5, .vremVX ⟨1, 2, 1, 5⟩ 32 2 5, .vremVX ⟨1, 2, 1, 5⟩ 3 32 5, .vremVX ⟨1, 2,
    1, 5⟩ 3 2 32, .vsmulV ⟨2, 2, 1, 5⟩ 3 2 5, .vsmulV ⟨1, 4, 1, 5⟩ 3 2 5, .vsmulV ⟨1, 2, 2, 5⟩ 3 2 5, .vsmulV ⟨1, 2,
    1, 8⟩ 3 2 5, .vsmulV ⟨1, 2, 1, 5⟩ 32 2 5, .vsmulV ⟨1, 2, 1, 5⟩ 3 32 5, .vsmulV ⟨1, 2, 1, 5⟩ 3 2 32, .vsmulVX ⟨2,
    2, 1, 5⟩ 3 2 5, .vsmulVX ⟨1, 4, 1, 5⟩ 3 2 5, .vsmulVX ⟨1, 2, 2, 5⟩ 3 2 5, .vsmulVX ⟨1, 2, 1, 8⟩ 3 2 5, .vsmulVX
    ⟨1, 2, 1, 5⟩ 32 2 5] : List Instr).all (fun i => !i.wf) = true := by decide

set_option maxRecDepth 10000 in
theorem test_ill_formed_vector_5 : ([.vsmulVX ⟨1, 2, 1, 5⟩ 3 32 5, .vsmulVX ⟨1, 2, 1, 5⟩ 3 2 32, .vexp2 ⟨2, 2, 1, 5⟩
    3 2, .vexp2 ⟨1, 4, 1, 5⟩ 3 2, .vexp2 ⟨1, 2, 2, 5⟩ 3 2, .vexp2 ⟨1, 2, 1, 8⟩ 3 2, .vexp2 ⟨1, 2, 1, 5⟩ 32 2, .vexp2
    ⟨1, 2, 1, 5⟩ 3 32, .vlog2 ⟨2, 2, 1, 5⟩ 3 2, .vlog2 ⟨1, 4, 1, 5⟩ 3 2, .vlog2 ⟨1, 2, 2, 5⟩ 3 2, .vlog2 ⟨1, 2, 1,
    8⟩ 3 2, .vlog2 ⟨1, 2, 1, 5⟩ 32 2, .vlog2 ⟨1, 2, 1, 5⟩ 3 32, .vmand ⟨2, 2, 1, 5⟩ 3 2 5, .vmand ⟨1, 4, 1, 5⟩ 3 2
    5, .vmand ⟨1, 2, 2, 5⟩ 3 2 5, .vmand ⟨1, 2, 1, 8⟩ 3 2 5, .vmand ⟨1, 2, 1, 5⟩ 32 2 5, .vmand ⟨1, 2, 1, 5⟩ 3 32 5,
    .vmand ⟨1, 2, 1, 5⟩ 3 2 32, .vmor ⟨2, 2, 1, 5⟩ 3 2 5, .vmor ⟨1, 4, 1, 5⟩ 3 2 5, .vmor ⟨1, 2, 2, 5⟩ 3 2 5, .vmor
    ⟨1, 2, 1, 8⟩ 3 2 5, .vmor ⟨1, 2, 1, 5⟩ 32 2 5, .vmor ⟨1, 2, 1, 5⟩ 3 32 5, .vmor ⟨1, 2, 1, 5⟩ 3 2 32, .vmxor ⟨2,
    2, 1, 5⟩ 3 2 5, .vmxor ⟨1, 4, 1, 5⟩ 3 2 5, .vmxor ⟨1, 2, 2, 5⟩ 3 2 5, .vmxor ⟨1, 2, 1, 8⟩ 3 2 5, .vmxor ⟨1, 2,
    1, 5⟩ 32 2 5, .vmxor ⟨1, 2, 1, 5⟩ 3 32 5, .vmxor ⟨1, 2, 1, 5⟩ 3 2 32, .vmandn ⟨2, 2, 1, 5⟩ 3 2 5, .vmandn ⟨1, 4,
    1, 5⟩ 3 2 5, .vmandn ⟨1, 2, 2, 5⟩ 3 2 5, .vmandn ⟨1, 2, 1, 8⟩ 3 2 5, .vmandn ⟨1, 2, 1, 5⟩ 32 2 5, .vmandn ⟨1, 2,
    1, 5⟩ 3 32 5, .vmandn ⟨1, 2, 1, 5⟩ 3 2 32, .vmnot ⟨2, 2, 1, 5⟩ 3 2, .vmnot ⟨1, 4, 1, 5⟩ 3 2, .vmnot ⟨1, 2, 2, 5⟩
    3 2, .vmnot ⟨1, 2, 1, 8⟩ 3 2, .vmnot ⟨1, 2, 1, 5⟩ 32 2, .vmnot ⟨1, 2, 1, 5⟩ 3 32, .vslideup ⟨2, 2, 1, 5⟩ 3 2 5,
    .vslideup ⟨1, 4, 1, 5⟩ 3 2 5, .vslideup ⟨1, 2, 2, 5⟩ 3 2 5, .vslideup ⟨1, 2, 1, 8⟩ 3 2 5, .vslideup ⟨1, 2, 1, 5⟩
    32 2 5, .vslideup ⟨1, 2, 1, 5⟩ 3 32 5, .vslideup ⟨1, 2, 1, 5⟩ 3 2 32, .vslidedn ⟨2, 2, 1, 5⟩ 3 2 5, .vslidedn
    ⟨1, 4, 1, 5⟩ 3 2 5, .vslidedn ⟨1, 2, 2, 5⟩ 3 2 5, .vslidedn ⟨1, 2, 1, 8⟩ 3 2 5, .vslidedn ⟨1, 2, 1, 5⟩ 32 2 5,
    .vslidedn ⟨1, 2, 1, 5⟩ 3 32 5, .vslidedn ⟨1, 2, 1, 5⟩ 3 2 32, .vperm ⟨2, 2, 1, 5⟩ 3 2 5, .vperm ⟨1, 4, 1, 5⟩ 3 2
    5, .vperm ⟨1, 2, 2, 5⟩ 3 2 5, .vperm ⟨1, 2, 1, 8⟩ 3 2 5, .vperm ⟨1, 2, 1, 5⟩ 32 2 5, .vperm ⟨1, 2, 1, 5⟩ 3 32 5,
    .vperm ⟨1, 2, 1, 5⟩ 3 2 32, .vcompress ⟨2, 2, 1, 5⟩ 3 2, .vcompress ⟨1, 4, 1, 5⟩ 3 2, .vcompress ⟨1, 2, 2, 5⟩ 3
    2, .vcompress ⟨1, 2, 1, 8⟩ 3 2, .vcompress ⟨1, 2, 1, 5⟩ 32 2, .vcompress ⟨1, 2, 1, 5⟩ 3 32, .viota ⟨2, 2, 1, 5⟩
    3 2, .viota ⟨1, 4, 1, 5⟩ 3 2, .viota ⟨1, 2, 2, 5⟩ 3 2, .viota ⟨1, 2, 1, 8⟩ 3 2, .viota ⟨1, 2, 1, 5⟩ 32 2, .viota
    ⟨1, 2, 1, 5⟩ 3 32, .vindex ⟨2, 2, 1, 5⟩ 3, .vindex ⟨1, 4, 1, 5⟩ 3, .vindex ⟨1, 2, 2, 5⟩ 3, .vindex ⟨1, 2, 1, 8⟩
    3, .vindex ⟨1, 2, 1, 5⟩ 32, .vconfl ⟨2, 2, 1, 5⟩ 3 2, .vconfl ⟨1, 4, 1, 5⟩ 3 2, .vconfl ⟨1, 2, 2, 5⟩ 3 2,
    .vconfl ⟨1, 2, 1, 8⟩ 3 2, .vconfl ⟨1, 2, 1, 5⟩ 32 2, .vconfl ⟨1, 2, 1, 5⟩ 3 32, .vred ⟨2, 2, 1, 5⟩ 3 2 5, .vred
    ⟨1, 4, 1, 5⟩ 3 2 5, .vred ⟨1, 2, 2, 5⟩ 3 2 5, .vred ⟨1, 2, 1, 8⟩ 3 2 5, .vred ⟨1, 2, 1, 5⟩ 32 2 5, .vred ⟨1, 2,
    1, 5⟩ 3 32 5, .vred ⟨1, 2, 1, 5⟩ 3 2 6, .vscan ⟨2, 2, 1, 5⟩ 3 2 2] : List Instr).all (fun i => !i.wf) = true :=
    by decide

set_option maxRecDepth 10000 in
theorem test_ill_formed_vector_6 : ([.vscan ⟨1, 4, 1, 5⟩ 3 2 2, .vscan ⟨1, 2, 2, 5⟩ 3 2 2, .vscan ⟨1, 2, 1, 8⟩ 3 2
    2, .vscan ⟨1, 2, 1, 5⟩ 32 2 2, .vscan ⟨1, 2, 1, 5⟩ 3 32 2, .vscan ⟨1, 2, 1, 5⟩ 3 2 3, .vredoF ⟨2, 2, 1, 5⟩ 3 2,
    .vredoF ⟨1, 4, 1, 5⟩ 3 2, .vredoF ⟨1, 2, 2, 5⟩ 3 2, .vredoF ⟨1, 2, 1, 8⟩ 3 2, .vredoF ⟨1, 2, 1, 5⟩ 32 2, .vredoF
    ⟨1, 2, 1, 5⟩ 3 32, .vredx ⟨2, 2, 1, 5⟩ 3 2, .vredx ⟨1, 4, 1, 5⟩ 3 2, .vredx ⟨1, 2, 2, 5⟩ 3 2, .vredx ⟨1, 2, 1,
    8⟩ 3 2, .vredx ⟨1, 2, 1, 5⟩ 32 2, .vredx ⟨1, 2, 1, 5⟩ 3 32] : List Instr).all (fun i => !i.wf) = true := by
    decide

set_option maxRecDepth 10000 in
theorem test_ill_formed_block_scale : ([.mxq ⟨1, 2, 1, 5⟩ 3 2 5, .mxq ⟨0, 4, 1, 5⟩ 3 2 5, .mxq ⟨0, 2, 2, 5⟩ 3 2 5,
    .mxq ⟨0, 2, 1, 8⟩ 3 2 5, .mxq ⟨0, 2, 1, 5⟩ 32 2 5, .mxq ⟨0, 2, 1, 5⟩ 3 32 5, .mxq ⟨0, 2, 1, 5⟩ 3 2 3, .mxq ⟨0,
    2, 1, 5⟩ 3 2 7, .mxdq ⟨1, 2, 1, 5⟩ 3 2 7, .mxdq ⟨0, 4, 1, 5⟩ 3 2 7, .mxdq ⟨0, 2, 2, 5⟩ 3 2 7, .mxdq ⟨0, 2, 1, 8⟩
    3 2 7, .mxdq ⟨0, 2, 1, 5⟩ 32 2 7, .mxdq ⟨0, 2, 1, 5⟩ 3 32 7, .mxdq ⟨0, 2, 1, 5⟩ 3 2 6, .mxdq ⟨0, 2, 1, 5⟩ 3 2
    13, .fcvtV ⟨1, 2, 1, 5⟩ 3 2 5, .fcvtV ⟨0, 4, 1, 5⟩ 3 2 5, .fcvtV ⟨0, 2, 2, 5⟩ 3 2 5, .fcvtV ⟨0, 2, 1, 8⟩ 3 2 5,
    .fcvtV ⟨0, 2, 1, 5⟩ 32 2 5, .fcvtV ⟨0, 2, 1, 5⟩ 3 32 5, .fcvtV ⟨0, 2, 1, 5⟩ 3 2 3, .fcvtV ⟨0, 2, 1, 5⟩ 3 2 12,
    .bsexp ⟨1, 2, 1, 5⟩ 3 2 5, .bsexp ⟨0, 4, 1, 5⟩ 3 2 5, .bsexp ⟨0, 2, 2, 5⟩ 3 2 5, .bsexp ⟨0, 2, 1, 8⟩ 3 2 5,
    .bsexp ⟨0, 2, 1, 5⟩ 32 2 5, .bsexp ⟨0, 2, 1, 5⟩ 3 32 5, .bsexp ⟨0, 2, 1, 5⟩ 3 2 3, .bsexp ⟨0, 2, 1, 5⟩ 3 2 13,
    .srseed ⟨1, 2, 1, 0⟩ 5, .srseed ⟨0, 4, 1, 0⟩ 5, .srseed ⟨0, 2, 2, 0⟩ 5, .srseed ⟨0, 2, 1, 1⟩ 5, .srseed ⟨0, 2,
    1, 0⟩ 32, .srskip ⟨1, 2, 1, 0⟩ 5, .srskip ⟨0, 4, 1, 0⟩ 5, .srskip ⟨0, 2, 2, 0⟩ 5, .srskip ⟨0, 2, 1, 1⟩ 5,
    .srskip ⟨0, 2, 1, 0⟩ 32, .xaccClr ⟨1, 2, 1, 0⟩ 3, .xaccClr ⟨0, 4, 1, 0⟩ 3, .xaccClr ⟨0, 2, 2, 0⟩ 3, .xaccClr ⟨0,
    2, 1, 1⟩ 3, .xaccClr ⟨0, 2, 1, 0⟩ 32, .xaccAdd ⟨1, 2, 1, 0⟩ 3 2, .xaccAdd ⟨0, 4, 1, 0⟩ 3 2, .xaccAdd ⟨0, 2, 2,
    0⟩ 3 2, .xaccAdd ⟨0, 2, 1, 1⟩ 3 2, .xaccAdd ⟨0, 2, 1, 0⟩ 32 2, .xaccAdd ⟨0, 2, 1, 0⟩ 3 32, .xaccRd ⟨1, 2, 1, 0⟩
    3 2 5, .xaccRd ⟨0, 4, 1, 0⟩ 3 2 5, .xaccRd ⟨0, 2, 2, 0⟩ 3 2 5, .xaccRd ⟨0, 2, 1, 1⟩ 3 2 5, .xaccRd ⟨0, 2, 1, 0⟩
    32 2 5, .xaccRd ⟨0, 2, 1, 0⟩ 3 32 5, .xaccRd ⟨0, 2, 1, 0⟩ 3 2 32, .xdec ⟨1, 2, 1, 0⟩ 3 2, .xdec ⟨0, 4, 1, 0⟩ 3
    2, .xdec ⟨0, 2, 2, 0⟩ 3 2, .xdec ⟨0, 2, 1, 1⟩ 3 2, .xdec ⟨0, 2, 1, 0⟩ 32 2, .xdec ⟨0, 2, 1, 0⟩ 3 32, .xstateSave
    ⟨1, 0, 0, 0⟩ 5, .xstateSave ⟨0, 1, 0, 0⟩ 5, .xstateSave ⟨0, 0, 1, 0⟩ 5, .xstateSave ⟨0, 0, 0, 1⟩ 5, .xstateSave
    ⟨0, 0, 0, 0⟩ 32, .xstateRestore ⟨1, 0, 0, 0⟩ 5, .xstateRestore ⟨0, 1, 0, 0⟩ 5, .xstateRestore ⟨0, 0, 1, 0⟩ 5,
    .xstateRestore ⟨0, 0, 0, 1⟩ 5, .xstateRestore ⟨0, 0, 0, 0⟩ 32] : List Instr).all (fun i => !i.wf) = true := by
    decide

set_option maxRecDepth 10000 in
theorem test_ill_formed_vmu_1 : ([.vld ⟨1, 2, 1, 5⟩ 3 2, .vld ⟨0, 4, 1, 5⟩ 3 2, .vld ⟨0, 2, 2, 5⟩ 3 2, .vld ⟨0, 2,
    1, 8⟩ 3 2, .vld ⟨0, 2, 1, 5⟩ 32 2, .vld ⟨0, 2, 1, 5⟩ 3 32, .vlds ⟨1, 2, 1, 5⟩ 3 2 5, .vlds ⟨0, 4, 1, 5⟩ 3 2 5,
    .vlds ⟨0, 2, 2, 5⟩ 3 2 5, .vlds ⟨0, 2, 1, 8⟩ 3 2 5, .vlds ⟨0, 2, 1, 5⟩ 32 2 5, .vlds ⟨0, 2, 1, 5⟩ 3 32 5, .vlds
    ⟨0, 2, 1, 5⟩ 3 2 32, .vldx ⟨1, 2, 1, 5⟩ 3 2 5, .vldx ⟨0, 4, 1, 5⟩ 3 2 5, .vldx ⟨0, 2, 2, 5⟩ 3 2 5, .vldx ⟨0, 2,
    1, 8⟩ 3 2 5, .vldx ⟨0, 2, 1, 5⟩ 32 2 5, .vldx ⟨0, 2, 1, 5⟩ 3 32 5, .vldx ⟨0, 2, 1, 5⟩ 3 2 32, .vldff ⟨1, 2, 1,
    5⟩ 3 2 1, .vldff ⟨0, 4, 1, 5⟩ 3 2 1, .vldff ⟨0, 2, 2, 5⟩ 3 2 1, .vldff ⟨0, 2, 1, 8⟩ 3 2 1, .vldff ⟨0, 2, 1, 5⟩
    32 2 1, .vldff ⟨0, 2, 1, 5⟩ 3 32 1, .vldff ⟨0, 2, 1, 5⟩ 3 2 8, .vlda ⟨1, 2, 1, 5⟩ 3 2 4, .vlda ⟨0, 4, 1, 5⟩ 3 2
    4, .vlda ⟨0, 2, 2, 5⟩ 3 2 4, .vlda ⟨0, 2, 1, 8⟩ 3 2 4, .vlda ⟨0, 2, 1, 5⟩ 32 2 4, .vlda ⟨0, 2, 1, 5⟩ 3 32 4,
    .vlda ⟨0, 2, 1, 5⟩ 3 2 8, .vst ⟨1, 2, 1, 5⟩ 3 2, .vst ⟨0, 4, 1, 5⟩ 3 2, .vst ⟨0, 2, 2, 5⟩ 3 2, .vst ⟨0, 2, 1, 8⟩
    3 2, .vst ⟨0, 2, 1, 5⟩ 32 2, .vst ⟨0, 2, 1, 5⟩ 3 32, .vsts ⟨1, 2, 1, 5⟩ 3 2 5, .vsts ⟨0, 4, 1, 5⟩ 3 2 5, .vsts
    ⟨0, 2, 2, 5⟩ 3 2 5, .vsts ⟨0, 2, 1, 8⟩ 3 2 5, .vsts ⟨0, 2, 1, 5⟩ 32 2 5, .vsts ⟨0, 2, 1, 5⟩ 3 32 5, .vsts ⟨0, 2,
    1, 5⟩ 3 2 32, .vstx ⟨1, 2, 1, 5⟩ 3 2 5, .vstx ⟨0, 4, 1, 5⟩ 3 2 5, .vstx ⟨0, 2, 2, 5⟩ 3 2 5, .vstx ⟨0, 2, 1, 8⟩ 3
    2 5, .vstx ⟨0, 2, 1, 5⟩ 32 2 5, .vstx ⟨0, 2, 1, 5⟩ 3 32 5, .vstx ⟨0, 2, 1, 5⟩ 3 2 32, .vstr ⟨1, 2, 1, 5⟩ 3 2 4,
    .vstr ⟨0, 4, 1, 5⟩ 3 2 4, .vstr ⟨0, 2, 2, 5⟩ 3 2 4, .vstr ⟨0, 2, 1, 8⟩ 3 2 4, .vstr ⟨0, 2, 1, 5⟩ 32 2 4, .vstr
    ⟨0, 2, 1, 5⟩ 3 32 4, .vstr ⟨0, 2, 1, 5⟩ 3 2 8, .vamoadd ⟨1, 2, 1, 5⟩ 3 2 5, .vamoadd ⟨0, 4, 1, 5⟩ 3 2 5,
    .vamoadd ⟨0, 2, 2, 5⟩ 3 2 5, .vamoadd ⟨0, 2, 1, 8⟩ 3 2 5, .vamoadd ⟨0, 2, 1, 5⟩ 32 2 5, .vamoadd ⟨0, 2, 1, 5⟩ 3
    32 5, .vamoadd ⟨0, 2, 1, 5⟩ 3 2 32, .vamoor ⟨1, 2, 1, 5⟩ 3 2 5, .vamoor ⟨0, 4, 1, 5⟩ 3 2 5, .vamoor ⟨0, 2, 2, 5⟩
    3 2 5, .vamoor ⟨0, 2, 1, 8⟩ 3 2 5, .vamoor ⟨0, 2, 1, 5⟩ 32 2 5, .vamoor ⟨0, 2, 1, 5⟩ 3 32 5, .vamoor ⟨0, 2, 1,
    5⟩ 3 2 32, .vamoand ⟨1, 2, 1, 5⟩ 3 2 5, .vamoand ⟨0, 4, 1, 5⟩ 3 2 5, .vamoand ⟨0, 2, 2, 5⟩ 3 2 5, .vamoand ⟨0,
    2, 1, 8⟩ 3 2 5, .vamoand ⟨0, 2, 1, 5⟩ 32 2 5, .vamoand ⟨0, 2, 1, 5⟩ 3 32 5, .vamoand ⟨0, 2, 1, 5⟩ 3 2 32,
    .vamomin ⟨1, 2, 1, 5⟩ 3 2 5, .vamomin ⟨0, 4, 1, 5⟩ 3 2 5, .vamomin ⟨0, 2, 2, 5⟩ 3 2 5, .vamomin ⟨0, 2, 1, 8⟩ 3 2
    5, .vamomin ⟨0, 2, 1, 5⟩ 32 2 5, .vamomin ⟨0, 2, 1, 5⟩ 3 32 5, .vamomin ⟨0, 2, 1, 5⟩ 3 2 32, .vamomax ⟨1, 2, 1,
    5⟩ 3 2 5, .vamomax ⟨0, 4, 1, 5⟩ 3 2 5, .vamomax ⟨0, 2, 2, 5⟩ 3 2 5, .vamomax ⟨0, 2, 1, 8⟩ 3 2 5, .vamomax ⟨0, 2,
    1, 5⟩ 32 2 5, .vamomax ⟨0, 2, 1, 5⟩ 3 32 5, .vamomax ⟨0, 2, 1, 5⟩ 3 2 32, .vamoswap ⟨1, 2, 1, 5⟩ 3 2 5,
    .vamoswap ⟨0, 4, 1, 5⟩ 3 2 5, .vamoswap ⟨0, 2, 2, 5⟩ 3 2 5, .vamoswap ⟨0, 2, 1, 8⟩ 3 2 5] : List Instr).all (fun
    i => !i.wf) = true := by decide

set_option maxRecDepth 10000 in
theorem test_ill_formed_vmu_2 : ([.vamoswap ⟨0, 2, 1, 5⟩ 32 2 5, .vamoswap ⟨0, 2, 1, 5⟩ 3 32 5, .vamoswap ⟨0, 2, 1,
    5⟩ 3 2 32, .vamocas ⟨1, 2, 1, 5⟩ 3 2 5, .vamocas ⟨0, 4, 1, 5⟩ 3 2 5, .vamocas ⟨0, 2, 2, 5⟩ 3 2 5, .vamocas ⟨0,
    2, 1, 8⟩ 3 2 5, .vamocas ⟨0, 2, 1, 5⟩ 32 2 5, .vamocas ⟨0, 2, 1, 5⟩ 3 32 5, .vamocas ⟨0, 2, 1, 5⟩ 3 2 32,
    .stripBegin ⟨1, 2, 1, 0⟩ 2, .stripBegin ⟨0, 4, 1, 0⟩ 2, .stripBegin ⟨0, 2, 2, 0⟩ 2, .stripBegin ⟨0, 2, 1, 1⟩ 2,
    .stripBegin ⟨0, 2, 1, 0⟩ 32, .stripCommit ⟨1, 2, 1, 0⟩, .stripCommit ⟨0, 4, 1, 0⟩, .stripCommit ⟨0, 2, 2, 0⟩,
    .stripCommit ⟨0, 2, 1, 1⟩, .stripAbort ⟨1, 2, 1, 0⟩, .stripAbort ⟨0, 4, 1, 0⟩, .stripAbort ⟨0, 2, 2, 0⟩,
    .stripAbort ⟨0, 2, 1, 1⟩] : List Instr).all (fun i => !i.wf) = true := by decide

set_option maxRecDepth 10000 in
theorem test_ill_formed_matrix : ([.opa ⟨4, 5⟩ 2 2 5, .opa ⟨2, 8⟩ 2 2 5, .opa ⟨2, 5⟩ 4 2 5, .opa ⟨2, 5⟩ 2 32 5, .opa
    ⟨2, 5⟩ 2 2 32, .opas ⟨4, 5⟩ 2 2 5, .opas ⟨2, 8⟩ 2 2 5, .opas ⟨2, 5⟩ 4 2 5, .opas ⟨2, 5⟩ 2 32 5, .opas ⟨2, 5⟩ 2 2
    32, .tzero ⟨4, 5⟩ 2, .tzero ⟨2, 8⟩ 2, .tzero ⟨2, 5⟩ 4, .trd ⟨4, 5⟩ 2 2 5, .trd ⟨2, 8⟩ 2 2 5, .trd ⟨2, 5⟩ 4 2 5,
    .trd ⟨2, 5⟩ 2 32 5, .trd ⟨2, 5⟩ 2 2 32, .twr ⟨4, 5⟩ 2 2 5, .twr ⟨2, 8⟩ 2 2 5, .twr ⟨2, 5⟩ 4 2 5, .twr ⟨2, 5⟩ 2
    32 5, .twr ⟨2, 5⟩ 2 2 32, .tshift ⟨4, 5⟩ 2 4, .tshift ⟨2, 8⟩ 2 4, .tshift ⟨2, 5⟩ 4 4, .tshift ⟨2, 5⟩ 2 1024,
    .tmerge ⟨4, 5⟩ 2 2, .tmerge ⟨2, 8⟩ 2 2, .tmerge ⟨2, 5⟩ 4 2, .tmerge ⟨2, 5⟩ 2 32, .tmergeAtt ⟨4, 5⟩ 2 2,
    .tmergeAtt ⟨2, 8⟩ 2 2, .tmergeAtt ⟨2, 5⟩ 4 2, .tmergeAtt ⟨2, 5⟩ 2 32, .tflags ⟨4, 0⟩ 2, .tflags ⟨2, 1⟩ 2,
    .tflags ⟨2, 0⟩ 4, .talloc ⟨4, 0⟩ 2, .talloc ⟨2, 1⟩ 2, .talloc ⟨2, 0⟩ 4, .tfree ⟨4, 0⟩ 2, .tfree ⟨2, 1⟩ 2, .tfree
    ⟨2, 0⟩ 4] : List Instr).all (fun i => !i.wf) = true := by decide

set_option maxRecDepth 10000 in
theorem test_ill_formed_streams : ([.sld 2 8 3 2 5, .sld 2 6 32 2 5, .sld 2 6 3 32 5, .sld 2 6 3 2 32, .sld 4 6 3 2
    5, .sst 2 8 3 2 5, .sst 2 6 32 2 5, .sst 2 6 3 32 5, .sst 2 6 3 2 32, .sst 4 6 3 2 5, .scpy 2 8 3 2 5, .scpy 2 6
    32 2 5, .scpy 2 6 3 32 5, .scpy 2 6 3 2 32, .scpy 4 6 3 2 5, .spln 2 8 3 2 5, .spln 2 6 32 2 5, .spln 2 6 3 32
    5, .spln 2 6 3 2 32, .spln 4 6 3 2 5, .sldG 2 8 3 2 5, .sldG 2 6 32 2 5, .sldG 2 6 3 32 5, .sldG 2 6 3 2 32,
    .sldG 4 6 3 2 5, .sind 2 8 3 2 5, .sind 2 6 32 2 5, .sind 2 6 3 32 5, .sind 2 6 3 2 32, .sind 4 6 3 2 5, .spat 2
    8 3 2, .spat 2 6 32 2, .spat 2 6 3 32, .spat 4 6 3 2, .sbind 2 8 3 2 5, .sbind 2 6 32 2 5, .sbind 2 6 3 32 5,
    .sbind 2 6 3 2 32, .sbind 4 6 3 2 5, .sunbind 2 8, .sunbind 4 6, .ssend 2 8 3 2 5, .ssend 2 6 32 2 5, .ssend 2 6
    3 32 5, .ssend 2 6 3 2 32, .ssend 4 6 3 2 5, .swait 8 5, .swait 6 32, .savail 8 3, .savail 6 32, .sstat 8 3 5,
    .sstat 6 32 5, .sstat 6 3 32] : List Instr).all (fun i => !i.wf) = true := by decide

set_option maxRecDepth 10000 in
theorem test_ill_formed_events_1 : ([.illegalEncoding 4294967296, .queueEntryFree 8192 1, .queueEntryFree 1 3,
    .convoyStart 8192, .elementGroup 2048, .starvationGrant 2048 1, .starvationGrant 1 8192, .redeal 8192,
    .groupRefill 8192, .parking 8192, .gangJoinRetry 8192, .takeEngineFault 8192, .takeInterrupt 8192, .preempt
    8192, .waitwWake 8192, .tkpopWake 8192, .swaitWake 8192, .tileGrant 2048 1, .tileGrant 1 4, .streamBurst 8192 1,
    .streamBurst 1 8, .sldGMulticast 64 1 1, .sldGMulticast 1 8 1, .sldGMulticast 1 1 256, .ssendBurstArrival 8192
    1, .ssendBurstArrival 1 8, .expanderBlock 8192, .xdecWriteStep 8192, .admitHeldWrite 8 1, .admitHeldWrite 1 2,
    .recompress 8 1, .recompress 1 2, .migrate 8 1, .migrate 1 2, .balloon 8 1, .balloon 1 2, .weirboundExpiry 8 1,
    .woosrecRead 8 1, .woosrecRead 1 32, .replay 8 1, .cancel 8 1, .discard 8 1, .setnone 8 1, .setlossless 8 1,
    .weirRecall 8 1, .wcmdInvalid 8, .weirCommandDone 8, .poolEnable 8 1, .poolEnable 1 2, .svhSet 8192,
    .tsliceWrite 8192 1, .tkrouteWrite 8192 1, .flush 8192, .drop 8192, .uncorrectableError 1 8 1 1,
    .uncorrectableError 1 1 1 (2 ^ 21), .correctableError 1 8 1, .governorEvaluation 8 1, .governorEvaluation 1 36,
    .operatingPointStep 8 1, .operatingPointStep 1 36, .request 32 1 1, .grant 32 1 1 1, .thermalWarning 8 1 1,
    .thermalWarning 1 36 1, .thermalCapDown 8 1, .thermalCapDown 1 36, .thermalCapUp 8 1, .thermalCapUp 1 36,
    .emergencySave 8 1 1, .emergencySave 1 36 1, .stationWake 8, .laneGroupGate 2048 1, .laneGroupGate 1 64,
    .droopWithdraw 8 1, .droopWithdraw 1 36, .droopRestore 8 1, .droopRestore 1 36, .stationCacheWriteback 8 1 1,
    .stationCacheWriteback 1 36 1, .stationCacheFill 8 1 1, .stationCacheFill 1 36 1, .inboundMemoryRequest 65536 1
    1 1 1, .inboundMemoryRequest 1 2 1 1 1, .inboundAtomicop 65536, .outboundCompletion (2 ^ 72),
    .outboundTimeout (2 ^ 72), .towpathRetryFailure 8 1 1, .towpathRetryFailure 1 2 1, .towpathRetryFailure 1 1 32, .towpathLinkUp 8 1 1,
    .towpathLinkUp 1 2 1, .towpathLinkUp 1 1 65536, .draborPortState 32 1 1, .draborPortState 1 3 1, .fpost 8 1,
    .fabricTransferArrival 8 1 1 1 1 1, .stationDrained 8 1, .stationDrained 1 36, .marchElement 8 1 1] : List
    Instr).all (fun i => !i.wf) = true := by decide

set_option maxRecDepth 10000 in
theorem test_ill_formed_events_2 : ([.marchElement 1 148 1, .marchFinish 8 1 1, .marchFinish 1 148 1, .glearnClear 8
    1, .glearnClear 1 36, .arm 8, .vframeRestoreGrant 8192, .fetchFault 8192, .thermalWarningClear 8 1,
    .thermalWarningClear 1 36] : List Instr).all (fun i => !i.wf) = true := by decide

/-- A release or acquire names a scope (R43). -/
theorem test_ill_formed_scope : ([.vlda ⟨1, 2, 1, 5⟩ 3 2 0, .vstr ⟨1, 2, 1, 5⟩ 3 2 0] : List Instr).all (fun i => !i.wf) = true := by
  decide

end Sys2Proof

namespace Sys2Proof.Machine

/-! ### States of the tests -/

/-- The hart that START creates, in supervisor mode with IE 0, and the same one in user mode. -/
def supHart : Hart := State.reset.bootHart
def userHart : Hart := { supHart with status := 0x1F00 }

/-- `h` with A, B and D in g1, g2 and g3; with A and B in f1 and f2. -/
def withG (h : Hart) (A B D : W64) : Hart := { h with g := ((h.g.set 1 A).set 2 B).set 3 D }
def withF (h : Hart) (A B : W32) : Hart := { h with f := (h.f.set 1 A).set 2 B }

/-- The translation that maps the lowest 512 MiB to itself, with every right: cached, at home, or device class. -/
def identity (pte : Nat) : TlbEntry := { unit := .die 0, ctx := 0, size := 29, page := 0, pte := w64 pte, base := 0 }
def cachedPte : Nat := 0x9F
def homePte : Nat := 0x209F
def xl (pte a : Nat) : Xlat := { pte := pte, pa := a, size := 29 }

/-- The machine with the one hart `h`, and a TLB that holds `identity`. -/
def one (pte : Nat) (h : Hart) : State :=
  { State.reset with harts := [(0, h)], tlb := [identity pte], ctxs := [(0, { live := true, gen := 1, slice := 0, energy := 0, frac := 0 })] }

theorem runs_one (pte : Nat) (h : Hart) : Runs (one pte h) h := rfl

theorem plain_of {pa d p : Nat} (h : regionOf pa = .pool d p) : ∀ q o, regionOf pa ≠ .dev q o := by simp [h]

/-- What `Access` asks for, where the rest is one evaluation. -/
theorem access_of {s : State} {h : Hart} {va n : Nat} {k : AKind} {x : Xlat} {d p : Nat} (hr : regionOf x.pa = .pool d p)
    (hd : pathOf x ≠ .device)
    (e : (h.accessWaits va n (k != .r) = false ∧ s.walkAway (h.who s.cur) va n = false ∧ s.probe1 (h.who s.cur) (Acc1.mk 0 va n k n) = none ∧
      s.translate (h.who s.cur) va = some x) ∧ s.cutOff s.cur x.pa = false ∧ x.pa % 64 + n ≤ 64 ∧
      (s.frameInfo (x.pa / 65536)).slot = none ∧ (s.stn (stnOf s.cur)).full (x.pa / 64) = false) : Access s h va n k x :=
  ⟨e.1.1, e.1.2.1, e.1.2.2.1, e.1.2.2.2, fun c => absurd c hd, e.2.1, plain_of hr, e.2.2.1, e.2.2.2.1, fun _ => e.2.2.2.2⟩

/-- The same in the host region, through the translation of `oneAt`. -/
theorem access_host {s : State} {h : Hart} {va n : Nat} {k : AKind} {x : Xlat} (hr : regionOf x.pa = .host)
    (e : (h.accessWaits va n (k != .r) = false ∧ s.walkAway (h.who s.cur) va n = false ∧ s.probe1 (h.who s.cur) (Acc1.mk 0 va n k n) = none ∧
      s.translate (h.who s.cur) va = some x) ∧ h.deviceWaits = false ∧ s.cutOff s.cur x.pa = false ∧ x.pa % 64 + n ≤ 64 ∧
      (s.frameInfo (x.pa / 65536)).slot = none ∧ (s.stn (stnOf s.cur)).full (x.pa / 64) = false) : Access s h va n k x :=
  ⟨e.1.1, e.1.2.1, e.1.2.2.1, e.1.2.2.2, fun _ => e.2.1, e.2.2.1, fun d o c => by simp [hr] at c, e.2.2.2.1, e.2.2.2.2.1,
    fun _ => e.2.2.2.2.2⟩

/-! ### Witnesses: a state and operands that meet the hypotheses of each statement, clause by clause -/

/-- Any values stand in the registers that the operands name. -/
theorem witness_registers (pte : Nat) (h : Hart) (A B D : W64) : Runs (one pte (withG h A B D)) (withG h A B D) ∧
    (withG h A B D).rg 1 = A ∧ (withG h A B D).rg 2 = B ∧ (withG h A B D).rg 3 = D ∧ (withG h A B D).pcOk = h.pcOk := by
  refine ⟨rfl, ?_, ?_, ?_, rfl⟩ <;> simp [withG, Hart.rg, vat]
theorem witness_fregisters (pte : Nat) (h : Hart) (A B : W32) : Runs (one pte (withF h A B)) (withF h A B) ∧
    (withF h A B).rf 1 = A ∧ (withF h A B).rf 2 = B := by
  refine ⟨rfl, ?_, ?_⟩ <;> simp [withF, Hart.rf, vat]

theorem witness_ScalarIntegerOperations :
    (let h := withG supHart 5 0 0
     Runs (one cachedPte h) h ∧ h.rg 2 = 0 ∧ 0 < (h.rg 1).toInt ∧ 31 < 32 ∧ 65535 < 65536 ∧ 63 < 64) ∧
    (let h := withG supHart 0x8000000000000000 0xFFFFFFFFFFFFFFFF 0
     Runs (one cachedPte h) h ∧ (h.rg 1).toInt = -(2 ^ 63) ∧ (h.rg 2).toInt = -1) ∧
    (let h := withG supHart 0x8000000000000000 3 0
     Runs (one cachedPte h) h ∧ h.rg 2 ≠ 0 ∧ ¬ ((h.rg 1).toInt = -(2 ^ 63) ∧ (h.rg 2).toInt = -1)) := by
  refine ⟨⟨rfl, ?_⟩, ⟨rfl, ?_⟩, ⟨rfl, ?_⟩⟩ <;> decide

theorem witness_ControlTransfer : Runs (one cachedPte supHart) supHart ∧ supHart.pcOk = true ∧ (31 : Nat) < 32 ∧
    65535 < 65536 ∧ 2 ^ 26 - 1 < 2 ^ 26 := by
  refine ⟨rfl, ?_⟩; decide

/-- One pair of operands for each case of R159; `witness_fregisters` puts them in f1 and f2. -/
theorem witness_FloatSpecialOperands :
    (isNan32 0x7F800001 ∧ isSNan32 0x7F800001) ∧ (isNan32 0x7FC00000 ∧ ¬ isSNan32 0x7FC00000) ∧ (isInf32 0xFF800000 ∧ isInf32 0x7F800000) ∧
    (isInf32 0x7F800000 ∧ isFin32 0x80000000 ∧ isZero32 0x80000000) ∧ (isInf32 0x7F800000 ∧ isFin32 1 ∧ ¬ isZero32 1) ∧
    (isFin32 0x7F7FFFFF ∧ isInf32 0xFF800000 ∧ ¬ isZero32 0x7F7FFFFF) ∧ (isFin32 0 ∧ isInf32 0xFF800000 ∧ isZero32 0) ∧
    (isFin32 0x3F800000 ∧ isZero32 0x80000000 ∧ ¬ isZero32 0x3F800000) ∧ (isInf32 0x7F800000 ∧ ¬ isNeg32 0x7F800000) ∧
    (isNeg32 0x80000001 ∧ ¬ isNan32 0x80000001 ∧ ¬ isZero32 0x80000001) ∧ (4 : Nat) < 5 ∧ 15 < 16 := by
  decide

theorem witness_FloatFiniteArithmetic :
    let h := withF supHart 0x7F7FFFFF 0x00000001
    Runs (one cachedPte h) h ∧ 1 < 16 ∧ 2 < 16 ∧ 4 < 5 ∧ isFin32 (h.rf 1) ∧ isFin32 (h.rf 2) ∧ ¬ isZero32 (h.rf 2) ∧
      ¬ isNeg32 (h.rf 1) ∧ ¬ isZero32 (h.rf 1) := by
  refine ⟨rfl, ?_⟩; decide

theorem witness_FloatCompare :
    (isNan32 0x7F800001 ∧ isNan32 0xFFC00000) ∧ (isNan32 0x7FC00000 ∧ ¬ isNan32 0x7F800000) ∧ (¬ isNan32 0x80000000 ∧ ¬ isNan32 0) := by
  decide

theorem witness_FloatConversions :
    isNan32 0x7FC00000 ∧ isInf32 0xFF800000 ∧ isFin32 0xDF000001 ∧ isFin32 0x5F000000 := by
  decide

theorem witness_ScalarLoads :
    let h := withG supHart 0x5FFF8 0 0
    Runs (one cachedPte h) h ∧ Access (one cachedPte h) h (h.rg 1 + imm16 7).toNat 1 .r (xl cachedPte 0x5FFFF) ∧
      Access (one cachedPte h) h (h.rg 1 + imm16 6).toNat 2 .r (xl cachedPte 0x5FFFE) ∧
      Access (one cachedPte h) h (h.rg 1 + imm16 4).toNat 4 .r (xl cachedPte 0x5FFFC) ∧
      Access (one cachedPte h) h (h.rg 1 + imm16 0).toNat 8 .r (xl cachedPte 0x5FFF8) := by
  refine ⟨rfl, access_of (d := 0) (p := 0) ?_ ?_ ?_, access_of (d := 0) (p := 0) ?_ ?_ ?_,
    access_of (d := 0) (p := 0) ?_ ?_ ?_, access_of (d := 0) (p := 0) ?_ ?_ ?_⟩ <;> decide

theorem witness_ScalarStores :
    (let h := withG supHart 0x5FFF8 0 0x1122334455667788
     Runs (one cachedPte h) h ∧ (one cachedPte h).memOk = true ∧
      Access (one cachedPte h) h (h.rg 1 + imm16 7).toNat 1 .w (xl cachedPte 0x5FFFF) ∧
      Access (one cachedPte h) h (h.rg 1 + imm16 6).toNat 2 .w (xl cachedPte 0x5FFFE) ∧
      Access (one cachedPte h) h (h.rg 1 + imm16 4).toNat 4 .w (xl cachedPte 0x5FFFC) ∧
      Access (one cachedPte h) h (h.rg 1 + imm16 0).toNat 8 .w (xl cachedPte 0x5FFF8) ∧ pathOf (xl cachedPte 0x5FFF8) = .cached) ∧
    (let h := withG supHart 0x5FFF8 0 0x1122334455667788
     Runs (one homePte h) h ∧ Access (one homePte h) h (h.rg 1 + imm16 0).toNat 8 .w (xl homePte 0x5FFF8) ∧
      Admitted (one homePte h) (xl homePte 0x5FFF8) 8 (h.rg 3).toNat) := by
  refine ⟨⟨rfl, by decide, access_of (d := 0) (p := 0) ?_ ?_ ?_, access_of (d := 0) (p := 0) ?_ ?_ ?_,
    access_of (d := 0) (p := 0) ?_ ?_ ?_, access_of (d := 0) (p := 0) ?_ ?_ ?_, by decide⟩,
    rfl, access_of (d := 0) (p := 0) ?_ ?_ ?_, ?_⟩ <;> first | decide | (show Option.isSome _ = true; decide)

/-- Room in a station cache that is empty. -/
theorem room_of {s : State} {xl : Nat → Xlat} {P : Nat → Prop} (l : List Nat) (hs : s.stn (stnOf s.cur) = Station.reset)
    (hl : l.length ≤ 2048) (hP : ∀ a, P a → (xl a).pa / 64 ∈ l) : RoomFor s xl P := by
  refine ⟨by rw [hs]; exact List.Pairwise.nil, l, fun a h _ => hP a h, fun k _ => ?_⟩
  have := List.length_filter_le (fun x => x % 16 == k) l
  have h0 : (Station.reset.sliceDirty k).length + (Station.reset.sliceClean k).length = 0 := rfl
  simp only [hs]
  omega

/-- The machine with the one hart `h`, and a TLB that maps the lowest 512 MiB to `base`. -/
def oneAt (pte base : Nat) (h : Hart) : State := { one pte h with tlb := [{ identity pte with base := base }] }

/-- An address that is not mapped, one that is misaligned for 8 bytes, a device register and the host region. -/
theorem witness_FailedProbesTrap :
    (let h := withG userHart 0x20000000 0 0
     let s := one cachedPte h
     Runs s h ∧ h.MayTrap ∧ ∀ n ∈ [1, 2, 4, 8], ∀ p ∈ [(AKind.r, Cause.pgfltR), (.w, .pgfltW), (.rw, .pgfltR)],
       h.accessWaits 0x20000000 n (p.1 != .r) = false ∧ s.walkAway (h.who s.cur) 0x20000000 n = false ∧
       s.probe1 (h.who s.cur) { e := 0, va := 0x20000000, n := n, k := p.1, al := n } = some (p.2, 0x20000000)) ∧
    (let h := withG userHart 0x50007 0 0
     let s := one cachedPte h
     Runs s h ∧ h.MayTrap ∧ 0x50007 % 8 ≠ 0) ∧
    ∀ p ∈ [(devBase 0, Region.dev 0 0x50), (hostBase, .host)],
     let h := withG userHart 0x50 0 0
     let s := oneAt homePte p.1 h
     let x : Xlat := { pte := homePte, pa := p.1 + 0x50, size := 29 }
     Runs s h ∧ h.MayTrap ∧ h.accessWaits (h.rg 1).toNat 8 true = false ∧ s.walkAway (h.who s.cur) (h.rg 1).toNat 8 = false ∧
       s.probe1 (h.who s.cur) { e := 0, va := (h.rg 1).toNat, n := 8, k := .rw, al := 8 } = none ∧
       s.translate (h.who s.cur) (h.rg 1).toNat = some x ∧ h.deviceWaits = false ∧ s.cutOff s.cur x.pa = false ∧
       h.stripAt (h.rg 1).toNat = none ∧ regionOf x.pa = p.2 := by
  refine ⟨⟨rfl, .inl (by decide), by decide⟩, ⟨rfl, .inl (by decide), by decide⟩, ?_⟩
  simp only [List.mem_cons, List.not_mem_nil, or_false, forall_eq_or_imp, forall_eq]
  refine ⟨⟨rfl, .inl (by decide), ?_⟩, rfl, .inl (by decide), ?_⟩ <;> decide

theorem witness_ScalarAtomics :
    let h := withG supHart 0x5FFF8 7 0
    ∀ p ∈ [(cachedPte, true), (homePte, false)],
      let s := one p.1 h
      let x := xl p.1 0x5FFF8
      Runs s h ∧ s.memOk = true ∧ Access s h (h.rg 1).toNat 8 .rw x ∧ h.stripAt (h.rg 1).toNat = none ∧
        regionOf x.pa ≠ .host ∧ s.lossless (x.pa / 65536) = false ∧
        (decide (pathOf x = .cached) && decide (3 < 4)) = p.2 ∧
        ∀ j, j < 8 → find? (s.stn (stnOf s.cur)).dirty (x.pa + j) = none := by
  simp only [List.mem_cons, List.not_mem_nil, or_false, forall_eq_or_imp, forall_eq]
  refine ⟨⟨rfl, by decide, access_of (d := 0) (p := 0) ?_ ?_ ?_, ?_⟩, rfl, by decide,
    access_of (d := 0) (p := 0) ?_ ?_ ?_, ?_⟩ <;> decide

/-- The same in the host region, where AMOADD, AMOSWAP and AMOCAS act on host memory. -/
theorem witness_ScalarAtomics_host :
    let h := withG supHart 0x50 7 0
    let s := oneAt homePte hostBase h
    let x : Xlat := { pte := homePte, pa := hostBase + 0x50, size := 29 }
    Runs s h ∧ s.memOk = true ∧ Access s h (h.rg 1).toNat 8 .rw x ∧ h.stripAt (h.rg 1).toNat = none ∧
      regionOf x.pa = .host ∧ s.lossless (x.pa / 65536) = false ∧
      ∀ j, j < 8 → find? (s.stn (stnOf s.cur)).dirty (x.pa + j) = none := by
  refine ⟨rfl, by decide, access_host ?_ ?_, ?_⟩ <;> decide

theorem witness_AcquireLoadReleaseStore :
    let h := withG supHart 0x5FFF8 7 0
    let s := one cachedPte h
    let x := xl cachedPte 0x5FFF8
    Runs s h ∧ s.memOk = true ∧ h.stripAt (h.rg 1).toNat = none ∧ Access s h (h.rg 1).toNat 8 .r x ∧
      Access s h (h.rg 1).toNat 8 .w x ∧ (∀ j, j < 8 → find? (s.stn (stnOf s.cur)).dirty (x.pa + j) = none) ∧
      h.memPending = false ∧ s.posted s.cur = false ∧ (s.stn (stnOf s.cur)).dirty = [] ∧ pathOf x = .cached ∧
      Admitted s x 8 (h.rg 2).toNat := by
  refine ⟨rfl, by decide, by decide, access_of (d := 0) (p := 0) ?_ ?_ ?_, access_of (d := 0) (p := 0) ?_ ?_ ?_, ?_,
    ?_, ?_, ?_, ?_, ?_⟩ <;> first | decide | (show Option.isSome _ = true; decide)

/-- The hart with a plain vector word or a stride access in its vector queue, or a tile word in its matrix queue. -/
def plainHdr : VHdr := { av := 0, tk := 0, c := 0, msk := 0 }
def queued (i : Instr) (h : Hart) : Hart :=
  { h with vq := h.vq ++ [{ e := h.newEntry h.vq.length i 0 (fieldA i) (fieldB i) 0, redeal := none }] }
/-- The machine of `one` whose station 0 holds two dirty bytes. -/
def dirtied (h : Hart) : State :=
  let s := one cachedPte h
  s.setStn 0 { s.stn 0 with dirty := [(0x50000, 0x11), (0x5FFFF, 0x22)] }

/-- STR with two dirty bytes of plain frames in the station, and with a store of the VMU pending. -/
theorem witness_AcquireLoadReleaseStore_dirty :
    (let h := withG supHart 0x5FFF8 7 0
     let s := dirtied h
     let x := xl cachedPte 0x5FFF8
     Runs s h ∧ s.memOk = true ∧ h.stripAt (h.rg 1).toNat = none ∧ Access s h (h.rg 1).toNat 8 .w x ∧ h.memPending = false ∧
       s.posted s.cur = false ∧ Admitted s x 8 (h.rg 2).toNat ∧ ((s.stn 0).dirty.map Prod.fst).Nodup ∧
       ∀ c ∈ (s.stn 0).dirty, s.PlainFrame (c.1 / 65536) ∧ s.reaches (0 / 64) (homeDie c.1) = true) ∧
    (let h := queued (.vst plainHdr 0 1) (withG supHart 0x5FFF8 7 0)
     let s := one cachedPte h
     Runs s h ∧ h.stripAt (h.rg 1).toNat = none ∧ Access s h (h.rg 1).toNat 8 .w (xl cachedPte 0x5FFF8) ∧ h.memPending = true) := by
  refine ⟨⟨rfl, by decide, by decide, access_of (d := 0) (p := 0) ?_ ?_ ?_, ?_, ?_, ?_, ?_, ?_⟩, rfl, by decide,
    access_of (d := 0) (p := 0) ?_ ?_ ?_, ?_⟩ <;>
    first | decide | (show Option.isSome _ = true; decide) | (unfold State.PlainFrame; decide)

theorem witness_FenceWritesBackAndDrops :
    (let h := supHart
     let s := dirtied h
     Runs s h ∧ s.memOk = true ∧ h.memPending = false ∧ h.storesPending = false ∧ s.posted s.cur = false ∧
       ((s.stn 0).dirty.map Prod.fst).Nodup ∧
       ∀ c ∈ (s.stn 0).dirty, s.PlainFrame (c.1 / 65536) ∧ s.reaches (0 / 64) (homeDie c.1) = true) ∧
    (let h := queued (.vst plainHdr 0 1) supHart
     Runs (one cachedPte h) h ∧ h.storesPending = true ∧ h.memPending = true) := by
  refine ⟨⟨rfl, ?_⟩, rfl, ?_⟩
  · unfold State.PlainFrame; decide
  · decide

/-- Two harts of a context on one core, of which the second has arrived at a barrier of scope .core, or neither has. -/
def pair (p q : Hart) : State := { one cachedPte p with harts := [(0, p), (1, q)] }

theorem witness_BarrierCompletes :
    let h := supHart
    let key := 2 ^ 32
    let arrived : State := { pair h userHart with barriers := [(key, { gen := 4, arrived := [.hart 1] })] }
    let early := { h with bar := [(key, 3)] }
    (Runs (one cachedPte h) h ∧ h.memPending = false ∧ ((one cachedPte h).stn 0).dirty = [] ∧
      barKey 0 h 1 = none ∧ barKey 0 h 4 = none ∧ barKey 0 h 2 = some key) ∧
    (Runs arrived h ∧ find? h.bar key = none ∧ arrived.barGen 0 key = (arrived.barrier key).gen ∧
      .hart 0 ∈ arrived.barPeople key ∧ arrived.barForming key = false ∧
      ∀ w ∈ arrived.barPeople key, w = .hart 0 ∨ w ∈ (arrived.barrier key).arrived) ∧
    (Runs (pair h userHart) h ∧ .hart 0 ∈ (pair h userHart).barPeople key ∧
      (pair h userHart).barGen 0 key = ((pair h userHart).barrier key).gen ∧
      ∃ w ∈ (pair h userHart).barPeople key, w ≠ .hart 0 ∧ w ∉ ((pair h userHart).barrier key).arrived) ∧
    (let s : State := { pair early userHart with barriers := [(key, { gen := 4, arrived := [] })] }
     Runs s early ∧ find? early.bar key = some 3 ∧ 3 < (s.barrier key).gen) ∧
    -- the same waiting at the BAR, back at it after RET.T, and at another BAR
    (let w := { early with wait := some .bar }
     let b := { early with barPc := some (early.pc, early.sup) }
     (find? w.bar key = some 3 ∧ w.wait = some .bar) ∧ (find? b.bar key = some 3 ∧ b.barPc = some (b.pc, b.sup)) ∧
       ¬ (early.wait = some .bar ∨ early.barPc = some (early.pc, early.sup))) := by
  refine ⟨⟨rfl, ?_⟩, ⟨rfl, ?_⟩, ⟨rfl, ?_⟩, ⟨rfl, ?_⟩, ?_⟩ <;> decide

theorem witness_WaitForWord :
    (let h := withG supHart 0x5FFF8 7 0
     let s := one cachedPte h
     Runs s h ∧ Access s h (h.rg 1).toNat 8 .r (xl cachedPte 0x5FFF8) ∧ h.stripAt (h.rg 1).toNat = none ∧
       (∀ j, j < 8 → find? (s.stn (stnOf s.cur)).dirty (0x5FFF8 + j) = none) ∧ regionOf 0x5FFF8 ≠ .host ∧
       BitVec.ofNat 64 (littleEndian 8 fun j => loadByte s h 0x5FFF8 (xl cachedPte 0x5FFF8) j) ≠ h.rg 2 ∧
       BitVec.ofNat 64 (littleEndian 8 fun j => Memory.read s.mem (0x5FFF8 + j)) = h.rg 3) ∧
    (let h := withG userHart 0x50 0 0
     let s := oneAt homePte hostBase h
     let x : Xlat := { pte := homePte, pa := hostBase + 0x50, size := 29 }
     Runs s h ∧ h.MayTrap ∧ regionOf x.pa = .host ∧ Access s h (h.rg 1).toNat 8 .r x) := by
  refine ⟨⟨rfl, access_of (d := 0) (p := 0) ?_ ?_ ?_, ?_⟩, rfl, .inl ?_, ?_, access_host ?_ ?_⟩ <;> decide

theorem witness_TokensYieldPrio :
    let h := withG userHart 0 1 6
    (Runs (one cachedPte h) h ∧ (h.rg 1).toNat % 4 = 0 ∧ (h.rg 2).toNat % 4 ≠ 0 ∧
      h.tokens (fifo engScalar 1) + h.reservedIn (fifo engScalar 1) < 15 ∧ h.tokens (fifo 1 engScalar) = 0) ∧
    (let q := { h with tok := Vector.replicate 16 15 }
     Runs (one cachedPte q) q ∧ q.MayTrap ∧ q.tokens (fifo engScalar 1) + q.reservedIn (fifo engScalar 1) = 15 ∧
       1 ≤ q.tokens (fifo 1 engScalar)) ∧
    (h.sup = false ∧ (h.rg 3).toNat % 8 ≤ h.prio ∧ ¬ (7 ≤ ({ h with prio := 6 } : Hart).prio)) := by
  refine ⟨⟨rfl, ?_⟩, ⟨rfl, .inl ?_, ?_⟩, ?_⟩ <;> decide

/-- A block at 0x50000 for SPAWN: two arguments, a spill address, and a reserved word `r`. -/
def spawnState (h : Hart) (r : Nat) (up : Nat) : State :=
  let s := (one cachedPte h).writeMem (cellsAt 0x50000 8 5 ++ cellsAt 0x50008 8 6 ++ cellsAt 0x50010 8 0x70000 ++ cellsAt 0x50018 8 r)
  if up = 0 then s else s.setStn 0 { s.stn 0 with state := up }

theorem witness_SpawnCreatesHart :
    (∀ p ∈ [(userHart, 0), (userHart, 1), (supHart, 0)], ∀ st ∈ [0, 1],
      let h := withG p.1 0 0x50000 0x60000
      let s := spawnState h p.2 st
      let xs := fun n => xl cachedPte (0x50000 + 8 * n)
      Runs s h ∧ h.accessWaits 0x50000 32 false = false ∧ h.memPending = false ∧ 0x50000 % 8 = 0 ∧
        (s.stn (stnOf s.cur)).dirty = [] ∧ s.walkAway (h.who s.cur) 0x50000 32 = false ∧
       s.probe1 (h.who s.cur) { e := 0, va := 0x50000, n := 32, k := .r, al := 8 } = none ∧
        (∀ n, n < 4 → s.translate (h.who s.cur) (0x50000 + 8 * n) = some (xs n) ∧
          regionOf (xs n).pa = .pool 0 0 ∧ (s.frameInfo ((xs n).pa / 65536)).slot = none ∧ (xs n).pa % 8 = 0) ∧
        littleEndian 8 (loadByte s h (0x50000 + 8 * 3) (xs 3)) = p.2 ∧
        littleEndian 8 (loadByte s h (0x50000 + 8 * 2) (xs 2)) % 65536 = 0 ∧ (s.stn 0).state = st ∧
        (s.hart? 1).isSome = false) ∧
    (∀ h, RoomFor (spawnState h 0 0) (fun p => xl cachedPte (0x50000 + 8 * ((p - 0x50000) / 8))) (Bytes 0x50000 32)) ∧
    (let h := withG userHart 0x400000 0x50000 0
     h.sup = false ∧ (h.rg 1).toNat.testBit 22 = true) ∧
    (let h := withG userHart 0x240 0x50000 0
     (h.rg 1).toNat.testBit 22 = false ∧ 36 ≤ (h.rg 1).toNat / 16 % 64) ∧
    (let s : State := { one cachedPte userHart with harts := [0, 1, 2, 3].map fun i => (i, userHart) }
     ∀ j, j / 4 = 0 → (s.hart? j).isSome = true) := by
  refine ⟨by unfold Runs; decide, fun h => room_of [0x50000 / 64] rfl (by decide) fun a ha => ?_, by decide, by decide, fun j hj => ?_⟩
  · obtain ⟨h1, h2⟩ := ha
    show (0x50000 + 8 * ((a - 0x50000) / 8)) / 64 ∈ [0x50000 / 64]
    rw [List.mem_singleton]
    omega
  have : j < 4 := by omega
  interval_cases j <;> decide

theorem witness_HaltFreesHart :
    (Runs (one cachedPte supHart) supHart ∧ supHart.idleQueues = true ∧ supHart.memPending = false ∧ supHart.held = none ∧
      ((one cachedPte supHart).stn 0).dirty = [] ∧ (one cachedPte supHart).posted 0 = false) ∧
    (let h := queued (.vst plainHdr 0 1) supHart
     Runs (one cachedPte h) h ∧ h.idleQueues = false) ∧
    (let h := { supHart with gang := some (gangKey 0 0 5, 0) }
     Runs (one cachedPte h) h ∧ h.gang = some (gangKey 0 0 5, 0) ∧ h.idleQueues = true) ∧
    (∀ l ∈ [[], [Who.hart 1]],
      let key := 2 ^ 32 + 0 * 2 ^ 16 + coreOf 0
      let s : State := { pair supHart userHart with barriers := [(key, { gen := 5, arrived := l })] }
      let rest := (s.barPeople key).filter fun w => w != .hart s.cur
      Runs s supHart ∧ supHart.ctx < 64 ∧ s.cur < 8192 ∧ rest = [.hart 1] ∧ (s.barrier key).arrived = l) := by
  refine ⟨⟨rfl, ?_⟩, ⟨rfl, ?_⟩, ⟨rfl, ?_⟩, fun l hl => ⟨rfl, Nat.zero_lt_succ 63, Nat.zero_lt_succ 8191, rfl, rfl⟩⟩ <;> decide

set_option maxRecDepth 100000 in
/-- gA names gang 5; gB asks for one group and one member. -/
theorem witness_GangMembership :
    (let h := withG userHart 5 0x10001 0
     let s := one cachedPte h
     Runs s h ∧ h.regsBusy = false ∧ s.joinBad s.cur h 5 1 1 = false ∧ h.bindingOpen = false ∧ h.gang = none ∧ h.MayTrap ∧
       ∃ hg, ((s.joinGang s.cur h 5 1 1).yardGrant s.cur 1).1.hart? s.cur = some hg ∧ hg.heldGroups.length = 1 ∧
         hg.groups.length = 1) ∧
    (let h := withG userHart 5 0x10000 0
     Runs (one cachedPte h) h ∧ h.regsBusy = false ∧ ¬ (1 ≤ (h.rg 2).toNat % 128) ∧ h.MayTrap) ∧
    (let k := gangKey 0 0 5
     let g : Gang := { gg := 1, nexp := 2, forming := false, members := [{ idx := 0, who := .hart 1, from_ := 0, mcast := 0 }] }
     let h := withG userHart 5 0x10001 0
     let s : State := { one cachedPte h with gangs := [(k, g)] }
     Runs s h ∧ s.gang? k = some g ∧ g.nexp ≠ (h.rg 2).toNat / 2 ^ 16 % 1024) ∧
    (let h := { withG userHart 5 0x10040 0 with prio := 6 }
     let s := pair h { userHart with deficit := 1 }
     Runs s h ∧ s.joinBad s.cur h 5 64 1 = false ∧
       ∃ hg, ((s.joinGang s.cur h 5 64 1).yardGrant s.cur 64).1.hart? s.cur = some hg ∧ hg.heldGroups.length ≠ 64) ∧
    (let k := gangKey 0 0 5
     let g : Gang := { gg := 1, nexp := 1, forming := false, members := [{ idx := 0, who := .hart 0, from_ := 0, mcast := 0 }] }
     let h := { userHart with gang := some (k, 0) }
     let s : State := { one cachedPte h with gangs := [(k, g)] }
     Runs s h ∧ h.gang = some (k, 0) ∧ h.mcastPending = false ∧ s.gang? k = some g) := by
  refine ⟨⟨rfl, ?_, ?_, ?_, ?_, .inl ?_, _, rfl, ?_⟩, ⟨rfl, ?_, ?_, .inl ?_⟩, ⟨rfl, ?_⟩, ⟨rfl, ?_, _, rfl, ?_⟩, rfl, ?_⟩ <;> decide

theorem witness_SysregValues :
    (Runs (one cachedPte supHart) supHart ∧ supHart.idleQueues = true ∧ supHart.inTrap = false ∧ supHart.vq = [] ∧
      supHart.sup = true ∧ supHart.xdecStopped = none) ∧
    (let h := { supHart with inTrap := true }
     Runs (one cachedPte h) h ∧ h.inTrap = true ∧ h.xdecStopped = none) ∧
    (let h := queued (.vst plainHdr 0 1) supHart
     Runs (one cachedPte h) h ∧ h.inTrap = false ∧ h.idleQueues = false ∧ ∃ e l, h.vq = e :: l ∧ e.e.slot < 64) ∧
    (let h := queued (.xdec plainHdr 0 1) supHart
     let q := { h with inTrap := true, qstop := true, vcp := vcpOf .vector 0 h.pc,
                       vq := h.vq.map fun v => { v with e := { v.e with stopped := true } } }
     Runs (one cachedPte q) q ∧ q.inTrap = true ∧ q.sup = true ∧ q.xdecStopped.isSome = true) := by
  refine ⟨⟨rfl, ?_⟩, ⟨rfl, ?_⟩, ⟨rfl, ?_, ?_, _, _, rfl, ?_⟩, rfl, ?_⟩ <;> decide

/-- The fields of gA that the clauses name: no ACT, no FSTAT, SVH claimed. -/
theorem witness_SysregWrites :
    let h := withG supHart 0x1F0010 0 0
    let x := h.rg 1
    Runs (one cachedPte h) h ∧ (h.idleQueues = true ∨ h.inTrap = true) ∧ h.sup = true ∧ h.xdecStopped = none ∧
      x.toNat / 2 ^ 8 % 2 ^ 2 ≠ 1 ∧ x.toNat / 2 ^ 8 % 2 ^ 2 ≠ 2 ∧ h.sbpend = [] ∧ (h.qstop = true ∨ h.vq = []) ∧
      h.held = none ∧ h.frozen = none ∧ x.toNat / 2 ^ 62 % 2 ^ 2 = 0 ∧ x.getLsbD 4 = true := by
  refine ⟨rfl, ?_⟩; decide

theorem witness_SupervisorOnlyTraps : Runs (one cachedPte userHart) userHart ∧ userHart.sup = false ∧ (31 : Nat) < 32 ∧
    0x054 ∈ [0x012, 0x031, 0x040, 0x041, 0x042, 0x043, 0x052, 0x053, 0x054] := by
  refine ⟨rfl, ?_⟩; decide

theorem witness_TrapAndBreakpoint : Runs (one cachedPte userHart) userHart ∧ userHart.MayTrap ∧ 4095 < 4096 ∧
    (let h := { supHart with status := 0x1F13 }
     Runs (one cachedPte h) h ∧ h.MayTrap ∧ h.sup = true) := by
  refine ⟨rfl, .inl ?_, ?_, rfl, .inr ?_, ?_⟩ <;> decide

/-- A hart alone, which reports to the host; and a user hart's context, whose supervisor hart takes the report. -/
theorem witness_DoubleTrapFreezes :
    (let s := one cachedPte supHart
     Runs s supHart ∧ s.OneSupervisor ∧ supHart.sup = true ∧ supHart.ie = false ∧ supHart.frozen = none ∧
       s.reportTo supHart.ctx = some s.cur) ∧
    (let h := { supHart with status := 0x1F01 }
     let s := pair h supHart
     Runs s h ∧ s.OneSupervisor ∧ h.sup = true ∧ h.ie = false ∧ h.frozen = none ∧ s.reportTo h.ctx = some 1 ∧
       s.hart? 1 = some supHart) ∧
    (let h := { supHart with status := 0x1F01 }
     Runs (one cachedPte h) h ∧ (one cachedPte h).OneSupervisor ∧ (one cachedPte h).reportTo h.ctx = none) := by
  unfold State.OneSupervisor
  refine ⟨⟨rfl, ?_⟩, ⟨rfl, ?_⟩, rfl, ?_⟩ <;> decide

theorem witness_ReturnFromTrap :
    Runs (one cachedPte supHart) supHart ∧ supHart.sup = true ∧ supHart.faults = [] ∧
      (∀ e ∈ supHart.allEntries, e.stopped = false) ∧ (∀ q : Fin 8, (supHart.slots.get q).stopped = false) ∧
      supHart.qstop = false := by
  refine ⟨rfl, ?_⟩; decide

theorem witness_InvalidateRemovesTranslations :
    (let h := withG supHart 0x50000 0 0
     let s := pair h userHart
     Runs s h ∧ h.sup = true ∧ h.memPending = false ∧ (s.stn (stnOf s.cur)).dirty = [] ∧ (h.rg 1).toNat < 2 ^ 63 ∧
       ∀ p, s.probedIn p = false) ∧
    2 ^ 63 ≤ ((withG supHart 0x8000000000000000 0 0).rg 1).toNat := by
  refine ⟨⟨rfl, ?_, ?_, ?_, ?_, fun p => rfl⟩, ?_⟩ <;> decide

theorem translate_one {s : State} {pte a : Nat} (c : Who1) (hs : s.tlb = [identity pte]) (hc : c.ctx = 0)
    (hd : dieOf c.id = 0) (ha : a < 2 ^ 29) (hp : pte < 2 ^ 64) : s.translate c a = some (xl pte a) := by
  have e1 : a / 536870912 = 0 := Nat.div_eq_of_lt ha
  have m : a % 536870912 = a := Nat.mod_eq_of_lt ha
  have q : pte % 18446744073709551616 = pte := Nat.mod_eq_of_lt hp
  cases h : c.port <;>
    simp [State.translate, State.tlbIn, State.tlbHit, Who1.unit, h, hs, hc, hd, identity, xl, e1, m, w64, q]

theorem unit_one (a : Nat) : unitsOf a 1 = [a % 2 ^ 64] := by
  have : max a (a / 65536 * 65536) = a := by omega
  simp [unitsOf, span, this]

theorem walkAway_one {s : State} {pte a : Nat} (c : Who1) (hs : s.tlb = [identity pte]) (hc : c.ctx = 0)
    (hd : dieOf c.id = 0) (ha : a < 2 ^ 29) : s.walkAway c a 1 = false := by
  have e0 : a % 2 ^ 64 = a := Nat.mod_eq_of_lt (by omega)
  have e1 : a / 536870912 = 0 := Nat.div_eq_of_lt ha
  have hit : (s.tlbIn (.die 0) 0 (a % 2 ^ 64)).isNone = false := by
    rw [e0]
    simp [State.tlbIn, State.tlbHit, hs, identity, e1]
  simp only [State.walkAway, unit_one, List.any_cons, List.any_nil, hc, hd, hit, Bool.and_false, Bool.false_and, Bool.or_false]

theorem region_one {a : Nat} (ha : a < 2 ^ 29) : regionOf a = .pool 0 0 := by
  have h1 : a < 0x10000000000 := by omega
  have h2 : a / 0x2000000000 = 0 := by omega
  simp [regionOf, h1, h2]

theorem path_one {pte a : Nat} (h : pteIdem pte = false) (ha : a < 2 ^ 29) : pathOf (xl pte a) ≠ .device := by
  rcases Decidable.em (pteCache pte = 2) with c | c <;> simp [pathOf, xl, h, region_one ha, c]

theorem class_one {s : State} {a : Nat} (hs : s.dies = []) (ha : a < 2 ^ 29) : s.frameInfo (a / 65536) = FrameInfo.none := by
  have hr : regionOf (a / 65536 * 65536) = .pool 0 0 := region_one (by omega)
  have hd : s.die 0 = Die.reset := by simp [State.die, hs, getD, find?]
  simp only [State.frameInfo, State.pool, hr, hd]
  rfl

/-- The bytes of a frame at 0x10000000. -/
theorem frame_one {s : State} (hs : s.tlb = [identity cachedPte]) (hd : s.dies = []) {o : Nat} (ho : o < 0x898000) :
    ∃ x, s.translate (supHart.who 0) (0x10000000 + o) = some x ∧ x.pa = 0x10000000 + o ∧ pathOf x ≠ .device ∧
      s.lossless (x.pa / 65536) = false := by
  refine ⟨xl cachedPte (0x10000000 + o), translate_one _ hs rfl rfl (by omega) (by decide), rfl, path_one (by decide) (by omega), ?_⟩
  rw [State.lossless, class_one hd (by show 0x10000000 + o < _; omega)]; rfl

theorem witness_FrameSave :
    (let h := withG supHart 0x10000000 0 0
     let s := one cachedPte h
     let pa := fun o => 0x10000000 + o
     Runs s h ∧ h.sup = true ∧ FrameRange s h (h.rg 1).toNat .w pa ∧ s.memOk = true ∧
       (∀ o o', o < 0x898000 → o' < 0x898000 → pa o = pa o' → o = o') ∧ (∀ v ∈ h.vq, v.e.midDevice = false) ∧
       (∀ x ∈ s.dies, x.2.held = []) ∧ (s.stn (stnOf s.cur)).dirty = [] ∧ h.strip = none ∧ (∀ g ∈ h.groups, g.st ≠ .spilled) ∧
       h.ilkHit h.seq 0x10000000 (0x10000000 + 0x898000) true [] = false ∧ s.walkAway (h.who s.cur) 0x10000000 0x898000 = false ∧
       ∀ v ∈ h.vq, ∀ r, v.redeal = some r → r.spilled = []) ∧
    (let h := { withG supHart 0x10008000 0x20000000 0 with status := 0x1F13 }
     let s := one cachedPte h
     Runs s h ∧ h.sup = true ∧ h.MayTrap ∧ (h.rg 1).toNat % 65536 ≠ 0 ∧ (h.rg 2).toNat % 65536 = 0 ∧
       s.probe1 (h.who s.cur) { e := 0, va := (h.rg 2).toNat, n := 0x898000, k := .w, al := 1 } = some (.pgfltW, 0x20000000)) := by
  refine ⟨⟨rfl, by decide, ⟨by decide, by decide, fun o ho => frame_one rfl rfl ho⟩, by decide, fun o o' _ _ e => Nat.add_left_cancel e,
    by decide, by decide, by decide, by decide, by decide, by decide, by decide +kernel, fun v hv => absurd hv List.not_mem_nil⟩,
    rfl, by decide, .inr (by decide), by decide, by decide, by decide⟩

/-- The machine of `one` with no translation and its tables on die 1, which die 0 cannot reach. -/
def farTables (h : Hart) : State :=
  let s := one cachedPte h
  let x := s.die 0
  { s.setDie 0 { x with links := Vector.replicate 2 { s.link 0 0 with state := 0 } } with tlb := [], pkg := { Pkg.reset with ctxtbase := 0x2000000000 } }

/-- What makes VFRAME.SAVE, VFRAME.RESTORE, WEIR.HINT and WEIR.QUERY wait: bytes of the frame that a stream still writes, and
tables that cannot be reached. -/
theorem witness_Waits :
    (let h := { withG supHart 0x10000000 1 0 with ilk := [{ seq := 0, lo := 0x10010000, hi := 0x10010040, rd := false, wr := true }] }
     Runs (one cachedPte h) h ∧ h.sup = true ∧ h.ilkHit 1 (h.rg 1).toNat ((h.rg 1).toNat + 0x898000) true [] = true ∧
       h.rangeWaits 1 ((h.rg 1).toNat, (h.rg 1).toNat + 0x898000, false) = true) ∧
    (let h := withG supHart 0x10000000 1 0
     let s := farTables h
     Runs s h ∧ h.sup = true ∧ s.walkAway (h.who s.cur) (h.rg 1).toNat 0x898000 = true ∧ min (fieldOf (h.rg 2) 0 32) 65536 = 1 ∧
       s.rootAway h.ctx (dieOf s.cur) (h.rg 1).toNat = true) := by
  refine ⟨⟨rfl, ?_⟩, rfl, ?_⟩ <;> decide +kernel

/-- A saved frame of hart 0 at 0x10000000, the header and the generation that stand there, and the state that holds them. -/
def zeroGen : Nat := genOf (List.replicate 8 0)
def savedOne (q : Hart) : SavedFrame :=
  { gen := zeroGen, saver := 0, emergency := false, ctx := 0, ctxGen := 1, svh := true, hart := q, tiles := [], duration := 5,
    stepLeft := none, consumed := false }
def restorable (h q : Hart) : State :=
  { (one cachedPte h) with frames := [savedOne q], mem := cellsAt 0x10000000 4 0x4C584652 ++ [(0x10000004, 1)] }

/-- The same, with the generation spelled out and the banks and masks of the frame at their places. -/
def restorableAll (h q : Hart) : State :=
  { restorable h q with
      mem := cellsAt 0x10000000 24 (0x4C584652 + 2 ^ 32) ++ (span 0x10020000 (q.maskBytes 0).length).zip (q.maskBytes 0) ++
        (span 0x10010000 (q.bankBytes 0).length).zip (q.bankBytes 0) }

theorem find?_append {l m : List Host.Cell} {a : Nat} (h : ∀ c ∈ l, c.1 ≠ a) : find? (l ++ m) a = find? m a := by
  induction l with
  | nil => rfl
  | cons c t ih =>
    obtain ⟨b, x⟩ := c
    have hb : b ≠ a := h (b, x) (.head _)
    simp only [List.cons_append, find?, hb, if_false]
    exact ih fun c hc => h c (.tail _ hc)

theorem find?_laid (bs : List Byte) (m : List Host.Cell) (a o : Nat) (h : o < bs.length) :
    find? ((span a bs.length).zip bs ++ m) (a + o) = bs[o]? := by
  induction bs generalizing a o with
  | nil => simp at h
  | cons b t ih =>
    simp only [span, List.length_cons, List.range'_succ, List.zip_cons_cons, List.cons_append, find?]
    cases o with
    | zero => simp
    | succ o =>
      have := ih (a + 1) o (by simpa using h)
      simp only [span] at this
      rw [if_neg (by omega), List.getElem?_cons_succ, ← this]
      congr 1
      omega

theorem laid_keys {bs : List Byte} {a b : Nat} (h : b < a ∨ a + bs.length ≤ b) : ∀ c ∈ (span a bs.length).zip bs, c.1 ≠ b := by
  intro c hc e
  have := (List.of_mem_zip (show (c.1, c.2) ∈ _ from hc)).1
  simp only [span, List.mem_range'_1] at this
  omega

theorem toBytes_length (n x : Nat) : (toBytes n x).length = n := by
  induction n generalizing x with
  | zero => rfl
  | succ n ih => simp [toBytes, ih]

theorem flatMap_length {α : Type} (l : List α) (f : α → List Byte) (n : Nat) (h : ∀ x, (f x).length = n) :
    (l.flatMap f).length = l.length * n := by
  induction l with
  | nil => simp
  | cons x t ih => rw [List.flatMap_cons, List.length_append, h, ih, List.length_cons, Nat.succ_mul, Nat.add_comm]

theorem bankBytes_length (q : Hart) (j : Nat) : (q.bankBytes j).length = banksOf q.vcfg * 4096 := by
  rw [Hart.bankBytes, flatMap_length _ _ 4096 fun b => ?_, List.length_range]
  rw [flatMap_length _ _ 16 fun w => toBytes_length _ _, List.length_map, List.length_range]

theorem read_of_find {m : List Host.Cell} {a : Nat} {b : Byte} (h : find? m a = some b) : Memory.read m a = b := by
  induction m with
  | nil => simp [find?] at h
  | cons c t ih =>
    obtain ⟨k, x⟩ := c
    simp only [find?] at h
    simp only [Memory.read]
    split at h <;> simp_all

/-- The banks and masks of a frame stand where VFRAME.RESTORE reads them. -/
theorem witness_FrameRestore_lanes :
    let pa := fun o => 0x10000000 + o
    let h := withG supHart 0x10000000 0 0
    let s := restorableAll h supHart
    (Runs s h ∧ FrameRange s h (h.rg 1).toNat .r pa ∧ Memory.num s.mem (pa 0) 4 = 0x4C584652 ∧ Memory.num s.mem (pa 4) 2 = 1 ∧
      Memory.num s.mem (pa 6) 2 = 0 ∧ Memory.readN s.mem (pa 0x10) 8 = List.replicate 8 0) ∧
    (∀ o, o < (supHart.bankBytes 0).length → some (Memory.read s.mem (pa (0x10000 + o))) = (supHart.bankBytes 0)[o]?) ∧
    (∀ o, o < (supHart.maskBytes 0).length → some (Memory.read s.mem (pa (0x20000 + o))) = (supHart.maskBytes 0)[o]?) := by
  have hd : ∀ {a}, 0x10000018 ≤ a → ∀ c ∈ cellsAt 0x10000000 24 (0x4C584652 + 2 ^ 32), c.1 ≠ a := by
    intro a ha c hc
    have := (List.of_mem_zip (show (c.1, c.2) ∈ _ from hc)).1
    simp only [span, List.mem_range'_1] at this
    omega
  have hl : (supHart.bankBytes 0).length = 0x8000 := by rw [bankBytes_length]; decide
  refine ⟨⟨rfl, ⟨by decide, by decide, fun o ho => frame_one rfl rfl ho⟩, ?_, ?_, ?_, ?_⟩, fun o ho => ?_, fun o ho => ?_⟩
  · rfl
  · rfl
  · rfl
  · rfl
  · rw [List.getElem?_eq_getElem ho]
    refine congrArg some (read_of_find ?_)
    show find? (_ ++ _ ++ _) (0x10000000 + (0x10000 + o)) = _
    have := find?_laid (supHart.bankBytes 0) [] 0x10010000 o ho
    rw [List.append_nil] at this
    rw [List.append_assoc, find?_append (hd (by omega)), find?_append (laid_keys (.inl (by omega))),
      show 0x10000000 + (0x10000 + o) = 0x10010000 + o by omega, this, List.getElem?_eq_getElem ho]
  · rw [List.getElem?_eq_getElem ho]
    refine congrArg some (read_of_find ?_)
    show find? (_ ++ _ ++ _) (0x10000000 + (0x20000 + o)) = _
    rw [List.append_assoc, find?_append (hd (by omega)), show 0x10000000 + (0x20000 + o) = 0x10020000 + o by omega,
      find?_laid _ _ _ o ho, List.getElem?_eq_getElem ho]

theorem witness_FrameRestore :
    let pa := fun o => 0x10000000 + o
    let h := withG supHart 0x10000000 0 0
    let s := restorable h supHart
    let word := fun o n => littleEndian n fun k => Memory.read s.mem (pa (o + k))
    (Runs s h ∧ h.sup = true ∧ FrameRange s h (h.rg 1).toNat .r pa ∧ (s.stn (stnOf s.cur)).dirty = [] ∧
      regionOf (pa 0) = .pool 0 0 ∧ (s.frameInfo (pa 0 / 65536)).slot = none ∧ word 0 4 = 0x4C584652 ∧ word 4 2 = 1 ∧
      ∃ f ∈ s.frames, (∀ q ∈ s.frames, q.gen = f.gen → q = f) ∧
        f.gen = genOf ((List.range' 0x10 8).map fun k => Memory.read s.mem (pa k)) ∧ f.consumed = false ∧ f.saver = word 6 2 ∧
        (s.ctx f.ctx).live = true ∧ (s.ctx f.ctx).gen = f.ctxGen ∧ f.hart.gang = none ∧ h.idleQueues = true ∧ f.tiles = [] ∧
        f.hart.gcount ≤ 1 ∧ f.hart.gneed ≤ 1 ∧ f.hart.frozen = none ∧ (∃ g, h.groups.filter (fun g => g.idx == 0) = [g]) ∧
        f.hart.lanes = 256) ∧
    (let h := { withG supHart 0x10008000 0x20000000 0 with status := 0x1F13 }
     let s := one cachedPte h
     Runs s h ∧ h.sup = true ∧ h.MayTrap ∧ (h.rg 1).toNat % 65536 ≠ 0 ∧
       s.probe1 (h.who s.cur) { e := 0, va := (h.rg 2).toNat, n := 0x898000, k := .r, al := 1 } = some (.pgfltR, 0x20000000)) ∧
    (let h := { withG supHart 0x10000000 0 0 with status := 0x1F13 }
     let s : State := { restorable h supHart with mem := [] }
     Runs s h ∧ h.MayTrap ∧ Memory.read s.mem (pa 0) = 0) ∧
    (let q := { supHart with gang := some (256 + 5, 0) }
     let h := { withG supHart 0x10000000 0 0 with status := 0x1F13 }
     Runs (restorable h q) h ∧ h.MayTrap ∧ ∃ f ∈ (restorable h q).frames, f.hart.gang = some (256 + 5, 0) ∧
       (256 + 5) / 256 % 256 ≠ dieOf (restorable h q).cur) := by
  refine ⟨⟨rfl, by decide, ⟨by decide, by decide, fun o ho => frame_one rfl rfl ho⟩, by decide, by decide, by decide, by decide, by decide,
    _, .head _, ?_⟩, ⟨rfl, by decide, .inr (by decide), by decide, by decide⟩, ⟨rfl, .inr (by decide), by decide⟩, rfl,
    .inr (by decide), _, .head _, rfl, by decide⟩
  refine ⟨fun q hq _ => ?_, ?_, ?_⟩
  · simpa [restorable, one] using hq
  · show genOf _ = genOf _
    congr 1
  · refine ⟨?_, ?_, ?_, ?_, ?_, ?_, ?_, ?_, ?_, ?_, ⟨_, rfl⟩, ?_⟩ <;> decide

theorem witness_DecodeOfEncode : (Instr.addi 31 31 0xFFFF).wf = true ∧ (Instr.addi 31 31 0xFFFF).encodable = true ∧
    (Instr.vaddV ⟨1, 3, 1, 7⟩ 31 31 31).wf = true ∧ (Instr.vaddV ⟨1, 3, 1, 7⟩ 31 31 31).encodable = true := by decide

theorem witness_EncodeOfDecode : decodeTableWord 32 0x07FFFFFF = some (.addi 31 31 0xFFFF) := by decide

/-- TMERGE with VB 31, and a word of major 0x3F. -/
theorem witness_IllegalWordsTrap :
    (let h := { userHart with tshape := 0x8000000000000000 }
     Runs (one cachedPte h) h ∧ h.MayTrap ∧ h.tshape.getLsbD 63 = true) ∧
    (let h := { userHart with tshape := 0 }
     Runs (one cachedPte h) h ∧ h.MayTrap ∧ h.tshape.getLsbD 63 = false) ∧
    (∃ w, w < 2 ^ 32 ∧ tmergeWord w) ∧ ¬ tmergeWord 0xFFFFFFFF ∧ 0x38 ≤ 0xFC000000 / 2 ^ 26 := by
  refine ⟨⟨rfl, .inl ?_, ?_⟩, ⟨rfl, .inl ?_, ?_⟩, ⟨encode (.tmerge ⟨0, 0⟩ 0 0) + 31 * 2 ^ 14, ?_, ?_, ⟨0, 0⟩, 0, 0, ?_⟩, ?_, ?_⟩
  case refine_8 => unfold tmergeWord; omega
  all_goals decide

/-- The word `w` at 0x50000, where the hart stands. -/
def atWord (w : Nat) (h : Hart) : State := { one cachedPte h with mem := cellsAt 0x50000 4 w }

theorem witness_StepRunsDecodedWord :
    let h := supHart
    let s := atWord 0x07FFFFFF h
    s.hart? 0 = some h ∧ s.hotMove = none ∧ h.faultDue = none ∧ h.irq = none ∧ h.frozen = none ∧ h.held = none ∧ h.wait = none ∧
      s.walkAway (h.fetcher 0) h.pc.toNat 4 = false ∧ s.probe1 (h.fetcher 0) { e := 0, va := h.pc.toNat, n := 4, k := .x, al := 4 } = none ∧
      s.translate (h.fetcher 0) h.pc.toNat = some (xl cachedPte 0x50000) ∧ 0x50000 % 4 = 0 ∧ (s.frameInfo 5).slot = none ∧
      s.reaches (dieOf 0) (homeDie 0x50000) = true ∧ (s.stn (stnOf 0)).full (0x50000 / 64) = false ∧
      decode (littleEndian 4 fun k =>
        match find? (s.core (coreOf 0)).icache (0x50000 / 64) with
        | some bs => bs.getD (0x50000 % 64 + k) 0
        | none => if pathOf (xl cachedPte 0x50000) = .cached then s.stationByte (stnOf 0) (0x50000 + k) else Memory.read s.mem (0x50000 + k)) =
          .ok (.addi 31 31 0xFFFF) ∧
      s.agenda = [] ∧ s.unitMove = none ∧ s.nextTurn = some 0 := by
  decide

theorem witness_StepAtBoundary :
    (let s : State := { one cachedPte supHart with agenda := [.event (.streamBurst 0 0)] }
     s.hotMove = none ∧ s.agenda = .event (.streamBurst 0 0) :: []) ∧
    (let h := { userHart with ipend := 1, status := 0x1F02 }
     let s : State := { one cachedPte h with agenda := [.hart 0] }
     s.hart? 0 = some h ∧ h.takes = true ∧ h.faultDue = none ∧ h.irq ≠ none) ∧
    (let h := { userHart with faults := [{ q := .vector, slot := 0, pc := 0x50000, cause := .align, val := 3, estart := 2, valid := true }] }
     h.takes = true ∧ h.faultDue ≠ none) ∧
    (let h := { userHart with held := some 1 }
     (h.takes = true → h.faultDue = none ∧ h.irq = none) ∧ h.held ≠ none) ∧
    (let h := { userHart with pc := 0x20000000 }
     let s : State := { one cachedPte h with agenda := [.hart 0] }
     s.hotMove = none ∧ s.hart? 0 = some h ∧ h.faultDue = none ∧ h.irq = none ∧ h.frozen = none ∧ h.held = none ∧ h.wait = none ∧
       h.MayTrap ∧ s.walkAway (h.fetcher 0) h.pc.toNat 4 = false ∧
       s.probe1 (h.fetcher 0) { e := 0, va := h.pc.toNat, n := 4, k := .x, al := 4 } = some (.pgfltX, 0x20000000)) := by
  refine ⟨⟨by decide, rfl⟩, by decide, by decide, by decide, ?_⟩
  refine ⟨?_, rfl, ?_, ?_, ?_, ?_, ?_, .inl ?_, ?_, ?_⟩ <;> decide

/-- The outcome is a next state. -/
def goesOn (o : Out) : Bool :=
  match o with
  | .next _ => true
  | _ => false

theorem next_of {o : Out} (h : goesOn o = true) : ∃ t, o = .next t := by
  cases o <;> simp_all [goesOn]

/-- ADDI at the boot PC: reset meets the invariants, and the step goes on. -/
theorem witness_StepKeeps : (State.reset.withFetchWord 32 0x04200005).Inv ∧ (State.reset.withFetchWord 32 0x04200005).OneSupervisor ∧
    (State.reset.withFetchWord 32 0x04200005).TilesOk ∧ ∃ t, step (State.reset.withFetchWord 32 0x04200005) = .next t := by
  refine ⟨by unfold State.Inv; decide, by unfold State.OneSupervisor; decide, ⟨fun k => ?_, fun f hf => ?_⟩, ?_⟩
  · intro t ht
    have e : (State.reset.withFetchWord 32 0x04200005).core k = Core.reset := rfl
    rw [e] at ht
    have : t = Tile.reset := by simpa [Core.reset] using ht
    subst this
    exact ⟨by decide, by decide⟩
  · have e : (State.reset.withFetchWord 32 0x04200005).frames = [] := rfl
    simp [e] at hf
  · exact next_of (by decide +kernel)

/-! #### Vector words -/

/-- Integers of 32 bits, unsigned: KIND 1, WD, WA and WB 32. -/
def vtInt : W64 := 0x5F7DF
/-- binary32: KIND 4; bytes: KIND 1, all widths 8. -/
def vtFloat : W64 := 0x11F7DF
def vtByte : W64 := 0x471C7

def typed (vl : Nat) (vt : W64) (h : Hart) : Hart := { h with vl := vl, vtype := vt }

/-- The values `l` in register k at width w. -/
def loadReg (k w : Nat) (l : List Nat) (h : Hart) : Hart :=
  let v := l.zipIdx.foldl (fun v x => writeElem v h.geo k 1 w x.2 x.1) h.v
  { h with v := v.setIfInBounds k { vreg v k with tag := some { w := w, p := w, sgn := false } } }

theorem witness_VsetvlGrants :
    (let h := withG userHart 300 vtInt 0
     let s := one cachedPte h
     Runs s h ∧ ¬ RefusedType (h.rg 2) ∧ elementsPerLane h.vcfg (h.rg 2) = 1 ∧ fieldOf (h.rg 1) 0 32 ≠ 0 ∧
       (∀ g ∈ h.groups, g.st ≠ .spilled) ∧ (∀ v ∈ h.vq, v.redeal = none) ∧ h.gang = none ∧ h.stripOpen = false ∧
       (∀ p ∈ s.harts, stnOf p.1 = stnOf s.cur → p = (s.cur, h)) ∧ h.gcount ≠ min 64 ((300 + 256 * 1 - 1) / (256 * 1)) ∧
       h.vq.length < 64) ∧
    (let h := withG userHart 0x100000000 0x1000000000 0
     Runs (one cachedPte h) h ∧ RefusedType (h.rg 2) ∧ fieldOf (h.rg 1) 0 32 = 0) ∧
    (let h := { withG userHart 5 vtInt 0 with gang := some (gangKey 0 0 5, 0) }
     Runs (one cachedPte h) h ∧ ¬ RefusedType (h.rg 2) ∧ h.gang ≠ none) ∧
    (let h := { withG userHart 5 vtInt 0 with vgrant := 0x10002 }
     let q := { h with vq := List.replicate 64 { e := h.newEntry 0 (.vaddV plainHdr 0 0 0) 0 0 0 0, redeal := none } }
     Runs (one cachedPte q) q ∧ q.vq.length = 64 ∧ q.gcount ≠ min 64 ((5 + 256 - 1) / 256)) := by
  unfold RefusedType
  refine ⟨⟨rfl, ?_⟩, ⟨rfl, ?_⟩, ⟨rfl, ?_⟩, rfl, ?_⟩ <;> decide

/-- Beside a hart of a higher or of the same priority that lacks groups: a grant of 64 groups asked for with 2 held. -/
theorem witness_VsetvlGrants_contention :
    ∀ p ∈ [(5, false), (5, true), (3, false)],
      let b : Strip := { base := 0, seq := 0, buf := [], at_ := [] }
      let h := { withG userHart 20000 vtInt 0 with prio := 3, groups := [⟨0, 0, 0, .granted⟩, ⟨1, 0, 4, .granted⟩], strip := if p.2 then some b else none }
      let q := { userHart with prio := p.1, deficit := 1 }
      let s := pair h q
      let here := s.harts.filter fun p => decide (stnOf p.1 = stnOf s.cur)
      let lacking := here.filter fun p => p.1 != s.cur && p.2.active && decide (0 < p.2.deficit)
      Runs s h ∧ ¬ RefusedType (h.rg 2) ∧ elementsPerLane h.vcfg (h.rg 2) = 1 ∧ fieldOf (h.rg 1) 0 32 = 20000 ∧ h.gang = none ∧ h.vq.length < 64 ∧
        min 64 ((20000 + 256 * 1 - 1) / (256 * 1)) = 64 ∧ (h.groups.filter fun g => g.st != .spilled).length = 2 ∧ h.stripOpen = p.2 ∧
        (lacking.any fun p => decide (h.prio < p.2.prio)) = decide (p.1 = 5) ∧ (lacking.any fun p => p.2.prio == h.prio) = decide (p.1 = 3) ∧
        ((here.filter fun p => decide (h.prio < p.2.prio)).map fun p => p.2.heldGroups.length).sum = (if p.1 = 5 then 1 else 0) ∧
        16 - (here.filter fun p => decide (h.prio ≤ p.2.prio)).length = 14 ∧
        (here.filter fun p => (p.2.active || p.1 == s.cur) && p.2.prio == h.prio).length = (if p.1 = 5 then 1 else 2) ∧
        (∀ p ∈ here, p.1 ≠ s.cur → p.2.refilling = false) ∧
        62 ≤ ((List.range 256).filter fun n => decide (4 ≤ n % 64) && !(here.any fun p => p.2.groups.any fun g =>
          g.st != .spilled && 64 * g.core + g.grp == n)).length := by
  unfold RefusedType
  simp only [List.mem_cons, List.not_mem_nil, or_false, forall_eq_or_imp, forall_eq]
  refine ⟨⟨rfl, ?_⟩, ⟨rfl, ?_⟩, rfl, ?_⟩ <;> decide +kernel

def anyBinding : Binding :=
  { pc := 0, q := 0, vd := 0, grp := 1, n := 1, w := 8, kind := 1, layout := 0, base := 0, sup := false, epl := 1,
    issued := true, closed := none, under := none, pos := 0, low := 0, ring := [], cons := [] }

theorem witness_VcfgSets :
    let bad := fun x : W64 => fieldOf x 13 51 ≠ 0 ∨ fieldOf x 2 6 ≠ 0 ∨ fieldOf x 0 2 = 3 ∨ fieldOf x 8 5 < 4 ∨ 16 < fieldOf x 8 5
    (let h := { userHart with strip := some { base := 0, seq := 0, buf := [], at_ := [] } }
     Runs (one cachedPte h) h ∧ h.stripOpen = true ∧ h.MayTrap) ∧
    (bad 3 ∧ bad 0x1100 ∧ bad 0x3FF ∧ ¬ bad 0x400 ∧ ¬ bad 0x1002) ∧
    (let h := withG userHart 0x802 0x400 0
     Runs (one cachedPte h) h ∧ h.stripOpen = false ∧ h.rg 1 = h.vcfg ∧ ¬ bad (h.rg 1) ∧ h.rg 2 ≠ h.vcfg ∧
       h.bindingOpen = false ∧ h.regsBusy = false) ∧
    (let h := { withG userHart 0x400 0 0 with binds := [(0, anyBinding)] }
     Runs (one cachedPte h) h ∧ h.stripOpen = false ∧ h.bindingOpen = true ∧ h.MayTrap) ∧
    (let h := queued (.vst plainHdr 0 1) (withG userHart 0x400 0 0)
     Runs (one cachedPte h) h ∧ h.bindingOpen = false ∧ h.regsBusy = true) := by
  refine ⟨⟨rfl, ?_, .inl ?_⟩, ?_, ⟨rfl, ?_⟩, ⟨rfl, ?_, ?_, .inl ?_⟩, rfl, ?_⟩ <;> decide

theorem witness_MaskReads :
    (Runs (one cachedPte userHart) userHart ∧ userHart.maskBusy 7 = false) ∧
    (let h := queued (.vseqV plainHdr 7 0 0) userHart
     Runs (one cachedPte h) h ∧ h.maskBusy 7 = true) := by
  refine ⟨⟨rfl, ?_⟩, rfl, ?_⟩ <;> decide

theorem witness_StepInstructions :
    (let h := { userHart with stepid := 0x8000000000000000 }
     Runs (one cachedPte h) h ∧ h.stepid.getLsbD 63 = true) ∧
    (let h := withG userHart 0x10000000000 0x1000000000000 5
     Runs (one cachedPte h) h ∧ ¬ h.stepid.getLsbD 63 = true ∧ fieldOf (h.rg 1) 40 24 ≠ 0 ∧ fieldOf (h.rg 2) 40 24 ≠ 0 ∧
       fieldOf (h.rg 3) 40 24 = 0 ∧ fieldOf (h.rg 2) 48 16 ≠ 0 ∧ fieldOf (h.rg 3) 48 16 = 0 ∧ h.idleQueues = true ∧ h.step = none) ∧
    (let h := { userHart with step := some { d := -1, w := none, k := 256, done := 0, c := 0 } }
     Runs (one cachedPte h) h ∧ h.idleQueues = true ∧ h.step.isSome = true) ∧
    (let h := queued (.vst plainHdr 0 1) userHart
     Runs (one cachedPte h) h ∧ h.idleQueues = false) := by
  refine ⟨⟨rfl, ?_⟩, ⟨rfl, ?_⟩, ⟨rfl, ?_⟩, rfl, ?_⟩ <;> decide

/-- The machine about to fetch, with pool 0 of die 0 enabled and the frame of the program lossless. -/
def pooled : State :=
  let s := State.reset.withFetchWord 32 0
  let x := s.die 0
  s.setDie 0 { x with pools := x.pools.set 0 { vat x.pools 0 (Pool.reset 0) with enabled := true },
                      frames := [(1, FrameInfo.none), (2, FrameInfo.none), (3, FrameInfo.none), (4, FrameInfo.none),
                                 (5, { FrameInfo.none with lossless := true, sectors := 1 })] }

theorem witness_WeirHintAndQuery :
    Runs pooled supHart ∧ (pooled.frameInfo 5).lossless = true ∧ (pooled.pool 0 0).enabled = true ∧
      ∃ x, pooled.walk supHart.ctx (dieOf pooled.cur) false 0x50000 = some x ∧ x.pte.testBit 1 = true ∧ x.pa / 65536 = 5 := by
  refine ⟨rfl, ?_, ?_, { pte := 0x5000F, pa := 0x50000, size := 16 }, ?_⟩ <;> decide

/-- A word that may run at once, one that is only dispatched, and one for which the queue is full. -/
theorem witness_VectorWordsComplete :
    let i := Instr.vaddV plainHdr 2 0 1
    let h := typed 2 vtInt supHart
    (Runs (one cachedPte h) h ∧ h.vtype.getLsbD 36 = false ∧ ∃ x, vecSpec i = some x ∧ vecCheck h x = none ∧ h.vq.length < 64 ∧
      (x.ready (one cachedPte h) 0 (x.atDispatch (h.vecEntry i x.hdr (x.cls.map FU.code) (x.regs 1).rd (x.capturesSr h.vtype)).1
          (h.vecEntry i x.hdr (x.cls.map FU.code) (x.regs 1).rd (x.capturesSr h.vtype)).2.gb)
          (h.vecEntry i x.hdr (x.cls.map FU.code) (x.regs 1).rd (x.capturesSr h.vtype)).2) = true) ∧
    (let s : State := { one cachedPte h with eager := false }
     Runs s h ∧ h.frozen = none ∧ ∃ x, vecSpec i = some x ∧
      x.ready s 0 (x.atDispatch (h.vecEntry i x.hdr (x.cls.map FU.code) (x.regs 1).rd (x.capturesSr h.vtype)).1
          (h.vecEntry i x.hdr (x.cls.map FU.code) (x.regs 1).rd (x.capturesSr h.vtype)).2.gb)
        (h.vecEntry i x.hdr (x.cls.map FU.code) (x.regs 1).rd (x.capturesSr h.vtype)).2 = false) ∧
    (let q := { h with vq := List.replicate 64 { e := h.newEntry 0 i 0 0 0 0, redeal := none } }
     Runs (one cachedPte q) q ∧ 64 ≤ q.vq.length) ∧
    (let q := { userHart with vtype := 0x1000000000 }
     Runs (one cachedPte q) q ∧ q.vtype.getLsbD 36 = true ∧ q.MayTrap) ∧
    (let q := typed 2 (vtInt + 0x400000) userHart
     Runs (one cachedPte q) q ∧ q.MayTrap ∧ ∃ x, vecSpec i = some x ∧
       ∃ k ∈ x.vf, 8 * 2 ^ fieldOf q.vcfg 0 2 ≤ k ∨ k % 2 ^ fieldOf q.vtype 22 2 ≠ 0) := by
  refine ⟨⟨rfl, by decide, _, rfl, ?_⟩, ⟨rfl, rfl, _, rfl, ?_⟩, ⟨rfl, ?_⟩, ⟨rfl, ?_, .inl ?_⟩, rfl, .inl ?_, _, rfl, ?_⟩ <;>
    decide

/-- What `VecReady` asks for is one evaluation. -/
theorem vecReady_of {s : State} {h : Hart} {hd : VHdr}
    (e : (s.eager = true ∧ h.vq = [] ∧ h.mq = [] ∧ h.sq = [] ∧ h.qstop = false ∧ h.wait = none ∧ h.frozen = none ∧
      (∀ g ∈ h.groups, g.st ≠ .spilled) ∧ h.binds = [] ∧ h.sbpend = []) ∧
      (∀ p ∈ s.harts, stnOf p.1 = stnOf s.cur → p.1 ≠ s.cur → p.2.vq = []) ∧ (hd.c = 0 ∨ h.convoy = none) ∧ hd.msk < 8 ∧
      (hd.tk.testBit 1 = true → 0 < h.tokens (fifo (fieldOf h.tkroute 2 2) engVector)) ∧
      (hd.tk.testBit 0 = true → h.tokens (fifo engVector (fieldOf h.tkroute 0 2)) < 15))
    (n : ¬ RefusedType h.vtype) (g : 1 ≤ h.gcount ∧ h.vl ≤ 256 * h.gcount * elementsPerLane h.vcfg h.vtype) :
    VecReady s h hd :=
  ⟨e.1.1, e.1.2, e.2.1, e.2.2.1, e.2.2.2.1, e.2.2.2.2.1, e.2.2.2.2.2, n, g.1, g.2⟩

/-- Every VL up to the grant, in the last registers, under mask 7 with both tokens. -/
def maskedHdr : VHdr := { av := 1, tk := 3, c := 1, msk := 7 }
def tokened (h : Hart) : Hart := { h with tok := Vector.replicate 16 1 }

theorem witness_VectorIntegerResults :
    ∀ p ∈ [(0, plainHdr), (256, maskedHdr)],
      let h := tokened (typed p.1 vtInt (withG supHart 0 7 0))
      Runs (one cachedPte h) h ∧ VecReady (one cachedPte h) h p.2 ∧ fieldOf h.vtype 18 4 < 2 ∧ RegField h 31 ∧ RegField h 0 ∧
        (fieldOf (vtInt + 0x8000000) 26 3 = 2) := by
  simp only [List.mem_cons, List.not_mem_nil, or_false, forall_eq_or_imp, forall_eq]
  refine ⟨⟨rfl, vecReady_of (by decide) (by unfold RefusedType; decide) (by decide), ?_⟩, rfl,
    vecReady_of (by decide) (by unfold RefusedType; decide) (by decide), ?_⟩ <;>
    · unfold RegField; decide

theorem witness_VectorRowResults :
    (let h := tokened (typed 256 vtInt supHart)
     Runs (one cachedPte h) h ∧ VecReady (one cachedPte h) h maskedHdr ∧ fieldOf h.vtype 18 4 < 2 ∧ RegField h 31 ∧ RegField h 7 ∧
       maskedHdr.msk ≠ 0 ∧ (7 : Nat) < 8 ∧ 31 ≠ 7 ∧ 5 < 6 ∧ 2 < 3) ∧
    (let h := { typed 1 vtInt supHart with tshape := 0x2000000 }
     Runs (one cachedPte h) h ∧ VecReady (one cachedPte h) h plainHdr ∧ 512 ≤ fieldOf h.tshape 16 10) ∧
    (let h := { typed 1 vtInt supHart with tshape := 0 }
     Runs (one cachedPte h) h ∧ VecReady (one cachedPte h) h plainHdr ∧ fieldOf h.tshape 16 10 = 0) := by
  refine ⟨⟨rfl, vecReady_of (by decide) (by unfold RefusedType; decide) (by decide), ?_⟩,
    ⟨rfl, vecReady_of (by decide) (by unfold RefusedType; decide) (by decide), ?_⟩,
    rfl, vecReady_of (by decide) (by unfold RefusedType; decide) (by decide), ?_⟩ <;> first | decide | (unfold RegField; decide)

theorem witness_VectorFloatAndBlockScale :
    (let h := loadReg 1 32 [0x3F800000, 0x7F7FFFFF] (loadReg 0 32 [0x40000000, 0x00000001] (typed 2 vtFloat supHart))
     let get := fun k e => BitVec.ofNat 32 (readElem h.v h.geo k 1 32 e)
     Runs (one cachedPte h) h ∧ VecReady (one cachedPte h) h plainHdr ∧ RegField h 0 ∧ RegField h 1 ∧ RegField h 31 ∧
       fieldOf h.vtype 18 4 = 4 ∧ fieldOf h.vtype 0 18 = 0b011111011111011111 ∧ fieldOf h.vtype 26 3 < 5 ∧ h.vtype.getLsbD 29 = false ∧
       (vreg h.v 0).tag.map Tag.w = some 32 ∧ (vreg h.v 31).tag = none ∧
       ∀ e, e < 2 → h.activeElem plainHdr e ∧ isFin32 (get 0 e) ∧ isFin32 (get 1 e)) ∧
    (let h := typed 8 vtInt (withG supHart 0x100000003 0 0)
     Runs (one cachedPte h) h ∧ VecReady (one cachedPte h) h plainHdr ∧ RegField h 31 ∧ (∃ x, h.xacc[3]? = some x) ∧
       fieldOf h.vtype 18 4 = 1 ∧ fieldOf h.vtype 0 6 = 31 ∧ (h.rg 1).getLsbD 32 = true ∧ 3 < 4 ∧
       32 ≤ 1 * (fieldOf h.vcfg 8 5 * 128 / (8 * 2 ^ fieldOf h.vcfg 0 2))) := by
  refine ⟨⟨rfl, vecReady_of (by decide) (by unfold RefusedType; decide) (by decide), ?_⟩,
    rfl, vecReady_of (by decide) (by unfold RefusedType; decide) (by decide), ?_, ⟨_, rfl⟩, ?_⟩
  · unfold RegField Hart.activeElem; decide
  · unfold RegField; decide
  · decide

/-- The types under which VCVT (from kind b, to integers, fixed point, storage and float kinds), FCVT.V, MXQ, MXDQ and BSEXP work,
the last three with blocks of 32, 24 and 32 elements; VCVT and FCVT.V have equal kinds in one of them, MXQ stores mxint8 in another.
The registers are untagged, so that they fit any width. -/
theorem witness_VectorFloat_conversions :
    ∀ q ∈ [(4, 5 + 31 * 2 ^ 6 + 9 * 2 ^ 18), (4, 7 + 31 * 2 ^ 6), (4, 7 + 31 * 2 ^ 6 + 3 * 2 ^ 18 + 8 * 2 ^ 30),
        (0, 31 + 7 * 2 ^ 6 + 4 * 2 ^ 18), (2, 15 + 7 * 2 ^ 6 + 2 * 2 ^ 18 + 4 * 2 ^ 30), (8, 31 + 7 * 2 ^ 6 + 4 * 2 ^ 18),
        (4, 31 + 31 * 2 ^ 6 + 4 * 2 ^ 18 + 2 ^ 29), (4, 7 + 31 * 2 ^ 6 + 7 * 2 ^ 18 + 2 * 2 ^ 24),
        (4, 7 + 31 * 2 ^ 6 + 12 * 2 ^ 18 + 2 ^ 24 + 2 ^ 29), (7, 31 + 7 * 2 ^ 6 + 4 * 2 ^ 18 + 2 ^ 24), (12, 31 + 7 * 2 ^ 6 + 4 * 2 ^ 18 + 2 ^ 24),
        (4, 7 + 31 * 2 ^ 6 + 2 ^ 18 + 2 * 2 ^ 24)],
      let vt : W64 := BitVec.ofNat 64 q.2
      let h := typed 40 vt supHart
      Runs (one cachedPte h) h ∧ VecReady (one cachedPte h) h plainHdr ∧ (∀ r, r < 32 → RegField h r ∧ ∀ w, TagFits h r w) ∧
        (4 ≤ q.1 → fieldOf vt 6 6 + 1 = if q.1 = 12 then 8 else bitsK q.1) ∧
        (4 ≤ fieldOf vt 18 4 → fieldOf vt 0 6 + 1 = if fieldOf vt 18 4 = 12 then 8 else bitsK (fieldOf vt 18 4)) := by
  intro q hq
  have t : ∀ r, r < 32 → (vreg supHart.v r).tag = none := by decide
  have v : supHart.vcfg = 0x802 := rfl
  have hr : ∀ vt r, fieldOf vt 22 2 = 0 → r < 32 → RegField (typed 40 vt supHart) r ∧ ∀ w, TagFits (typed 40 vt supHart) r w := by
    intro vt r hg h
    refine ⟨⟨?_, ?_, ?_, fun j hj => ?_⟩, fun w => .inl (t r h)⟩
    · show r < 8 * 2 ^ fieldOf supHart.vcfg 0 2
      rw [v]; exact h
    · show r % 2 ^ fieldOf vt 22 2 = 0
      rw [hg]; exact Nat.mod_one r
    · show fieldOf supHart.vcfg 0 2 < 3
      rw [v]; decide
    · have : j = 0 := by
        simp only [typed, hg] at hj
        omega
      rw [this]; rfl
  simp only [List.mem_cons, List.not_mem_nil, or_false] at hq
  rcases hq with rfl | rfl | rfl | rfl | rfl | rfl | rfl | rfl | rfl | rfl | rfl | rfl <;>
    exact ⟨rfl, vecReady_of (by decide) (by unfold RefusedType; decide) (by decide), fun r h => hr _ r (by decide) h, by decide, by decide⟩

/-! #### XDEC -/

/-- A block of one plane of one bit: two elements, 1 and 0, in RAW mode; CRC-32C of the byte 1. -/
def rawBlock : List Nat :=
  [0x58, 0x4C, 1, 1, 1, 0, 2, 0, 0, 0, 0, 0, 0, 0, 0, 0, 0x20, 0, 0, 0, 1, 0, 0, 0, 0x52, 0xD0, 0x16, 0xA0, 0, 0, 0, 0, 6] ++
    List.replicate 31 0

def blockHart (n : Nat) : Hart := loadReg 0 8 (rawBlock ++ List.replicate 32 0) (typed n vtByte supHart)
def rawByte (o : Nat) : Byte := BitVec.ofNat 8 (rawBlock.getD o 0)

/-- What the statements say of a block holds of this one, in whatever way its bytes are read. -/
theorem rawBlock_good {f : Nat → Nat → Nat} {bit : Nat → Bool}
    (hf : ∀ o n, o + n ≤ 32 → f o n = littleEndian n fun k => rawByte (o + k))
    (hb : ∀ t, t < 256 → bit t = (rawByte (32 + t / 8)).getLsbD (t % 8)) :
    HeaderLegal f 1 8 ∧ HeaderLength f ∧ f 0x10 4 = 32 ∧ f 6 2 = 2 ∧ f 3 1 = 1 ∧ BlockGood f bit fun e => if e = 0 then 1 else 0 := by
  have f02 : f 0 2 = 0x4C58 := (hf 0 2 (by decide)).trans (by decide)
  have f21 : f 2 1 = 1 := (hf 2 1 (by decide)).trans (by decide)
  have f31 : f 3 1 = 1 := (hf 3 1 (by decide)).trans (by decide)
  have f41 : f 4 1 = 1 := (hf 4 1 (by decide)).trans (by decide)
  have f51 : f 5 1 = 0 := (hf 5 1 (by decide)).trans (by decide)
  have f62 : f 6 2 = 2 := (hf 6 2 (by decide)).trans (by decide)
  have f88 : f 8 8 = 0 := (hf 8 8 (by decide)).trans (by decide)
  have f16 : f 0x10 4 = 32 := (hf 0x10 4 (by decide)).trans (by decide)
  have f20 : f 0x14 4 = 1 := (hf 0x14 4 (by decide)).trans (by decide)
  have f24 : f 0x18 4 = 0xA016D052 := (hf 0x18 4 (by decide)).trans (by decide)
  have f28 : f 0x1C 4 = 0 := (hf 0x1C 4 (by decide)).trans (by decide)
  refine ⟨by simp [HeaderLegal, f02, f21, f31, f41, f51, f62, f88, f16, f28], by simp [HeaderLength, f20, f62, f31], f16, f62, f31,
    fun j => if j = 0 then 0 else 4, fun _ e => decide (e = 0), ⟨rfl, fun j hj => ?_⟩, ?_, fun t h1 h2 => ?_, fun e he => ?_, [1], ?_, ?_, ?_⟩
  · have : j = 0 := by omega
    subst this
    refine ⟨⟨1, ⟨by decide, fun i hi => ?_⟩, .inr (.inl ⟨rfl, by simp [f62], fun e he => ?_⟩)⟩, by simp [f16]⟩
    · have : i = 0 ∨ i = 1 := by omega
      rcases this with rfl | rfl <;> rw [hb _ (by decide)] <;> decide
    · have : e = 0 ∨ e = 1 := by omega
      rcases this with rfl | rfl <;> simp only [if_true] <;> rw [hb _ (by decide)] <;> decide
  · simp [f16, f41]
  · rw [f16] at h2
    rw [hb t (by omega)]
    simp only [f41] at h1
    have : ∀ t, t < 256 → 4 ≤ t → (rawByte (32 + t / 8)).getLsbD (t % 8) = false := by decide +kernel
    exact this t (by omega) h1
  · have : e = 0 ∨ e = 1 := by omega
    rcases this with rfl | rfl <;> simp [planesElem, f41, f31, List.range_succ]
  · rw [f20]; rfl
  · rw [f24]; decide +kernel
  · intro t ht
    rw [f20] at ht
    rw [f31, f62]
    interval_cases t <;> decide

/-- A block whose first plane asks for the plane before it fails at it. -/
theorem first_plane_bad {f : Nat → Nat → Nat} {bit : Nat → Bool} (h4 : 0 < f 4 1) (hl : 2 ≤ 8 * f 0x10 4) (h0 : bit 0 = true)
    (h1 : bit 1 = true) : BlockBad f bit .xfmt := by
  refine ⟨fun _ => 0, fun _ _ => false, .inl ⟨0, h4, ⟨rfl, fun j hj => absurd hj (Nat.not_lt_zero j)⟩, .inr ⟨hl, 3, ⟨by decide, fun i hi => ?_⟩,
    .inl ⟨rfl, rfl, rfl⟩⟩⟩⟩
  have : i = 0 ∨ i = 1 := by omega
  rcases this with rfl | rfl
  · rw [Nat.zero_add, h0]; decide
  · rw [Nat.zero_add, h1]; decide

/-- The same block with bytes of its own in place of `n` of its bytes from `o` on. -/
def otherHart (v o : Nat) (l : List Nat) : Hart :=
  loadReg 0 8 (rawBlock.take o ++ l ++ rawBlock.drop (o + l.length)) (typed v vtByte supHart)

set_option maxRecDepth 100000 in
theorem witness_BlockDecode :
    let src := fun (h : Hart) (o : Nat) => (BitVec.ofNat 8 (readInt h 0 1 8 false o) : Byte)
    let f := fun (h : Hart) (off o n : Nat) => littleEndian n fun k => src h (off + o + k)
    let bit := fun (h : Hart) (off t : Nat) => (src h (off + 32 + t / 8)).getLsbD (t % 8)
    let ok := fun h : Hart => Runs (one cachedPte h) h ∧ VecReady (one cachedPte h) h plainHdr ∧ RegField h 31 ∧ RegField h 0 ∧
      fieldOf h.vtype 6 6 = 7 ∧ fieldOf h.vtype 18 4 = 1 ∧ fieldOf h.vtype 0 6 + 1 = 8 ∧ 2 ^ fieldOf h.vtype 22 2 = 1
    -- one block, then the end of the row, or bytes that are no header
    (∀ v ∈ [64, 300], let h := blockHart v
      ok h ∧ h.vl = v ∧ 0 + 32 + f h 0 0x10 4 = 64 ∧ HeaderLegal (f h 0) 1 8 ∧ HeaderLength (f h 0) ∧
        BlockGood (f h 0) (bit h 0) (fun e => if e = 0 then 1 else 0) ∧ (f h 0 6 2 + 255) / 256 = 1) ∧
    (let h := blockHart 300
     ¬ 300 < 64 + 32 + f h 64 0x10 4 ∧ ¬ HeaderLegal (f h 64) 1 8) ∧
    -- a source that ends in a header or in a block
    (ok (blockHart 31) ∧ (blockHart 31).vl < 0 + 32) ∧ (ok (blockHart 63) ∧ (blockHart 63).vl < 0 + 32 + f (blockHart 63) 0 0x10 4) ∧
    -- a length that is not that of N and WIDTH, and a first plane of mode 3
    (let h := otherHart 64 0x14 [2]
     ok h ∧ 0 + 32 + f h 0 0x10 4 ≤ h.vl ∧ HeaderLegal (f h 0) 1 8 ∧ ¬ HeaderLength (f h 0)) ∧
    (let h := otherHart 64 32 [3]
     ok h ∧ 0 + 32 + f h 0 0x10 4 ≤ h.vl ∧ HeaderLegal (f h 0) 1 8 ∧ HeaderLength (f h 0) ∧ BlockBad (f h 0) (bit h 0) .xfmt) := by
  intro src f bit ok
  have vec : ∀ h, h.vtype = vtByte → h.vl ≤ 1024 → h.gcount = 1 → h.vcfg = 0x802 → (h.vq = [] ∧ h.mq = [] ∧ h.sq = [] ∧ h.qstop = false ∧
      h.wait = none ∧ h.frozen = none ∧ (∀ g ∈ h.groups, g.st ≠ .spilled) ∧ h.binds = [] ∧ h.sbpend = []) →
      VecReady (one cachedPte h) h plainHdr := fun h h1 h2 h3 h4 h5 =>
    ⟨rfl, h5, fun p hp _ hc => by
      simp only [one, List.mem_singleton] at hp
      exact absurd (by rw [hp]; rfl) hc, .inl rfl, by decide, nofun, nofun, by rw [h1]; unfold RefusedType; decide, by rw [h3], by
      rw [h1, h3, h4]
      have : elementsPerLane 0x802 vtByte = 4 := by decide
      omega⟩
  have good : ∀ v, (∀ o, o < 64 → src (blockHart v) o = rawByte o) → f (blockHart v) 0 0x10 4 = 32 ∧ HeaderLegal (f (blockHart v) 0) 1 8 ∧
      HeaderLength (f (blockHart v) 0) ∧ BlockGood (f (blockHart v) 0) (bit (blockHart v) 0) (fun e => if e = 0 then 1 else 0) ∧
      (f (blockHart v) 0 6 2 + 255) / 256 = 1 := by
    intro v hs
    obtain ⟨h1, h2, h3, h4, -, h5⟩ := rawBlock_good (f := f (blockHart v) 0) (bit := bit (blockHart v) 0)
      (fun o n h => by
        simp only [f, littleEndian]
        congr 1
        refine List.map_congr_left fun k hk => ?_
        rw [List.mem_range] at hk
        rw [hs _ (by omega), Nat.zero_add])
      (fun t h => by
        simp only [bit]
        rw [hs _ (by omega), Nat.zero_add])
    exact ⟨h3, h1, h2, h5, by rw [h4]⟩
  have oks : ∀ h, VecReady (one cachedPte h) h plainHdr → (h.vtype = vtByte ∧ RegField h 31 ∧ RegField h 0) → ok h :=
    fun h h1 h2 => ⟨rfl, h1, h2.2.1, h2.2.2, by rw [h2.1]; decide⟩
  have okv : ∀ v ∈ [31, 63, 64, 300], ok (blockHart v) := by
    simp only [List.mem_cons, List.not_mem_nil, or_false, forall_eq_or_imp, forall_eq]
    refine ⟨oks _ (vec _ rfl ?_ rfl rfl ?_) ⟨rfl, ?_, ?_⟩, oks _ (vec _ rfl ?_ rfl rfl ?_) ⟨rfl, ?_, ?_⟩,
      oks _ (vec _ rfl ?_ rfl rfl ?_) ⟨rfl, ?_, ?_⟩, oks _ (vec _ rfl ?_ rfl rfl ?_) ⟨rfl, ?_, ?_⟩⟩ <;>
      first | decide | (unfold RegField; decide)
  refine ⟨fun v hv => ?_, by unfold HeaderLegal; decide +kernel, ⟨okv 31 (by decide), by decide⟩, ⟨okv 63 (by decide), by decide +kernel⟩,
    ⟨oks _ (vec _ rfl (by decide) rfl rfl (by decide)) ⟨rfl, by unfold RegField; decide, by unfold RegField; decide⟩,
      by unfold HeaderLegal HeaderLength; decide +kernel⟩,
    oks _ (vec _ rfl (by decide) rfl rfl (by decide)) ⟨rfl, by unfold RegField; decide, by unfold RegField; decide⟩, by decide +kernel,
    by unfold HeaderLegal; decide +kernel, by unfold HeaderLength; decide +kernel, first_plane_bad (by decide +kernel) (by decide +kernel) (by decide +kernel) (by decide +kernel)⟩
  simp only [List.mem_cons, List.not_mem_nil, or_false] at hv
  rcases hv with rfl | rfl
  · have g := good 64 (by decide +kernel)
    exact ⟨okv 64 (by decide), rfl, by rw [g.1], g.2⟩
  · have g := good 300 (by decide +kernel)
    exact ⟨okv 300 (by decide), rfl, by rw [g.1], g.2⟩

/-! #### Memory of the lowest 512 MiB -/

theorem reaches_of {s : State} {h : Hart} {pte p : Nat} {q : TlbPort} (hw : s.walkAway (via s h q) p 1 = false)
    (ht : s.translate (via s h q) p = some (xl pte p)) (hd : s.dies = []) (hc : s.cur = 0) (hi : pteIdem pte = false) (ha : p < 2 ^ 29) :
    ReachesByte s h q (xl pte) p := by
  refine ⟨hw, ht, path_one hi ha, ?_, ?_⟩
  · have r : homeDie p = 0 := by simp [homeDie, region_one ha]
    simp [State.cutOff, hc, xl, r, State.reaches, dieOf]
  · show (s.frameInfo (p / 65536)).slot = none
    rw [class_one hd ha]; rfl

theorem reaches_one {s : State} {h : Hart} {pte p : Nat} {q : TlbPort} (hs : s.tlb = [identity pte]) (hd : s.dies = [])
    (hc : s.cur = 0) (hx : h.ctx = 0) (hi : pteIdem pte = false) (hp : pte < 2 ^ 64) (ha : p < 2 ^ 29) :
    ReachesByte s h q (xl pte) p :=
  have die : dieOf s.cur = 0 := by rw [hc]; rfl
  reaches_of (walkAway_one _ hs hx die ha) (translate_one _ hs hx die ha hp) hd hc hi ha

/-- Every table of a walk can be reached where memory lists nothing. -/
theorem walks_one {s : State} {h : Hart} {pte : Nat} (q : TlbPort) (hs : s.tlb = [identity pte] ∧ s.mem = [] ∧ s.pkg.ctxtbase = 0 ∧ s.cur = 0)
    (hx : h.ctx = 0) : WalksReach s h q := by
  intro a
  obtain ⟨ht, hm, hp, hc⟩ := hs
  have die0 : dieOf (via s h q).id = 0 := by show dieOf s.cur = 0; rw [hc]; rfl
  have ctx0 : (via s h q).ctx = 0 := hx
  have walk : ∀ z a, s.tlbHit (.walk 0) 0 a z = none := fun z a => by simp [State.tlbHit, ht, identity]
  have root : s.rootOf 0 = none := by
    have : Memory.num [] 0 8 = 0 := by decide
    simp [State.rootOf, hp, hm, this]
  have away : s.anyAway 0 (s.walkReads 0 0 (a % 2 ^ 64)) = false := by
    have r : homeDie 0 = 0 := by decide
    simp [State.anyAway, State.walkReads, walk, State.rootReads, root, hp, r, State.reaches]
  simp only [State.walkAway, unit_one, List.any_cons, List.any_nil, die0, ctx0, away, Bool.and_false, Bool.or_false]

theorem plain_one {s : State} {a : Nat} (hd : s.dies = []) (ha : a < 2 ^ 29) : s.PlainFrame (a / 65536) := by
  unfold State.PlainFrame
  rw [class_one hd ha]
  exact ⟨rfl, rfl, rfl, rfl⟩

theorem canStore_one {s : State} {pte : Nat} {P : Nat → Prop} (hd : s.dies = []) (hP : ∀ a, P a → a < 2 ^ 29) :
    CanStore s (xl pte) P :=
  ⟨fun a ha => .inr (plain_one hd (hP a ha)), fun _ _ _ _ e => e⟩

/-- Page tables under which context 0 maps the lowest 512 MiB to itself: the context's descriptor, a table, a table, a page. -/
def tables : List Host.Cell := [(0x10000, 0x01), (0x10002, 0x02), (0x20000, 0xC1), (0x20002, 0x03), (0x30000, 0x9F)]
/-- The machine of `one` whose TLB is empty, with these tables and `m` above them in memory. -/
def mapped (m : List Host.Cell) (h : Hart) : State :=
  { one cachedPte h with tlb := [], mem := tables ++ m, pkg := { Pkg.reset with ctxtbase := 0x10000 } }

/-- Hart 0 of context 0 walks through those tables, whatever else memory holds. -/
def Tabled (s : State) : Prop :=
  s.tlb = [] ∧ s.dies = [] ∧ s.cur = 0 ∧ s.pkg.ctxtbase = 0x10000 ∧
    ∀ q, 0x10000 ≤ q → q < 0x40000 → Memory.read s.mem q = Memory.read tables q

/-- What the tables of `mapped` hold, in a memory that agrees with them. -/
theorem tables_num {m : List Host.Cell} (hm : ∀ q, 0x10000 ≤ q → q < 0x40000 → Memory.read m q = Memory.read tables q) {a : Nat}
    (h1 : 0x10000 ≤ a) (h2 : a + 8 ≤ 0x40000) : Memory.num m a 8 = Memory.num tables a 8 := by
  refine congrArg ofBytes (List.map_congr_left fun x hx => hm x ?_ ?_) <;>
    · simp only [span, List.mem_range'_1] at hx
      omega

theorem tables_zero {a : Nat} (h : 0x20008 ≤ a) (h' : a + 8 ≤ 0x30000 ∨ 0x30008 ≤ a) : Memory.num tables a 8 = 0 := by
  have e : Memory.readN tables a 8 = (span a 8).map fun _ => 0 := by
    refine List.map_congr_left fun x hx => ?_
    simp only [span, List.mem_range'_1] at hx
    simp only [tables, Memory.read]
    rw [if_neg (by omega), if_neg (by omega), if_neg (by omega), if_neg (by omega), if_neg (by omega)]
  rw [Memory.num, e]
  rfl

/-- The walk through those tables, and the places that it reads. -/
theorem walk_tables {s : State} (hm : ∀ q, 0x10000 ≤ q → q < 0x40000 → Memory.read s.mem q = Memory.read tables q)
    (hp : s.pkg.ctxtbase = 0x10000) (hd : s.dies = []) (any : Bool) (a : Nat) :
    s.walk 0 0 any a = (if a < 2 ^ 29 then some (xl cachedPte a) else none) ∧ s.anyAway 0 (s.rootReads 0 0 a) = false := by
  have die : ∀ d, s.die d = Die.reset := fun d => by simp [State.die, hd, getD, find?]
  have root : s.rootOf 0 = some 0x20000 := by
    have n1 : Memory.num s.mem 0x10000 8 = 0x20001 := (tables_num hm (by decide) (by decide)).trans (by decide)
    have n2 : Memory.num s.mem 0x10008 8 = 0 := (tables_num hm (by decide) (by decide)).trans (by decide)
    simp only [State.rootOf, hp, Nat.mul_zero, Nat.add_zero, n1, n2]
    decide
  have num2 : ∀ i, i < 8192 → Memory.num s.mem (0x20000 + 8 * i) 8 = if i = 0 then 0x300C1 else 0 := by
    intro i hi
    rw [tables_num hm (by omega) (by omega)]
    split
    · subst i; decide
    · exact tables_zero (by omega) (by omega)
  have num1 : ∀ i, i < 8192 → Memory.num s.mem (0x30000 + 8 * i) 8 = if i = 0 then 0x9F else 0 := by
    intro i hi
    rw [tables_num hm (by omega) (by omega)]
    split
    · subst i; decide
    · exact tables_zero (by omega) (by omega)
  have wf0 : ∀ b l, s.wellFormedPte 0 b 0 l = false := fun b l => by simp [State.wellFormedPte, pteV]
  have pool : ∀ d p, s.pool d p = vat Die.reset.pools p (Pool.reset 0) := fun d p => by simp only [State.pool, die]
  have wf2 : ∀ b, s.wellFormedPte 0 b 0x300C1 2 = true := by
    intro b
    simp only [State.wellFormedPte, State.inSpan, State.exists?, State.spanOf, State.lossless, State.frameInfo, pool, die]
    cases b <;> decide
  have wf1 : ∀ b, s.wellFormedPte 0 b 0x9F 1 = true := by
    intro b
    simp only [State.wellFormedPte, State.inSpan, State.exists?, State.spanOf, State.lossless, State.frameInfo, pool, die]
    cases b <;> decide
  have b2 : bits a 42 13 < 8192 := Nat.mod_lt _ (by decide)
  have b1 : bits a 29 13 < 8192 := Nat.mod_lt _ (by decide)
  have p3 : pteSize 0x300C1 = 3 := by decide
  have p2 : pteSize 0x9F = 2 := by decide
  have f3 : pteFrame 0x300C1 * 65536 = 0x30000 := by decide
  have f2 : pteFrame 0x9F * 65536 = 0 := by decide
  have small : ∀ x, x < 2 ^ 29 → s.reaches 0 (homeDie x) = true := fun x hx => by
    simp [homeDie, region_one hx, State.reaches]
  constructor
  · rw [State.walk]
    by_cases h55 : a / 2 ^ 55 = 0
    · simp only [h55, ne_eq, not_true_eq_false, if_false, root, State.walkFrom, num2 _ b2]
      by_cases e2 : bits a 42 13 = 0
      · simp only [e2, if_true, wf2, p3, f3, num1 _ b1, Bool.not_true, Bool.false_eq_true, if_false]
        by_cases e1 : bits a 29 13 = 0
        · have : a < 2 ^ 29 := by simp only [bits] at e1 e2; omega
          have b0 : bits a 0 29 = a := by simp only [bits]; omega
          simp only [e1, if_true, wf1, p2, f2, this, b0, Bool.not_true, Bool.false_eq_true, if_false, Nat.zero_add]
          simp [xl, cachedPte]
        · have : ¬ a < 2 ^ 29 := by simp only [bits] at e1; omega
          simp only [e1, if_false, wf0, this, Bool.not_false, if_true]
      · have : ¬ a < 2 ^ 29 := by simp only [bits] at e2; omega
        simp only [e2, if_false, wf0, this, Bool.not_false, if_true]
    · have : ¬ a < 2 ^ 29 := by omega
      simp only [h55, ne_eq, not_false_eq_true, if_true, this, if_false]
  · rw [State.anyAway, List.any_eq_false]
    intro x hx
    rw [small x, Bool.not_true]
    · exact Bool.false_ne_true
    simp only [State.rootReads, hp, root, Option.elim_some, State.entriesFrom, num2 _ b2, Nat.mul_zero, Nat.add_zero] at hx
    by_cases e2 : bits a 42 13 = 0
    · simp only [e2, if_true, wf2, p3, f3, num1 _ b1] at hx
      by_cases e1 : bits a 29 13 = 0
      · simp [e1, p2] at hx
        omega
      · simp [e1, wf0] at hx
        omega
    · simp [e2, wf0] at hx
      omega

theorem agree_mapped {s : State} {h : Hart} {p : TlbPort} {W : Nat → Prop} (hs : Tabled s) (hx : h.ctx = 0)
    (hW : ∀ q, W q → q < 0x10000 ∨ 0x40000 ≤ q) : TlbsAgree s h p W := by
  obtain ⟨ht, hd, hc, hp, hm⟩ := hs
  intro l m hl hq a
  have hl : l = [] := hl.elim id fun ⟨t, h1, _⟩ => by rw [ht] at h1; exact absurd h1 List.not_mem_nil
  subst hl
  have hm' : ∀ q, 0x10000 ≤ q → q < 0x40000 → Memory.read m q = Memory.read tables q := fun q h1 h2 => by
    rw [hq q fun w => by have := hW q w; omega, hm q h1 h2]
  have die0 : dieOf (via s h p).id = 0 := by show dieOf s.cur = 0; rw [hc]; rfl
  have ctx0 : (via s h p).ctx = 0 := hx
  have W1 := fun a => walk_tables (s := { s with tlb := [], mem := m }) hm' hp hd false a
  have W2 := walk_tables hm hp hd false a
  refine ⟨?_, ?_⟩
  · have e : s.walk h.ctx (dieOf s.cur) false a = if a < 2 ^ 29 then some (xl cachedPte a) else none := by rw [hc, hx]; exact W2.1
    refine Eq.trans ?_ ((W1 a).1.trans e.symm)
    simp only [State.translate, State.tlbIn, State.tlbHit, List.find?_nil, Option.map_none, State.walkVia, die0, ctx0]
  · have := (W1 (a % 2 ^ 64)).2
    simp only [State.walkAway, unit_one, List.any_cons, List.any_nil, State.walkReads, State.tlbHit, List.find?_nil, die0, ctx0,
      Bool.or_false] at this ⊢
    simp only [this, Bool.and_false]

theorem reads_tables {m : List Host.Cell} (hm : ∀ c ∈ m, 0x40000 ≤ c.1) : ∀ q, 0x10000 ≤ q → q < 0x40000 →
    Memory.read (tables ++ m) q = Memory.read tables q := by
  intro q _ h2
  have z : ∀ l : List Host.Cell, (∀ c ∈ l, 0x40000 ≤ c.1) → Memory.read l q = 0 := by
    intro l
    induction l with
    | nil => intro; rfl
    | cons c t ih =>
      intro hl
      obtain ⟨k, b⟩ := c
      have := hl (k, b) (.head _)
      simp only [Memory.read]
      rw [if_neg (by simp only at this; omega), ih fun c hc => hl c (.tail _ hc)]
  simp only [tables, List.cons_append, List.nil_append, Memory.read, z m hm]

theorem tabled_mapped {m : List Host.Cell} {h : Hart} (hm : ∀ c ∈ m, 0x40000 ≤ c.1) : Tabled (mapped m h) :=
  ⟨rfl, rfl, rfl, rfl, reads_tables hm⟩

theorem walks_mapped {s : State} {h : Hart} (q : TlbPort) (hs : Tabled s) (hx : h.ctx = 0) : WalksReach s h q := by
  intro a
  have := agree_mapped (p := q) (W := fun _ => False) hs hx (fun _ w => w.elim) [] s.mem (.inl rfl) (fun _ _ => rfl) a
  have e : { s with tlb := [], mem := s.mem } = s := by rw [← hs.1]
  exact e ▸ this.2

theorem reaches_mapped {s : State} {h : Hart} {p : Nat} {q : TlbPort} (hs : Tabled s) (hx : h.ctx = 0) (ha : p < 2 ^ 29) :
    ReachesByte s h q (xl cachedPte) p := by
  have := agree_mapped (p := q) (W := fun _ => False) hs hx (fun _ w => w.elim) [] s.mem (.inl rfl) (fun _ _ => rfl) p
  have e : { s with tlb := [], mem := s.mem } = s := by rw [← hs.1]
  have t := e ▸ this
  obtain ⟨-, hd, hc, hp, hm⟩ := hs
  refine reaches_of t.2 (t.1.trans ?_) hd hc (by decide) ha
  rw [hc, hx]
  exact (walk_tables hm hp hd false p).1.trans (if_pos ha)

/-- An XDEC at the head of the queue that has started, with its state, in a hart whose source is `rawBlock`; and stopped by a
fault, in the trap that names it. -/
def decoding (n : Nat) (x : XState) : Hart :=
  let h := blockHart n
  { h with vq := [{ e := ({ h.newEntry 0 (.xdec plainHdr 1 0) 0 0 0 0 with started := true, eff := n } : Entry).setXd x,
                    redeal := none }] }
def decodeStopped : Hart :=
  let h := decoding 64 XState.start
  { withG h 0x60000 0 0 with inTrap := true, qstop := true, vcp := vcpOf .vector 0 h.pc, status := 0x1F13,
                             vq := h.vq.map fun v => { v with e := { v.e with stopped := true } } }

theorem witness_DecoderState :
    (let h := typed 2 vtByte (withG userHart 0x60000 0 0)
     Runs (one cachedPte h) h ∧ h.sup = false) ∧
    (let h := { withG supHart 0x60000 0 0 with status := 0x1F13, vtype := 0x1000000000 }
     Runs (one cachedPte h) h ∧ h.sup = true ∧ h.vtype.getLsbD 36 = true ∧ h.MayTrap) ∧
    (let h := { typed 2 vtByte (withG supHart 0x20000000 0 0) with status := 0x1F13 }
     let s := one cachedPte h
     Runs s h ∧ h.sup = true ∧ h.vtype.getLsbD 36 = false ∧ h.MayTrap ∧ s.walkAway (h.who s.cur) (h.rg 1).toNat 0x2240 = false ∧
       ∀ p ∈ [(AKind.r, Cause.pgfltR, false), (.w, .pgfltW, true)], h.accessWaits (h.rg 1).toNat 0x2240 p.2.2 = false ∧
         s.probe1 (h.who s.cur) { e := 0, va := (h.rg 1).toNat, n := 0x2240, k := p.1, al := 64 } = some (p.2.1, 0x20000000)) ∧
    (∀ p ∈ [(typed 2 vtByte (withG supHart 0x60000 0 0), false), (decodeStopped, true)],
     let s := one cachedPte p.1
     Runs s p.1 ∧ s.memOk = true ∧ p.1.sup = true ∧ p.1.vtype.getLsbD 36 = false ∧ p.1.strip = none ∧
       (p.1.rg 1).toNat + 0x2240 ≤ 2 ^ 55 ∧ p.1.accessWaits (p.1.rg 1).toNat 0x2240 true = false ∧
       s.probe1 (p.1.who s.cur) { e := 0, va := (p.1.rg 1).toNat, n := 0x2240, k := .w, al := 64 } = none ∧
       s.probe1 (p.1.who s.cur) { e := 0, va := (p.1.rg 1).toNat, n := 0x2240, k := .r, al := 64 } = none ∧
       p.1.xdecStopped.isSome = p.2) ∧
    (∀ h ∈ [typed 2 vtByte (withG supHart 0x60000 0 0), decodeStopped],
      (∀ p, 0x60000 ≤ p ∧ p < 0x60000 + 0x2240 → ReachesByte (one cachedPte h) h .data (xl cachedPte) p) ∧
      RoomFor (one cachedPte h) (xl cachedPte) (fun p => 0x60000 ≤ p ∧ p < 0x60000 + 0x2240) ∧
      CanStore (one cachedPte h) (xl cachedPte) fun p => 0x60000 ≤ p ∧ p < 0x60000 + 0x2240) ∧
    (let s : State := { one cachedPte decodeStopped with mem := cellsAt 0x60000 4 0x4C585853 ++ [(0x60004, 1)] }
     let field := fun o n => littleEndian n fun i => byteAt s s (xl cachedPte) (0x60000 + o + i)
     Runs s decodeStopped ∧ decodeStopped.MayTrap ∧ field 0 4 = 0x4C585853 ∧ field 4 2 = 1 ∧ field 6 1 = 0 ∧ field 7 1 = 0) := by
  refine ⟨⟨rfl, by decide⟩, ⟨rfl, by decide, by decide, .inr (by decide)⟩, ⟨rfl, by decide, by decide, .inr (by decide), by decide, by decide⟩,
    ?_, fun h hm => ?_, rfl, .inr (by decide +kernel), ?_⟩
  · unfold Runs; decide +kernel
  · have hc : h.ctx = 0 := by
      simp only [List.mem_cons, List.not_mem_nil, or_false] at hm
      rcases hm with rfl | rfl <;> rfl
    exact ⟨fun p hp => reaches_one rfl rfl rfl hc (by decide) (by decide) (by omega),
      room_of (List.range' (0x60000 / 64) 137) rfl (by simp) fun a ha => by
        show a / 64 ∈ _
        rw [List.mem_range'_1]
        omega, canStore_one rfl fun a ha => by omega⟩
  · decide +kernel

/-- A record of STATE 1 at 0x60000 with the header of `rawBlock`, and one whose header is zero. -/
def recordState (header : List Nat) : State :=
  { one cachedPte decodeStopped with
      mem := cellsAt 0x60000 4 0x4C585853 ++ [(0x60004, 1), (0x60006, 1)] ++ (span 0x60010 header.length).zip (header.map fun x => BitVec.ofNat 8 x) }

theorem witness_DecoderState_restore :
    ∀ q ∈ [(rawBlock.take 32, true), ([], false)],
      let s := recordState q.1
      let field := fun o n => littleEndian n fun i => byteAt s s (xl cachedPte) (0x60000 + o + i)
      let f := fun o n => field (0x10 + o) n
      Runs s decodeStopped ∧ decodeStopped.MayTrap ∧ field 0 4 = 0x4C585853 ∧ field 4 2 = 1 ∧ field 6 1 = 1 ∧ field 7 1 = 0 ∧
        ∃ x, decodeStopped.xdecStopped = some x ∧ ((field 0x36 10 = 0 ∧ field 8 4 + 32 + f 0x10 4 ≤ (if x.started then x.eff else x.vl) ∧
          HeaderLegal f (fieldOf x.vtype 18 4) (fieldOf x.vtype 0 6 + 1) ∧ HeaderLength f) ↔ q.2 = true) := by
  simp only [List.mem_cons, List.not_mem_nil, or_false, forall_eq_or_imp, forall_eq]
  refine ⟨⟨rfl, .inr (by decide +kernel), by decide +kernel, by decide +kernel, by decide +kernel, by decide +kernel, _, rfl, ?_⟩, rfl,
    .inr (by decide +kernel), by decide +kernel, by decide +kernel, by decide +kernel, by decide +kernel, _, rfl, ?_⟩ <;>
    (unfold HeaderLegal HeaderLength; decide +kernel)

set_option maxRecDepth 100000 in
/-- A write step is due when the group's blocks are done; a block is due before that. -/
theorem witness_DecoderEvents :
    (let h := decoding 64 { s := 256, off := 64, mode := 0, dec := none, ahead := [] }
     (one cachedPte h).hart? 0 = some h ∧ ∃ o e, h.xdecHead = some (o, e) ∧ e.started = true ∧ e.progress < e.eff ∧ h.sq = [] ∧
       e.pos = [] ∧ (∀ v ∈ h.vq, v.redeal = none) ∧ 1 ≤ h.gcount ∧ min 256 e.eff ≤ e.xd.s) ∧
    (let h := decoding 64 XState.start
     (one cachedPte h).hart? 0 = some h ∧ ∃ o e, h.xdecHead = some (o, e) ∧ e.started = true ∧ e.progress < e.eff ∧ h.sq = [] ∧
       e.xd.s < min 256 e.eff ∧ e.xd.dec = none ∧ e.xd.mode = 0 ∧ fieldOf e.vtype 18 4 = 1 ∧ fieldOf e.vtype 0 6 + 1 = 8 ∧
       let src := fun i : Nat => ((o.source (o.env h e) i 1).getD 0 0 : Byte)
       let f := fun i n : Nat => littleEndian n fun k => src (e.xd.off + i + k)
       e.xd.off + 32 + f 0x10 4 ≤ e.eff ∧ HeaderLegal f 1 8 ∧ HeaderLength f ∧
         BlockGood f (fun t => (src (e.xd.off + 32 + t / 8)).getLsbD (t % 8)) fun e => if e = 0 then 1 else 0) := by
  refine ⟨⟨rfl, _, _, rfl, ?_⟩, rfl, _, _, rfl, ?_⟩
  · decide +kernel
  · refine ⟨by decide +kernel, by decide +kernel, by decide +kernel, by decide +kernel, by decide +kernel, by decide +kernel,
      by decide +kernel, by decide +kernel, ?_⟩
    intro src f
    have hs : ∀ o, o < 64 → src o = rawByte o := by decide +kernel
    obtain ⟨h1, h2, h3, -, -, h5⟩ := rawBlock_good (f := f) (bit := fun t => (src (0 + 32 + t / 8)).getLsbD (t % 8))
      (fun o n h => by
        simp only [f, littleEndian]
        congr 1
        refine List.map_congr_left fun k hk => ?_
        rw [List.mem_range] at hk
        show BitVec.toNat (src (0 + o + k)) * _ = _
        rw [Nat.zero_add, hs _ (by omega)])
      (fun t h => by rw [hs _ (by omega), Nat.zero_add])
    exact ⟨by rw [h3]; decide, h1, h2, h5⟩

/-- Two elements of 32 bits at 0x50000, cached: a range that the hart reads and writes. -/
theorem touches_two {p : Nat} {act : Nat → Prop} (hact : ∀ e, act e → e < 2)
    (h : ∃ e, act e ∧ Touches (fun e => 8 * (0x50000 : Int) + (e * 32 : Nat)) 32 e p) : p < 2 ^ 29 := by
  obtain ⟨e, ha, h1, h2⟩ := h
  have := hact e ha
  simp only at h1 h2
  omega

def memHart : Hart := loadReg 0 32 [5, 6] (loadReg 1 32 [0, 1] (typed 2 vtInt (withG supHart 0x50000 4 0)))

/-- A strip that buffers two bytes of one line. -/
def openStrip : Strip := { base := 7, seq := 0, buf := [(0x50000, 1), (0x5003F, 2)], at_ := [] }

theorem elems_two (m : Bool) (b : Option Strip) (hb : b = none ∨ b = some openStrip) (q : TlbPort) (k : AKind) (al : Nat)
    (hal : al = 1 ∨ al = 4) {act : Nat → Prop} (hact : ∀ e, act e → e < 2) :
    ElemsOk (cond m (mapped [] { memHart with strip := b }) (one cachedPte { memHart with strip := b })) { memHart with strip := b } q (xl cachedPte) (fun e => 8 * (0x50000 : Int) + (e * 32 : Nat)) 32 k al act := by
  refine ⟨fun e he => ?_, room_of [0x50000 / 64] (by cases m <;> rfl) (by decide) fun a ⟨e, he, h1, h2⟩ => ?_⟩
  swap
  · have := hact e he
    simp only at h1 h2
    show a / 64 ∈ [0x50000 / 64]
    rw [List.mem_singleton]
    omega
  have h2 := hact e he
  refine ⟨by simp only; omega, by simp only; omega, ?_, fun p hp => ?_⟩
  swap
  · cases m
    · exact reaches_one rfl rfl rfl rfl (by decide) (by decide) (touches_two hact ⟨e, he, hp⟩)
    · exact reaches_mapped (tabled_mapped (by decide)) rfl (touches_two hact ⟨e, he, hp⟩)
  have : e = 0 ∨ e = 1 := by omega
  cases m <;> rcases hb with rfl | rfl <;> rcases this with rfl | rfl <;> rcases hal with rfl | rfl <;> cases k <;> cases q <;> decide

theorem witness_VectorLoadsAndStores :
    let h := memHart
    let s := one cachedPte h
    let unit := fun e : Nat => 8 * (0x50000 : Int) + (e * 32 : Nat)
    (Runs s h ∧ VecReady s h plainHdr ∧ RegField h 0 ∧ RegField h 1 ∧ RegField h 31 ∧ s.memOk = true ∧ h.strip = none ∧
      h.ilk = [] ∧ h.lcache = [] ∧ (h.rg 1).toNat = 0x50000 ∧ (h.rg 2).toInt = 4 ∧ s.posted s.cur = false ∧
      (s.stn (stnOf s.cur)).dirty = [] ∧ (vreg h.v 0).tag.map Tag.w = some 32 ∧ (vreg h.v 31).tag = none ∧
      (∀ e, e < 2 → h.activeElem plainHdr e ∧ readInt h 1 1 32 false e = e)) ∧
    (∀ q, ElemsOk s h q (xl cachedPte) unit 32 .r 1 (h.activeElem plainHdr) ∧
      ElemsOk s h q (xl cachedPte) unit 32 .w 1 (h.activeElem plainHdr)) ∧
    (CanStore s (xl cachedPte) fun p => ∃ e, h.activeElem plainHdr e ∧ Touches unit 32 e p) ∧
    (∀ p, (∃ e, h.activeElem plainHdr e ∧ Touches unit 32 e p) → s.PlainFrame ((xl cachedPte p).pa / 65536)) := by
  have ha : ∀ e, memHart.activeElem plainHdr e → e < 2 := fun e h => h.1
  refine ⟨⟨rfl, vecReady_of (by decide) (by unfold RefusedType; decide) (by decide), ?_⟩,
    fun q => ⟨elems_two false none (.inl rfl) q .r 1 (.inl rfl) ha, elems_two false none (.inl rfl) q .w 1 (.inl rfl) ha⟩, canStore_one rfl fun p hp => touches_two ha hp,
    fun p hp => plain_one rfl (touches_two ha hp)⟩
  unfold RegField Hart.activeElem; decide

/-- Element 1 of a unit-stride access at 0x1FFFFFFC lies on a page that is not mapped: VLDFF trims at it, the others stop. -/
theorem witness_VectorFaults :
    let h := typed 2 vtInt (withG supHart 0x1FFFFFFC 0 0)
    let s := one cachedPte h
    let unit := fun e : Nat => 8 * (0x1FFFFFFC : Int) + (e * 32 : Nat)
    Runs s h ∧ VecReady s h plainHdr ∧ (∀ p, WalksReach s h p) ∧ h.activeElem plainHdr 0 ∧ h.activeElem plainHdr 1 ∧ unit 1 < 2 ^ 67 ∧
      (∀ p ∈ [TlbPort.row, .gather], probeElem s h p unit 32 .r 1 0 = none ∧ probeElem s h p unit 32 .w 1 0 = none ∧
        probeElem s h p unit 32 .r 1 1 = some (.pgfltR, 0x20000000) ∧
        probeElem s h p unit 32 .w 1 1 = some (.pgfltW, 0x20000000)) ∧
      (let q := typed 1 vtInt (withG supHart 0x20000000 0 0)
       Runs (one cachedPte q) q ∧ q.activeElem plainHdr 0 ∧
         probeElem (one cachedPte q) q .row (fun e : Nat => 8 * (0x20000000 : Int) + (e * 32 : Nat)) 32 .r 1 0 =
           some (.pgfltR, 0x20000000)) := by
  refine ⟨rfl, vecReady_of (by decide) (by unfold RefusedType; decide) (by decide), fun p => walks_one p ⟨rfl, rfl, rfl, rfl⟩ rfl,
    ?_, ?_, ?_, ?_, rfl, ?_, ?_⟩ <;>
    first | decide | (unfold Hart.activeElem; decide)

theorem witness_VectorAtomics :
    (let h := memHart
     let s := one cachedPte h
     let B := fun e : Nat => 8 * (0x50000 : Int) + (e * 32 : Nat)
     Runs s h ∧ VecReady s h plainHdr ∧ RegField h 0 ∧ RegField h 1 ∧ fieldOf h.vtype 18 4 < 2 ∧
       0 + 1 < 8 * 2 ^ fieldOf h.vcfg 0 2 ∧ h.ilk = [] ∧ h.strip = none ∧ s.memOk = true ∧
       (∀ e, e < 2 → readInt h 1 1 32 false e = e) ∧
       ElemsOk s h .gather (xl cachedPte) B 32 .rw 4 (h.activeElem plainHdr) ∧
       ∀ p, (∃ e, h.activeElem plainHdr e ∧ Touches B 32 e p) → s.PlainFrame ((xl cachedPte p).pa / 65536) ∧
         regionOf (xl cachedPte p).pa ≠ .host ∧ find? (s.stn (stnOf s.cur)).dirty (xl cachedPte p).pa = none) ∧
    (let h := { memHart with strip := some { base := 0, seq := 0, buf := [], at_ := [] } }
     Runs (one cachedPte h) h ∧ VecReady (one cachedPte h) h plainHdr ∧ h.strip ≠ none) ∧
    (let h := typed 2 vtByte userHart
     Runs (one cachedPte h) h ∧ h.MayTrap ∧ h.vtype.getLsbD 36 = false ∧ fieldOf h.vtype 0 6 = 7 ∧ RegField h 31 ∧
       ¬ 31 + 1 < 8 * 2 ^ fieldOf h.vcfg 0 2) := by
  have ha : ∀ e, memHart.activeElem plainHdr e → e < 2 := fun e h => h.1
  refine ⟨⟨rfl, vecReady_of (by decide) (by unfold RefusedType; decide) (by decide), ?_, ?_, ?_, ?_, ?_, ?_, ?_, ?_,
    elems_two false none (.inl rfl) .gather .rw 4 (.inr rfl) ha, fun p hp => ⟨?_, ?_, rfl⟩⟩,
    ⟨rfl, vecReady_of (by decide) (by unfold RefusedType; decide) (by decide), ?_⟩, rfl, .inl ?_, ?_⟩
  case refine_9 => exact plain_one rfl (touches_two ha hp)
  case refine_10 => rw [show (xl cachedPte p).pa = p from rfl, region_one (touches_two ha hp)]; exact nofun
  all_goals first | decide | (unfold RegField; decide)

theorem witness_Strips :
    (let h := typed 2 vtInt (withG supHart 0x50000 0 0)
     Runs (one cachedPte h) h ∧ (one cachedPte h).memOk = true ∧ (one cachedPte h).eager = true ∧ h.LanesIdle ∧
       LanesFree (one cachedPte h) ∧ h.strip = none ∧ h.sbcap < 2 ^ 26 ∧ h.vq = [] ∧ h.held = none ∧ h.frozen = none ∧ h.sbpend = [] ∧
       h.flushAt = 0) ∧
    (let h := { memHart with strip := some openStrip }
     let s := mapped [] h
     let lines := fun l : List Nat => l.Nodup ∧ ∀ k ∈ l, (∃ x ∈ openStrip.buf, x.1 / 64 = k) ∨
       ∃ p, (∃ e, h.activeElem plainHdr e ∧ Touches (fun e => 8 * (0x50000 : Int) + (e * 32 : Nat)) 32 e p) ∧ p / 64 = k
     Runs s h ∧ s.memOk = true ∧ VecReady s h plainHdr ∧ h.strip = some openStrip ∧ openStrip.Sorted ∧
       (∀ q, StripWritable s h q (xl cachedPte) openStrip) ∧
       (∀ q, ElemsOk s h q (xl cachedPte) (fun e => 8 * (0x50000 : Int) + (e * 32 : Nat)) 32 .w 1 (h.activeElem plainHdr)) ∧
       RegField h 0 ∧ h.ilk = [] ∧ (vreg h.v 0).tag.map Tag.w = some 32 ∧
       (∀ l, lines l → l.length ≤ min h.sbcap ((16 - fieldOf h.vcfg 8 5) * 64 * h.gcount)) ∧
       ¬ ∃ p, (∃ e, h.activeElem plainHdr e ∧ Touches (fun e => 8 * (0x50000 : Int) + (e * 32 : Nat)) 32 e p) ∧
         ∀ x ∈ openStrip.buf, x.1 / 64 ≠ p / 64) ∧
    (let b : Strip := { openStrip with buf := [(0x60000, 1)] }
     let h := { memHart with strip := some b, sbcap := 0 }
     Runs (one cachedPte h) h ∧ b.Sorted ∧ min h.sbcap ((16 - fieldOf h.vcfg 8 5) * 64 * h.gcount) < [0x60000 / 64].length ∧
       (∃ x ∈ b.buf, x.1 / 64 = 0x60000 / 64) ∧ h.activeElem plainHdr 0 ∧
       Touches (fun e => 8 * (0x50000 : Int) + (e * 32 : Nat)) 32 0 0x50000 ∧ ∀ x ∈ b.buf, x.1 / 64 ≠ 0x50000 / 64) ∧
    (let b : Strip := { openStrip with buf := [(0x20000000, 1)] }
     let h := { supHart with strip := some b }
     let s := one cachedPte h
     Runs s h ∧ b.Sorted ∧ WalksReach s h .row ∧ ∃ x ∈ b.buf, ∃ y ∈ b.buf, x.1 / 64 = y.1 / 64 ∧
       (∀ z ∈ b.buf, z.1 / 64 = x.1 / 64 → x.1 ≤ z.1 ∧ z.1 ≤ y.1) ∧
       s.probe1 (via s h .row) { e := 0, va := x.1, n := y.1 - x.1 + 1, k := .w, al := 1 } ≠ none) ∧
    (let q := queued (.vst plainHdr 0 1) supHart
     let h := { q with seq := q.seq + 1 }
     Runs (one cachedPte h) h ∧ ¬ (h.qstop = true ∨ ∀ v ∈ h.vq, h.seq ≤ v.e.seq) ∧ h.sbpend = []) := by
  refine ⟨⟨rfl, ?_, ?_, ?_, ?_, ?_⟩, ⟨rfl, ?_, vecReady_of (by decide) (by unfold RefusedType; decide) (by decide), rfl, ?_,
    fun q => ?_, fun q => elems_two true (some openStrip) (.inr rfl) q .w 1 (.inl rfl) fun e h => h.1, ?_, ?_, ?_, ?_, ?_⟩,
    ⟨rfl, ?_, ?_, ?_, ?_, ?_, ?_⟩, ⟨rfl, ?_, walks_one _ ⟨rfl, rfl, rfl, rfl⟩ rfl, (0x20000000, 1), .head _, (0x20000000, 1), .head _, ?_⟩, rfl, ?_⟩
  · decide
  · decide
  · unfold Hart.LanesIdle; decide
  · unfold LanesFree; decide
  · decide
  · decide
  · unfold Strip.Sorted; decide
  · have small : ∀ x ∈ openStrip.buf, x.1 < 2 ^ 29 := by decide
    have far : ∀ x ∈ openStrip.buf, 0x40000 ≤ x.1 := by decide
    refine ⟨by cases q <;> decide, fun x hx => reaches_mapped (tabled_mapped (by decide)) rfl (small x hx),
      room_of [0x50000 / 64] rfl (by decide) fun a ⟨x, hx, e⟩ => ?_,
      agree_mapped (tabled_mapped (by decide)) rfl fun a ⟨x, hx, e⟩ => .inr (e ▸ far x hx), canStore_one rfl fun a ⟨x, hx, e⟩ => e ▸ small x hx⟩
    subst e
    show x.1 / 64 ∈ [0x50000 / 64]
    revert x; decide
  · unfold RegField; decide
  · decide
  · decide
  · rintro l ⟨hn, hl⟩
    have hs : ∀ k ∈ l, k = 0x50000 / 64 := by
      intro k hk
      rcases hl k hk with ⟨x, hx, rfl⟩ | ⟨p, ⟨e, he, h1, h2⟩, rfl⟩
      · clear hk
        revert x; decide
      · have : e < 2 := he.1
        simp only at h1 h2
        omega
    have hc : min memHart.sbcap ((16 - fieldOf memHart.vcfg 8 5) * 64 * memHart.gcount) = 512 := by decide
    show l.length ≤ min memHart.sbcap ((16 - fieldOf memHart.vcfg 8 5) * 64 * memHart.gcount)
    rw [hc]
    match l, hn, hs with
    | [], _, _ => decide
    | [_], _, _ => simp
    | a :: b :: t, hn, hs =>
      have h1 := hs a (by simp)
      have h2 := hs b (by simp)
      simp [h1, h2] at hn
  · rintro ⟨p, ⟨e, he, h1, h2⟩, hb⟩
    have : e < 2 := he.1
    have := hb (0x50000, 1) (.head _)
    simp only at h1 h2
    omega
  · unfold Strip.Sorted; decide
  · decide
  · decide
  · unfold Hart.activeElem; decide
  · unfold Touches; decide
  · decide
  · unfold Strip.Sorted; decide
  · decide
  · decide

/-! #### Tiles -/

/-- The machine of `one` with tiles 0 and 1 of core 0 as given. -/
def withTiles (h : Hart) (T S : Tile) : State :=
  let s := one cachedPte h
  s.setCore 0 { s.core 0 with tiles := ((s.core 0).tiles.set 0 T).set 1 S }
/-- A tile with two accumulators, held by hart 0 or by another. -/
def someTile (held : Option Nat) : Tile := { acc := [(0, 5), (8191, 2 ^ 136 - 1)], flags := 1, held := held, last := some 0 }
/-- AKIND and BKIND fp16, no scale, rows 0 and 1, exponent 0. -/
def shaped (h : Hart) : Hart := { h with tshape := 0x455 }

theorem witness_MatrixTiles :
    (let h := { userHart with tshape := 0x8000000000000000 }
     Runs (one cachedPte h) h ∧ h.MayTrap ∧ h.tshape.getLsbD 63 = true) ∧
    (let h := shaped userHart
     Runs (one cachedPte h) h ∧ h.MayTrap ∧ h.tshape.getLsbD 63 = false ∧ 1 % 8 ≠ 0 ∧ h.vtype.getLsbD 36 = true ∧
       (31 < 8 * 2 ^ fieldOf h.vcfg 0 2 ∧ 24 % 8 = 0 ∧ 24 + 7 < 8 * 2 ^ fieldOf h.vcfg 0 2 ∧ fieldOf h.tshape 8 2 = 0)) ∧
    (let h := { shaped supHart with mq := List.replicate 16 (supHart.newEntry 0 (.tzero ⟨0, 0⟩ 0) 0 0 0 0) }
     Runs (one cachedPte h) h ∧ 16 ≤ h.mq.length) ∧
    (Runs { one cachedPte (shaped supHart) with eager := false } (shaped supHart) ∧ (shaped supHart).mq.length < 16) ∧
    (let h := typed 256 vtFloat (shaped supHart)
     let s := withTiles h (someTile (some 0)) (someTile (some 0))
     Runs s h ∧ MtxReady s h 0 ∧ (s.tile s.cur 0).held = some s.cur ∧ (s.tile s.cur 0).Ok ∧ (s.tile s.cur 1).held = some s.cur ∧
       (s.tile s.cur 1).Ok ∧ h.tshape.getLsbD 63 = false ∧ TagFits h 31 (kindWidth (fieldOf h.tshape 0 4)) ∧
       (∀ k, k < 8 → TagFits h (24 + k) (kindWidth (fieldOf h.tshape 4 4))) ∧ sx 10 0 = 0 ∧ sx 10 1023 ≠ 0 ∧
       h.vtype.getLsbD 36 = false ∧ RegField h 31 ∧ fieldOf h.vtype 22 2 = 0 ∧ 1 ≤ h.gcount ∧
       h.vl ≤ 256 * h.gcount * elementsPerLane h.vcfg h.vtype ∧ fieldOf h.vtype 18 4 = 4 ∧ fieldOf h.vtype 0 6 = 31 ∧
       fieldOf h.vtype 26 3 < 5 ∧ h.vtype.getLsbD 29 = false ∧ ¬ RefusedType h.vtype ∧
       TagFits h 31 (kindWidth (fieldOf h.vtype 18 4)) ∧ fieldOf h.vtype 6 6 + 1 = kindWidth (fieldOf h.vtype 18 4)) ∧
    (let h := tokened (loadReg 31 8 [1] (shaped supHart))
     let s := withTiles h (someTile (some 0)) (someTile none)
     Runs s h ∧ MtxReady s h 3 ∧ (s.tile s.cur 0).held = some s.cur ∧ ¬ TagFits h 31 (kindWidth (fieldOf h.tshape 0 4)) ∧
       (s.tile s.cur 1).held = none ∧
       ∀ p ∈ s.harts, coreOf p.1 = coreOf s.cur → p.2.mq = [] ∧ p.2.wait = none) ∧
    (let s := withTiles supHart (someTile (some 2)) (someTile none)
     Runs s supHart ∧ MtxReady s supHart 0 ∧ (s.tile s.cur 0).held = some 2) := by
  refine ⟨⟨rfl, .inl ?_, ?_⟩, ⟨rfl, .inl ?_, ?_⟩, ⟨rfl, ?_⟩, ⟨rfl, ?_⟩, ⟨rfl, ?_, ?_, ?_, ?_, ?_, ?_, ?_, ?_, ?_⟩,
    ⟨rfl, ?_, ?_, ?_, ?_, ?_⟩, rfl, ?_, ?_⟩ <;>
    first | decide | (unfold MtxReady; decide) | (unfold Tile.Ok; decide) | (unfold TagFits; decide) |
      (unfold RegField TagFits RefusedType; decide)

theorem witness_TileGrant :
    ∀ p ∈ [some 1, none],
      let h := { supHart with mq := [{ supHart.newEntry 0 (.talloc ⟨0, 0⟩ 0) 0 0 0 0 with started := true }] }
      let s := withTiles h (someTile p) Tile.reset
      s.hart? 0 = some h ∧ (∃ e, h.mq = [e] ∧ e.op = .talloc ⟨0, 0⟩ 0 ∧ e.started = true ∧ e.runnable = true) ∧ h.wait = none ∧
        s.harts.Pairwise (fun (p q : Nat × Hart) => p.1 < q.1) ∧ (s.tile 0 0).held = p ∧
        ∀ p ∈ s.harts, p.1 ≠ 0 → coreOf p.1 = coreOf 0 → p.2.mq = [] := by
  simp only [List.mem_cons, List.not_mem_nil, or_false, forall_eq_or_imp, forall_eq]
  refine ⟨⟨rfl, ⟨_, rfl, ?_⟩, ?_⟩, rfl, ⟨_, rfl, ?_⟩, ?_⟩ <;> decide

/-! #### Streams -/

theorem burst_one {s : State} {h : Hart} {pte a n al : Nat} {k : AKind} (hs : s.tlb = [identity pte]) (hd : s.dies = [])
    (hc : s.cur = 0) (hx : h.ctx = 0) (hi : pteIdem pte = false) (hp : pte < 2 ^ 64)
    (e : 0 < n ∧ n ≤ 4096 ∧ a % 65536 + n ≤ 65536 ∧ a + n ≤ 2 ^ 29 ∧
      s.probe1 (via s h .stream) { e := 0, va := a, n := n, k := k, al := al } = none) : BurstOk s h (xl pte) a n k al :=
  ⟨e.1, e.2.1, e.2.2.1, by have := e.2.2.2.1; omega, e.2.2.2.2, fun p _ h2 => reaches_one hs hd hc hx hi hp (by
    have := e.2.2.2.1; omega)⟩

theorem burst_mapped {s : State} {h : Hart} {a n al : Nat} {k : AKind} (hs : Tabled s) (hx : h.ctx = 0)
    (e : 0 < n ∧ n ≤ 4096 ∧ a % 65536 + n ≤ 65536 ∧ a + n ≤ 2 ^ 29 ∧
      s.probe1 (via s h .stream) { e := 0, va := a, n := n, k := k, al := al } = none) : BurstOk s h (xl cachedPte) a n k al :=
  ⟨e.1, e.2.1, e.2.2.1, by have := e.2.2.2.1; omega, e.2.2.2.2, fun p _ h2 => reaches_mapped hs hx (by
    have := e.2.2.2.1; omega)⟩

theorem streamReady_of {s : State} {h : Hart} {k : Nat}
    (e : (s.eager = true ∧ h.sq = [] ∧ h.vq = [] ∧ h.mq = [] ∧ h.qstop = false ∧ h.strip = none) ∧ s.dies = [] ∧ s.memOk = true ∧ k < 4 ∧
      (k.testBit 1 = true → 0 < h.tokens (fifo (fieldOf h.tkroute 10 2) engStream)) ∧
      (k.testBit 0 = true → h.tokens (fifo engStream (fieldOf h.tkroute 8 2)) < 15) ∧ h.ilk = [] ∧
      ∀ t ∈ h.slots.toList, t.holder = none ∧ t.bind = none ∧ t.stopped = false) : StreamReady s h k := by
  obtain ⟨⟨e1, e2, e3, e4, e5, e6⟩, e7, e8, e9, e10, e11, e12, e13⟩ := e
  exact ⟨⟨e1, e2, e3, e4, e5, e6, by simp [e7], e8, e9, e10, e11⟩, e12, e13⟩

/-- Two elements of 32 bits from A = g1, to C = g3. -/
def strmHart (A C : W64) : Hart := loadReg 31 32 [7, 8] (typed 2 vtInt (withG supHart A 2 C))

theorem witness_Streams :
    (let h := { userHart with vtype := 0x1000000000 }
     streamFields (.sld 3 7 31 1 2) = some (7, 3, 1, 2, 0) ∧ Runs (one cachedPte h) h ∧ h.MayTrap ∧ StreamReady (one cachedPte h) h 0 ∧
       h.binds = [] ∧ h.vtype.getLsbD 36 = true ∧
       (∀ d, NamesV (.scpy 0 0 1 2 3) d → d < 8 * 2 ^ fieldOf h.vcfg 0 2 ∧ d % 2 ^ fieldOf h.vtype 22 2 = 0) ∧
       NamesV (.sst 0 0 31 0 0) 31 ∧ ¬ (31 < 8 * 2 ^ fieldOf ({ h with vcfg := 0x800 } : Hart).vcfg 0 2)) ∧
    (let h := { userHart with sq := List.replicate 16 (userHart.newEntry 0 (.sld 0 0 0 1 2) 0 1 2 0) }
     Runs (one cachedPte h) h ∧ 16 ≤ h.sq.length) ∧
    (let h := strmHart 0x50000 0x60000
     let s := mapped [] h
     Runs s h ∧ StreamReady s h 0 ∧ h.binds = [] ∧ h.vtype.getLsbD 36 = false ∧ ¬ RefusedType h.vtype ∧ 1 ≤ h.gcount ∧
       h.vl ≤ 256 * h.gcount * elementsPerLane h.vcfg h.vtype ∧ RegField h 31 ∧ TagFits h 31 32 ∧ fieldOf (h.rg 2) 0 32 = 2 ∧
       pteLayout (xl cachedPte 0x50000).pte = 0 ∧ h.gang = none ∧ 0x50000 % 32 = 0 ∧ BurstOk s h (xl cachedPte) 0x50000 8 .r 1 ∧
       BurstOk s h (xl cachedPte) 0x50000 8 .w 1 ∧ BurstOk s h (xl cachedPte) 0x60000 8 .w 1 ∧
       (CanStore s (xl cachedPte) fun p => 0x50000 ≤ p ∧ p < 0x50000 + 8) ∧
       (CanStore s (xl cachedPte) fun p => 0x60000 ≤ p ∧ p < 0x60000 + 8) ∧
       (TlbsAgree s h .stream fun _ => False) ∧ (TlbsAgree s h .stream fun p => ∃ x, Bytes 0x60000 8 x ∧ (xl cachedPte x).pa = p) ∧
       (∀ j, j < 32 → BurstOk s h (xl cachedPte) (0x50000 + j * 32) 1 .r 1) ∧
       (RoomFor s (xl cachedPte) fun p => Bytes 0x50000 8 p ∨ Bytes 0x60000 8 p) ∧
       RoomFor s (xl cachedPte) fun x => ∃ j, j < 32 ∧ Bytes (0x50000 + j * 32) 1 x) ∧
    (let h := strmHart 0x50004 0x50008
     Runs (one 0x19F h) h ∧ StreamReady (one 0x19F h) h 0 ∧ WalksReach (one 0x19F h) h .stream ∧ WalksReach (one cachedPte h) h .stream ∧ (h.rg 1).toNat % 32 ≠ 0 ∧
       (one 0x19F h).translate (via (one cachedPte h) h .stream) 0x50004 = some (xl 0x19F 0x50004) ∧ pteLayout (xl 0x19F 0x50004).pte = 1 ∧
       (one cachedPte h).translate (via (one cachedPte h) h .stream) 0x50004 = some (xl cachedPte 0x50004) ∧
       (one cachedPte h).translate (via (one cachedPte h) h .stream) 0x50008 = some (xl cachedPte 0x50008) ∧
       ¬ (0x50004 + 8 ≤ 0x50008 ∨ 0x50008 + 8 ≤ 0x50004)) ∧
    (let h := strmHart 0x50000 0
     Runs (one 0x9B h) h ∧ StreamReady (one 0x9B h) h 0 ∧ WalksReach (one 0x9B h) h .stream ∧ pteLayout (xl 0x9B 0x50000).pte = 0 ∧ TagFits h 31 32 ∧
       (one 0x9B h).translate (via (one cachedPte h) h .stream) 0x50000 = some (xl 0x9B 0x50000) ∧
       (one 0x9B h).probe1 (via (one cachedPte h) h .stream) { e := 0, va := 0x50000, n := 8, k := .w, al := 1 } = some (.pgfltW, 0x50000)) := by
  refine ⟨⟨rfl, rfl, .inl ?_, streamReady_of (by decide), rfl, ?_, ?_, ⟨0, 0, 0, 0, ?_⟩, ?_⟩, ⟨rfl, ?_⟩,
    ⟨rfl, streamReady_of (by decide), rfl, ?_, ?_, ?_, ?_, ?_, ?_, ?_, ?_, ?_, ?_,
      burst_mapped (tabled_mapped (by decide)) rfl ?_, burst_mapped (tabled_mapped (by decide)) rfl ?_,
      burst_mapped (tabled_mapped (by decide)) rfl ?_, canStore_one rfl fun a ha => by omega,
      canStore_one rfl fun a ha => by omega, agree_mapped (tabled_mapped (by decide)) rfl (fun _ w => w.elim),
      agree_mapped (tabled_mapped (by decide)) rfl (fun _ ⟨x, ⟨h1, _⟩, e⟩ => .inr (by show 0x40000 ≤ _; rw [← e]; show 0x40000 ≤ x; omega)),
      fun j hj => burst_mapped (tabled_mapped (by decide)) rfl ?_,
      room_of [0x50000 / 64, 0x60000 / 64] rfl (by decide) fun a ha => ?room1,
      room_of (List.range' (0x50000 / 64) 16) rfl (by decide) fun a ha => ?room2⟩,
    ⟨rfl, streamReady_of (by decide), walks_one _ ⟨rfl, rfl, rfl, rfl⟩ rfl, walks_one _ ⟨rfl, rfl, rfl, rfl⟩ rfl, ?_⟩,
    rfl, streamReady_of (by decide), walks_one _ ⟨rfl, rfl, rfl, rfl⟩ rfl, ?_, ?_, ?_⟩
  case refine_3 => rintro d ⟨k, q, a, b, h⟩; simp at h
  case room1 =>
    simp only [Bytes] at ha
    show a / 64 ∈ _
    rw [List.mem_cons, List.mem_singleton]
    omega
  case room2 =>
    obtain ⟨j, hj, h1, h2⟩ := ha
    show a / 64 ∈ _
    rw [List.mem_range'_1]
    omega
  case refine_20 => revert j; decide
  all_goals first | decide | (unfold TagFits; decide) | (unfold RegField; decide) | (unfold RefusedType; decide)

/-- A SIND block at 0x60000 (table 0x60100, records of 8 bytes, one record a table entry, two elements a record, record 0 and
1), a SPAT block at 0x60040 (base 0x61000, stride 8, two elements a token, current token 1, window 2), and the table. -/
def tokenMem : List Host.Cell :=
  cellsAt 0x60000 8 0x60100 ++ cellsAt 0x60008 8 8 ++ cellsAt 0x60010 8 8 ++ cellsAt 0x60018 4 1 ++ cellsAt 0x6001C 2 2 ++
    cellsAt 0x6001E 1 1 ++ cellsAt 0x60024 4 1 ++ cellsAt 0x60040 8 0x61000 ++ cellsAt 0x60048 8 8 ++ cellsAt 0x60050 4 2 ++
    cellsAt 0x60054 4 1 ++ cellsAt 0x60058 4 2 ++ cellsAt 0x60100 8 0x62000

/-- The cells of `tokenMem` that are not zero, which reset memory lists nothing for. -/
def tokenState (h : Hart) : State := mapped (tokenMem.filter fun c => c.2 != 0) h
/-- Room for what the words of `witness_StreamTokens` read. -/
theorem token_room {s : State} {P : Nat → Prop} (hs : s.stn (stnOf s.cur) = Station.reset)
    (hP : ∀ a, P a → Bytes 0x60000 0x4000 a) : RoomFor s (xl cachedPte) P :=
  room_of (List.range' (0x60000 / 64) 256) hs (by simp) fun a ha => by
    have := hP a ha
    simp only [Bytes] at this
    show a / 64 ∈ _
    rw [List.mem_range'_1]
    omega

theorem witness_StreamTokens :
    (let h := strmHart 0x60000 0
     let s := tokenState h
     let num := fun o n : Nat => littleEndian n fun j => byteAt s s (xl cachedPte) (0x60000 + o + j)
     Runs s h ∧ StreamReady s h 0 ∧ BurstOk s h (xl cachedPte) 0x60000 64 .r 8 ∧ num 24 4 = 1 ∧ num 0 8 % 8 = 0 ∧
       num 30 1 = fieldOf h.vtype 18 4 ∧ num 31 1 = 0 ∧ num 40 8 = 0 ∧ num 48 8 = 0 ∧ num 56 8 = 0 ∧
       min (num 36 4 * num 28 2) h.vl = 2 ∧ num 28 2 = 2 ∧ BurstOk s h (xl cachedPte) 0x60100 8 .r 8 ∧
       BurstOk s h (xl cachedPte) 0x62000 8 .r 1 ∧ (TlbsAgree s h .stream fun _ => False) ∧
       RoomFor s (xl cachedPte) (fun p => Bytes 0x60000 64 p ∨ (∃ j, j * 2 < 2 ∧ Bytes (0x60100 + 8 * ((0 + j) / 1)) 8 p) ∨
         ∃ j, j * 2 < 2 ∧ Bytes 0x62000 8 p) ∧ RoomFor s (xl cachedPte) (Bytes 0x60000 64)) ∧
    (let h := strmHart 0x60040 0
     let s := tokenState h
     let num := fun o n : Nat => littleEndian n fun j => byteAt s s (xl cachedPte) (0x60040 + o + j)
     let T := (List.range (num 20 4 + 1)).filter fun t => decide (num 20 4 < t + num 24 4) || (num 28 4 != 0 && t % num 28 4 == 0) ||
        (List.range (num 32 4)).any fun j => num (36 + 4 * j) 4 == t
     Runs s h ∧ StreamReady s h 0 ∧ BurstOk s h (xl cachedPte) 0x60040 64 .r 8 ∧ num 32 4 ≤ 7 ∧ T = [0, 1] ∧
       min (T.length * num 16 4) h.vl = 2 ∧ BurstOk s h (xl cachedPte) 0x61000 8 .r 1 ∧ (TlbsAgree s h .stream fun _ => False) ∧
       RoomFor s (xl cachedPte) (fun p => Bytes 0x60040 64 p ∨ False ∨ ∃ j, j * 2 < 2 ∧ Bytes 0x61000 8 p) ∧
       RoomFor s (xl cachedPte) (Bytes 0x60040 64)) ∧
    (let h := strmHart 0x60000 0
     let s := mapped [(0x6001E, 9), (0x60020, 8)] h
     let num := fun o n : Nat => littleEndian n fun j => byteAt s s (xl cachedPte) (0x60000 + o + j)
     Runs s h ∧ StreamReady s h 0 ∧ BurstOk s h (xl cachedPte) 0x60000 64 .r 8 ∧ num 30 1 ≠ fieldOf h.vtype 18 4 ∧ 7 < num 32 4) := by
  refine ⟨⟨rfl, streamReady_of (by decide), burst_mapped (tabled_mapped (by decide)) rfl (by decide), ?_, ?_, ?_, ?_, ?_, ?_,
      ?_, ?_, ?_, burst_mapped (tabled_mapped (by decide)) rfl (by decide),
      burst_mapped (tabled_mapped (by decide)) rfl (by decide), agree_mapped (tabled_mapped (by decide)) rfl (fun _ w => w.elim), token_room rfl fun a ha => ?r1,
      token_room rfl fun a ha => ?r2⟩,
    ⟨rfl, streamReady_of (by decide), burst_mapped (tabled_mapped (by decide)) rfl (by decide), ?_, ?_, ?_,
      burst_mapped (tabled_mapped (by decide)) rfl (by decide), agree_mapped (tabled_mapped (by decide)) rfl (fun _ w => w.elim), token_room rfl fun a ha => ?r3,
      token_room rfl fun a ha => ?r4⟩,
    rfl, streamReady_of (by decide), burst_mapped (tabled_mapped (by decide)) rfl (by decide), ?_, ?_⟩
  case r1 =>
    rcases ha with h | ⟨j, hj, h⟩ | ⟨j, hj, h⟩ <;> simp only [Bytes] at h ⊢
    · omega
    · obtain rfl : j = 0 := by omega
      norm_num at h
      omega
    · omega
  case r2 => simp only [Bytes] at *; omega
  case r3 =>
    rcases ha with h | h | ⟨j, hj, h⟩
    · simp only [Bytes] at h ⊢; omega
    · exact h.elim
    · simp only [Bytes] at h ⊢; omega
  case r4 => simp only [Bytes] at *; omega
  all_goals decide

/-- SBIND of two elements; a slot that holds the binding, for SUNBIND. -/
theorem witness_StreamBindings :
    (let h := strmHart 0x50000 0
     Runs (one cachedPte h) h ∧ StreamReady (one cachedPte h) h 0 ∧ fieldOf (h.rg 2) 0 32 = 2 ∧
       2 ≤ 256 * h.gcount * elementsPerLane h.vcfg h.vtype ∧ BurstOk (one cachedPte h) h (xl cachedPte) 0x50000 8 .r 1 ∧
       RoomFor (one cachedPte h) (xl cachedPte) (Bytes 0x50000 8)) ∧
    (let h := { supHart with binds := [(0, anyBinding)], slots := supHart.slots.set 0 { Slot.reset with bind := some 0 } }
     Runs (one cachedPte h) h ∧ StreamIdle (one cachedPte h) h 0 ∧ anyBinding.q = 0 ∧ anyBinding.closed = none ∧
       h.binds = [(0, anyBinding)]) := by
  refine ⟨⟨rfl, streamReady_of (by decide), ?_, ?_, burst_one rfl rfl rfl rfl (by decide) (by decide) ?_,
      room_of [0x50000 / 64] rfl (by decide) fun a ha => by
        simp only [Bytes] at ha
        show a / 64 ∈ _
        rw [List.mem_singleton]
        omega⟩, rfl,
    ⟨?_, ?_, ?_, ?_, ?_, ?_, nofun, ?_, ?_, ?_, ?_⟩, ?_⟩ <;> decide

/-- A block of SSEND at 0x60000 for eight bytes from 0x70000: to 0x50000, the word at 0x50100, generation 1. -/
def sendState (live : Bool) (h : Hart) : State :=
  { mapped [(0x60002, 5), (0x60009, 1), (0x6000A, 5), (0x60018, 1)] h with
      ctxs := [(0, { live := live, gen := 1, slice := 0, energy := 0, frac := 0 })] }
theorem send_tabled (live : Bool) (h : Hart) : Tabled (sendState live h) := ⟨rfl, rfl, rfl, rfl, reads_tables (by decide)⟩
def sendHart : Hart := withG (strmHart 0 0) 0x60000 8 0x70000

theorem witness_StreamSend :
    ∀ live ∈ [true, false],
      let h := sendHart
      let s := sendState live h
      let num := fun o n : Nat => littleEndian n fun j => byteAt s s (xl cachedPte) (0x60000 + o + j)
      let target := fun (va n : Nat) (x : Xlat) => s.walk 0 (dieOf s.cur) true va = some x ∧ s.rootAway 0 (dieOf s.cur) va = false ∧ x.pte.testBit 2 = true ∧
        h.sup = true ∧ x.pte.testBit 10 = false ∧ pathOf x ≠ .device ∧ s.PlainFrame (x.pa / 65536) ∧
        s.cutOff s.cur x.pa = false ∧ x.pa % 65536 + n ≤ 65536
      Runs s h ∧ StreamReady s h 0 ∧ BurstOk s h (xl cachedPte) 0x60000 32 .r 8 ∧ BurstOk s h (xl cachedPte) 0x70000 8 .r 1 ∧
        (TlbsAgree s h .stream fun _ => False) ∧ (RoomFor s (xl cachedPte) fun p => Bytes 0x60000 32 p ∨ Bytes 0x70000 8 p) ∧
        num 28 1 = 0 ∧ num 29 1 = 0 ∧ num 30 2 = 0 ∧ num 8 8 = 0x50100 ∧ num 0 8 = 0x50000 ∧ num 24 4 = (s.ctx 0).gen ∧
        (s.ctx 0).live = live ∧ fieldOf (h.rg 2) 0 32 = 8 ∧ target 0x50000 8 (xl cachedPte 0x50000) ∧
        target 0x50100 8 (xl cachedPte 0x50100) := by
  have room : ∀ live, RoomFor (sendState live sendHart) (xl cachedPte) fun p => Bytes 0x60000 32 p ∨ Bytes 0x70000 8 p := fun live =>
    room_of [0x60000 / 64, 0x70000 / 64] rfl (by decide) fun a ha => by
      simp only [Bytes] at ha
      show a / 64 ∈ _
      rw [List.mem_cons, List.mem_singleton]
      omega
  have target : ∀ live (n va : Nat), va < 2 ^ 29 → va % 65536 + n ≤ 65536 → (let s := sendState live sendHart
      let x := xl cachedPte va
      s.walk 0 (dieOf s.cur) true va = some x ∧ s.rootAway 0 (dieOf s.cur) va = false ∧ x.pte.testBit 2 = true ∧ sendHart.sup = true ∧ x.pte.testBit 10 = false ∧
        pathOf x ≠ .device ∧ s.PlainFrame (x.pa / 65536) ∧ s.cutOff s.cur x.pa = false ∧ x.pa % 65536 + n ≤ 65536) := by
    intro live n va h1 h2
    have r : homeDie va = 0 := by simp [homeDie, region_one h1]
    have bit : ∀ b, (xl cachedPte va).pte.testBit b = cachedPte.testBit b := fun _ => rfl
    have w := fun b => walk_tables (send_tabled live sendHart).2.2.2.2 rfl rfl b va
    refine ⟨(w true).1.trans (if_pos h1), ?_, (bit 2).trans (by decide), rfl, (bit 10).trans (by decide), ?_, plain_one rfl h1, ?_, h2⟩
    · have e : dieOf (sendState live sendHart).cur = 0 := by cases live <;> decide
      rw [State.rootAway, e, (w true).2, Bool.and_false]
    · exact path_one (by decide) h1
    · simp [State.cutOff, xl, r, State.reaches, dieOf, sendState, mapped, one, State.reset]
  intro live hl
  refine ⟨rfl, ?_, ?_, ?_, agree_mapped (send_tabled _ _) rfl (fun _ w => w.elim), room live, ?_, ?_, ?_, ?_, ?_, ?_, ?_, ?_,
    target live 8 0x50000 (by decide) (by decide), target live 8 0x50100 (by decide) (by decide)⟩
  all_goals simp only [List.mem_cons, List.not_mem_nil, or_false] at hl
  all_goals rcases hl with rfl | rfl
  all_goals first
    | decide
    | exact streamReady_of (by decide)
    | exact burst_mapped (send_tabled _ _) rfl (by decide)

theorem witness_StreamWaits :
    (let h := withG userHart 0 5 0
     Runs (one cachedPte h) h ∧ h.wait = none ∧ (∀ y ∈ h.groups, y.st ≠ .parked) ∧ h.sq = [] ∧ (vat h.slots 7 Slot.reset).bind = none) ∧
    (let h := { withG userHart 0 5 0 with sq := [userHart.newEntry 0 (.sld 0 7 0 1 2) 0 1 2 0] }
     Runs (one cachedPte h) h ∧ (∃ e ∈ h.sq, streamFields e.op = some (7, 0, 1, 2, 0)) ∧ h.rg 1 = 0 ∧ h.rg 2 ≠ 0 ∧
       (vat h.slots 7 Slot.reset).ea < fieldOf (h.rg 2) 0 32) ∧
    (∀ b ∈ [0, 1, 2, 3, 4], let h := withG userHart b 0 0
      Runs (one cachedPte h) h ∧ h.MayTrap ∧ fieldOf (h.rg 1) 0 8 = b.toNat) ∧
    (let h := { userHart with wait := some (.swait 7 5) }
     (one cachedPte h).hart? 0 = some h ∧ h.sq = [] ∧ (vat h.slots 7 Slot.reset).bind = none) := by
  refine ⟨⟨rfl, ?_⟩, ⟨rfl, ⟨_, .head _, ?_⟩, ?_⟩, ?_, rfl, ?_⟩
  case refine_4 =>
    simp only [List.mem_cons, List.not_mem_nil, or_false, forall_eq_or_imp, forall_eq]
    refine ⟨⟨rfl, ?_, ?_⟩, ⟨rfl, ?_, ?_⟩, ⟨rfl, ?_, ?_⟩, ⟨rfl, ?_, ?_⟩, rfl, ?_, ?_⟩ <;> first | decide | exact Or.inl rfl
  all_goals decide

set_option maxRecDepth 100000 in
/-- Two members of a gang on two stations that have taken multicast 0, with equal and with unequal counts. -/
theorem witness_StreamMulticast :
    ∀ b ∈ [2, 1],
      let key := gangKey 0 0 5
      let w := fun (n : W64) => withG (typed 2 vtInt userHart) 0x50000 n 0
      let m := fun h : Hart => { h with sq := [{ h.newEntry 0 (.sldG 0 0 0 1 2) 0 1 2 0 with started := true }] }
      let s : State := { one cachedPte userHart with harts := [(0, m (w 2)), (16, m (w b))], gangs := [(key,
        { gg := 1, nexp := 2, forming := false, members := [⟨0, .hart 0, 0, 0⟩, ⟨1, .hart 16, 0, 0⟩] })] }
      s.gangHarts key = [0, 16] ∧ [0, 16].Nodup ∧ (5 : Nat) < 256 ∧
        ∀ p ∈ [(0, m (w 2)), (16, m (w b))], s.hart? p.1 = some p.2 ∧ ∃ e, p.2.sq = [e] ∧ e.op = .sldG 0 0 0 1 2 ∧
          e.started = true ∧ e.eff = 0 ∧ e.part.acc = 0 ∧ e.runnable = true ∧ (p.2.slotHeld e).progress = 0 ∧
          (e.gangParams = (0x50000, 2, 32, 0) ↔ p.1 = 0 ∨ b = 2) := by
  simp only [List.mem_cons, List.not_mem_nil, or_false, forall_eq_or_imp, forall_eq]
  refine ⟨⟨by decide, by decide, by decide, ⟨rfl, _, rfl, ?_⟩, rfl, _, rfl, ?_⟩, by decide, by decide, by decide, ⟨rfl, _, rfl, ?_⟩,
    rfl, _, rfl, ?_⟩ <;> decide

/-! #### The Weir -/

/-- Die 0 with pool 0 enabled, `F` sectors free, frame 5 as given, and one host slot. -/
def weir (h : Hart) (F : Nat) (f : FrameInfo) : State :=
  let s := one cachedPte h
  let x := s.die 0
  s.setDie 0 { x with pools := x.pools.set 0 { vat x.pools 0 (Pool.reset 0) with enabled := true, free := F }, frames := [(5, f)],
                      whslots := 1 }
def coldFrame : FrameInfo := { lossless := true, sectors := 0, cold := true, maxeff := false, slot := none }

theorem witness_WeirEvents :
    (∀ q ∈ [(0, coldFrame), (0x20000, { coldFrame with slot := some 0 }), (0x20000, FrameInfo.none)],
      let s := weir supHart q.1 q.2
      s.memOk = true ∧ regionOf (5 * 65536) = .pool 0 0 ∧ s.exists? (5 * 65536) = true ∧ (s.pool 0 0).enabled = true ∧
        (s.die 0).wcmdst ≠ 1 ∧ s.frameInfo 5 = q.2 ∧ (s.pool 0 0).free = q.1 ∧ sectorsOf (frameCells s.mem 5) = 0 ∧
        (q.1 = 0x20000 → 128 + (s.pool 0 0).wcrit ≤ q.1) ∧ (q.1 = 0 → ¬ 128 + (s.pool 0 0).wcrit ≤ q.1)) ∧
    (let s := one cachedPte supHart
     (s.setDie 0 { s.die 0 with wcmdst := 1, wcmdNext := some 3 }).die 0 = { Die.reset with wcmdst := 1, wcmdNext := some 3 } ∧
       regionOf (0x80000000000 / 65536 * 65536) = .spm 0 0 ∧ (s.pool 0 1).enabled = false) ∧
    (∀ q ∈ [(0x2000, coldFrame), (100, coldFrame), (100, { coldFrame with cold := false }), (0x40000, coldFrame)],
      let s := weir supHart q.1 q.2
      let P := s.pool 0 0
      s.memOk = true ∧ (s.die 0).frames.Pairwise (fun (a b : Nat × FrameInfo) => a.1 < b.1) ∧ (s.die 0).frames = [(5, q.2)] ∧
        (q.1 ≠ 0x40000 → P.free < P.wlow) ∧ (q.1 = 0x40000 → ¬ P.free < P.wlow) ∧ (q.1 = 0x2000 → 128 ≤ P.free) ∧
        (q.1 = 100 → ¬ 128 ≤ P.free) ∧ 0 < (s.die 0).whslots ∧ P.lowRaised = false ∧ s.supHart 0 = some 0) ∧
    FrameZero (weir supHart 0x2000 coldFrame) 5 := by
  refine ⟨?_, ?_, ?_, fun o _ => rfl⟩ <;> decide

/-- A byte of frame 5 that waits for sectors; the hart that made the write waits in user mode, hart 1 has the reports. -/
def heldOne : HeldWrite :=
  { id := 3, pool := 0, fr := 5, cells := [(0x50000, 7)], masks := [], vas := [], target := none, wb := none, va := 0x50000, pa := 0x50000, master := .hart 0, ctx := 0,
    device := false, finish := .done none, since := 0, reported := some 4, rctx := 0 }
def heldState (F n : Nat) (w : HeldWrite) : State :=
  let h := { userHart with held := some 3 }
  let s := { weir h F { coldFrame with sectors := n } with harts := [(0, h), (1, supHart)], now := 1000000 }
  s.setDie 0 { s.die 0 with held := [w] }

theorem witness_HeldWrites :
    (∀ w ∈ [heldOne, { heldOne with reported := none }],
      let h := { userHart with held := some 3 }
      let s := heldState 0 0 w
      regionOf (w.fr * 65536) = .pool 0 0 ∧ (s.die 0).held = [w] ∧ w.pool = 0 ∧ w.cells ≠ [] ∧ w.masks = [] ∧ (∀ c ∈ w.cells, c.1 / 65536 = w.fr) ∧
        w.wb = none ∧ w.finish = .done none ∧ w.master = .hart 0 ∧ s.hart? 0 = some h ∧ h.held = some w.id ∧ h.MayTrap ∧
        (∀ q ∈ s.pkg.requesters, q.requests = []) ∧ (s.frameInfo w.fr).lossless = true ∧ (s.frameInfo w.fr).slot = none ∧
        w.handle = BitVec.ofNat 64 0 &&& woosNames ∧ s.curCtx = 0 ∧ s.supHart w.ctx = some 1 ∧ s.hart? 1 = some supHart ∧
        supHart.held = none ∧ w.since + (s.die 0).wbound ≤ s.now ∧ w.rctx = h.ctx ∧ Runs s h) ∧
    (let s := heldState 0 128 heldOne
     sectorsOf (frameCells (s.writeMem heldOne.cells).mem 5) ≤ (s.frameInfo 5).sectors) ∧
    (let s := heldState 0 0 heldOne
     let n := (s.frameInfo 5).sectors
     let n' := sectorsOf (frameCells (s.writeMem heldOne.cells).mem 5)
     ∀ thr, ¬ (n' ≤ n ∨ n' - n + thr ≤ (s.pool 0 0).free)) := by
  have e : ∀ n, frameCells ((heldState 0 n heldOne).writeMem heldOne.cells).mem 5 = [(0, 7)] := fun n => rfl
  refine ⟨?_, ?_, ?_⟩
  · unfold Runs Hart.MayTrap; decide
  · simp only [e, sectorsOf]
    show max 1 (min 128 _) ≤ 128
    omega
  · intro s n n' thr
    have hn : n = 0 := rfl
    have hp : (s.pool 0 0).free = 0 := rfl
    have h1 : 1 ≤ n' := by
      simp only [n', s, e, sectorsOf]
      show 1 ≤ max 1 _
      omega
    omega

/-! #### The governor, the package and the host -/

def steppedHart (w : Option Nat) (d : Int) : Hart :=
  { userHart with step := some { d := d, w := w, k := 256, done := 0, c := 0 }, stepid := 0x8000000000000000 }

theorem witness_GovernorAndPower :
    (let s := { one cachedPte userHart with harts := [(0, steppedHart (some 100000) 50000), (1, steppedHart none (-5)), (2, userHart)] }
     (∀ p ∈ s.harts, ∀ r, p.2.step = some r → 0 < r.k) ∧ stnOf 0 = 0 ∧ s.hart? 0 = some (steppedHart (some 100000) 50000) ∧
       (steppedHart none 0).stepid.getLsbD 62 = false) ∧
    (let t := Station.reset
     ({ t with target := 13 } : Station).cur < 13 ∧ 11 < ({ t with target := 11 } : Station).cur ∧ t.cur = t.target ∧
       t.chperm.testBit 0 = true ∧ ({ t with chperm := 0xFE } : Station).chperm.testBit 0 = false ∧
       (∀ j, j < 8 → 0 < j → ({ t with chperm := 0xFE } : Station).chperm.testBit j = true) ∧
       ∀ b, b < 8 → ({ t with chperm := 0 } : Station).chperm.testBit b = false) ∧
    (let s := (one cachedPte userHart).setStn 35 { Station.reset with awake := false }
     (s.stn (64 * 0 + 35)).awake = false ∧ ∀ j, j < 35 → (s.stn (64 * 0 + j)).awake = true) ∧
    (let d := (one cachedPte userHart).die 0
     d.warn ≤ 255 ∧ ¬ d.warn ≤ 0 ∧ 5 < d.warn ∧ 0 < d.warn ∧ ({ d with warn := 0 } : Die).warn = 0) ∧
    (let s := one cachedPte userHart
     let s := s.setPkg { s.pkg with ppeers := 2 ^ 1 + 2 ^ 2 }
     let s := s.setDie 0 { s.die 0 with ports := (s.die 0).ports.set 1 { state := 2, peer := 9, retry := 0 } }
     s.pkg.ppeers.testBit 1 = true ∧ s.pkg.ppeers.testBit 5 = false ∧ (s.port 1).state = 2 ∧ (s.port 2).state ≠ 2) ∧
    (let p := { Pkg.reset with leases := [⟨true, 5, 10, false⟩, ⟨false, 7, 20, false⟩], asked := [(3, 0)], answered := [(1, 0)], rseq := 65535 }
     let cap := p.pbase + 7 - 5
     0 < cap - p.pdraw - p.preserve ∧ (∃ w, cap < w) ∧ find? p.answered 1 = some 0 ∧ find? p.answered 2 = none ∧
       (p.asked.find? fun (x : Nat × Nat) => x.1 == 3) = some (3, 0) ∧ (∀ x ∈ p.asked, x.1 ≠ 4) ∧
       p.leases.any (fun l => !l.lent && !l.winding && decide (l.until_ ≤ 0 + 20000)) = true ∧
       0 + 20000 < 0 + (30000 * 127 + 127) / 128 ∧ 0 + (20000 * 127 + 127) / 128 ≤ 0 + 20000) := by
  refine ⟨?_, ?_, ?_, ?_, ?_, ?_, ⟨6003, ?_⟩, ?_⟩ <;> decide

/-- Window 0 maps the first 4 GiB, or reads only, or nothing. -/
def hosted (win : Nat) : State :=
  let s := one cachedPte supHart
  s.setPkg { s.pkg with hwin := s.pkg.hwin.set 0 win }

theorem witness_HostInterface :
    (∀ win ∈ [2 ^ 63 + 2 ^ 62, 2 ^ 63, 0, 2 ^ 63 + 2 ^ 62 + 0xC00 * 2 ^ 32],
      let s := hosted win
      vat s.pkg.hwin (0x5003F % 2 ^ 36 / 2 ^ 32) 0 = win ∧ 0x5003F % 64 + 1 ≤ 64 ∧ s.pkg.requesters = [] ∧ s.requesterHeld 7 = false ∧
        s.supHart 0 = some 0 ∧ s.memOk = true ∧ s.reaches 0 (homeDie 0x5003F) = true) ∧
    (let s := hosted (2 ^ 63 + 2 ^ 62)
     s.exists? 0x5003F = true ∧ regionOf 0x5003F = .pool 0 0 ∧ (s.frameInfo (0x5003F / 65536)).slot = none ∧
       s.PlainFrame (0x5003F / 65536)) ∧
    ((hosted (2 ^ 63 + 2 ^ 62 + 0x18 * 2 ^ 32)).exists? 0x180005003F = false ∧ regionOf 0x180005003F ≠ .host) ∧
    (let s := weir supHart 0 coldFrame
     let s := s.setDie 0 { s.die 0 with held := [{ heldOne with master := .inbound 7 }] }
     let s := s.setPkg { s.pkg with onwctl := 0x5001 }
     s.pkg.requesters = [] ∧ s.requesterHeld 7 = true ∧ s.pkg.onwctl.testBit 0 = true ∧ 0x5FF8 / 4096 = s.pkg.onwctl / 4096 ∧
       0x5FF8 + 8 ≤ 2 ^ 36) ∧
    (regionOf 0xC0000000000 = .dev 0 0 ∧ 0xC0000000004 % 8 ≠ 0 ∧ ∀ d, d < 8 → ∀ n, n < 36 →
      regionOf (0xC0000000000 + d * 0x100000000 + 0x200000 + n * 0x1000 + 8) = .dev d (0x200000 + n * 0x1000 + 8)) ∧
    ((one cachedPte supHart).hart? 0 = some supHart ∧ supHart.frozen = none ∧
      ({ supHart with frozen := some ⟨.bkpt, 0, 0⟩ } : Hart).frozen.isSome = true) ∧
    (let h := queued (.vst plainHdr 0 1) supHart
     (one cachedPte h).hart? 0 = some h ∧ h.entry? .vector 1 = none ∧ Queue.vector.code < 3 ∧
       ∃ e, h.entry? .vector 0 = some e ∧ e.frozen = none) := by
  refine ⟨?_, ?_, ?_, ?_, ?_, ?_, rfl, rfl, ?_, _, rfl, rfl⟩
  case refine_2 => exact ⟨by decide, by decide, by decide, by unfold State.PlainFrame; decide⟩
  all_goals decide

/-! #### Links, ports, transfers, frozen masters -/

def anyXfer : Xfer := { id := 3, desc := none, sent := true, code := none, poster := none, port := 2, src := 0, dst := 0, len := 1, cpa := 0, inc := 0, lpa := 0x50000, adding := false }
/-- Die 0 with a transfer in flight and a finished region of one frame at 0x60000. -/
def fabric (l : List Xfer) : State :=
  let s := one cachedPte supHart
  s.setDie 0 { s.die 0 with inflight := l, finbase := 0x60000, finsize := 1,
                            ports := (s.die 0).ports.set 3 { state := 0, peer := 0, retry := 0 } }
/-- The descriptor at 0x40 of one byte at 0x50000 for port 2, port 3 or none. -/
def posted (port : Nat) (l : List Xfer) : State :=
  { fabric l with mem := (Memory.writeAll [] (cellsAt 0x40 8 0x50000 ++ cellsAt 0x50 8 1 ++ cellsAt 0x58 8 port ++ cellsAt 0x70 8 0x50008)) }

theorem plainByte_of {s : State} {a d p : Nat} (hr : regionOf a = .pool d p)
    (e : s.exists? a = true ∧ (s.frameInfo (a / 65536)).lossless = false ∧ (s.frameInfo (a / 65536)).cold = false ∧
      (s.frameInfo (a / 65536)).maxeff = false ∧ (s.frameInfo (a / 65536)).slot = none) : PlainByte s a := ⟨e.1, e.2, plain_of hr⟩

theorem witness_Fabric :
    (let l := (one cachedPte supHart).link 0 0
     getD l.failed 5 0 + 1 < 3 ∧ ¬ getD ({ l with failed := [(5, 2)] } : Link).failed 5 0 + 1 < 3 ∧ 0x10000 % 65536 = 0 ∧ 0x8000 % 65536 ≠ 0) ∧
    (let s := fabric [anyXfer]
     (∀ c, c < 8 → ((s.die c).inflight.filter fun x => x.desc.isNone && x.code.isNone && x.port == 2) = if c = 0 then [anyXfer] else []) ∧
       (∀ c, c < 8 → ((s.die c).inflight.filter fun x => x.desc.isNone && x.code.isNone && x.port == 1) = []) ∧ s.memOk = true ∧
       PlainWord s 0 anyXfer.lpa ∧ (s.port 3).state = 0 ∧ (∀ p ∈ s.dies, ∀ z ∈ p.2.inflight, z.id = 3 → p.1 = 0 ∧ z = anyXfer) ∧
       ∀ p ∈ s.dies, ∀ z ∈ p.2.inflight, z.id ≠ 4) ∧
    (∀ q ∈ [(2, false), (3, false), (32, true), (256, true)],
      let s := posted q.1 []
      let f := fun o => Memory.num s.mem (0x40 / 64 % 2 ^ 46 * 64 + o) 8
      (decide (256 ≤ f 0x18) || decide (31 < f 0x18)) = q.2 ∧ f 0x10 = 1 ∧ f 0x38 = 0 ∧ f 0x20 % 8 = 0 ∧ f 0x30 % 8 = 0 ∧
        s.exists? (f 0) = true ∧ s.reaches 0 (homeDie 0x40) = true ∧ s.reaches 0 (homeDie (f 0)) = true ∧ s.NoneMigrated ∧
        s.memOk = true ∧ (s.die 0).inflight.length < 64 ∧ (∀ z ∈ (s.die 0).inflight, z.id ≠ s.fresh) ∧ f 0x30 = 0x50008 ∧
        s.reaches 0 (2 / 4) = true ∧ s.reaches 0 (homeDie (f 0 + f 0x10 - 1)) = true) ∧
    anyXfer.code = none ∧
    (64 ≤ ((posted 2 (List.replicate 64 anyXfer)).die 0).inflight.length ∧ ((posted 2 []).port 2).state ≠ 0) ∧
    PlainWord (posted 2 []) 0 0x50008 ∧
    (let s := posted 2 []
     let s := s.setDie 0 { s.die 0 with links := Vector.replicate 2 { s.link 0 0 with state := 0 } }
     s.reaches 0 (homeDie 0x2000000040) = false ∧ s.memOk = true ∧
     let s := s.setDie 0 { s.die 0 with finbase := 0x2000000000, finsize := 1 }
     let x := s.die 0
     (x.finsize ≠ 0 ∧ x.finbase ≤ 0x2000000040 ∧ 0x2000000040 + 1 ≤ x.finbase + x.finsize * 65536) ∧
       s.reaches 0 (homeDie 0x2000000040) = false) ∧
    (let s := fabric []
     let x := s.die 0
     (x.finbase ≤ 0x6FFF8 ∧ 0x6FFF8 + 8 ≤ x.finbase + x.finsize * 65536) ∧ ¬ 0x6FFF9 + 8 ≤ x.finbase + x.finsize * 65536 ∧
       x.finsize ≠ 0 ∧ s.reaches 0 (homeDie 0x6FFF8) = true ∧ s.reaches 0 (homeDie (0x6FFF8 + 8 - 1)) = true ∧ PlainWord s 0 0x60000 ∧
       0x60000 + 8 ≤ 0x6FFF8 ∧ ∀ a, 0x6FFF8 ≤ a → a < 0x6FFF8 + 8 → PlainByte s a ∧ s.reaches 0 (homeDie a) = true) := by
  have hp : ∀ {s : State} {a}, (a % 8 = 0 ∧ s.reaches 0 (homeDie a) = true) → regionOf a = .pool 0 0 →
      (s.exists? a = true ∧ (s.frameInfo (a / 65536)).lossless = false ∧ (s.frameInfo (a / 65536)).cold = false ∧
        (s.frameInfo (a / 65536)).maxeff = false ∧ (s.frameInfo (a / 65536)).slot = none) → PlainWord s 0 a :=
    fun h8 hr e => .inr ⟨h8.1, plainByte_of hr e, h8.2⟩
  have inside : ∀ a, 0x6FFF8 ≤ a → a < 0x6FFF8 + 8 → PlainByte (fabric []) a ∧ (fabric []).reaches 0 (homeDie a) = true := by
    intro a h1 h2
    have : ∃ j, a = 0x6FFF8 + j ∧ j < 8 := ⟨a - 0x6FFF8, by omega, by omega⟩
    obtain ⟨j, rfl, hj⟩ := this
    exact ⟨plainByte_of (d := 0) (p := 0) (by revert j; decide) (by revert j; decide), by revert j; decide⟩
  refine ⟨?_, ⟨?_, ?_, ?_, hp ?_ ?_ ?_, ?_, ?_, ?_⟩, ?_, rfl, ?_, hp ?_ ?_ ?_, ?_, ?_, ?_, ?_, ?_, ?_, hp ?_ ?_ ?_, ?_, inside⟩
  all_goals first | decide | (unfold State.NoneMigrated; decide)

theorem witness_FrozenMasters :
    (∀ r ∈ [1, 0x14, 0x15], let h := { userHart with frozen := some ⟨.bkpt, 0x50000, 5⟩, frozenReason := r }
     (one cachedPte h).hart? 0 = some h ∧ h.ctx < 64 ∧ h.frozen.isSome = true ∧ userHart.frozen = none) ∧
    (let q := queued (.vst plainHdr 0 1) supHart
     let h := { q with vq := q.vq.map fun v => { v with e := { v.e with frozen := some 0x15, stopped := true } } }
     (one cachedPte h).hart? 0 = some h ∧ ∃ e, h.entry? .vector 0 = some e ∧ e.frozen = some 0x15) ∧
    (let y : Inbound := { wr := true, bar0 := false, notify := false, off := 0, len := 1, data := 5, pos := 0, got := 0, wid := none, frozen := true }
     let s := (one cachedPte supHart).setPkg { Pkg.reset with requesters := [⟨7, 2, [y]⟩] }
     s.pkg.requesters = [⟨7, 2, [y]⟩] ∧ y.frozen = true ∧ s.requesterHeld 7 = false) ∧
    (let h := { userHart with strip := some openStrip }
     (one cachedPte h).hart? 0 = some h ∧ h.frozen = none ∧ h.strip = some openStrip ∧ userHart.strip = none ∧
       (∃ c ∈ ((dirtied h).stn 0).dirty, c.1 / 64 = 0x50001 / 64) ∧ ∀ c ∈ ((dirtied h).stn 0).dirty, c.1 / 64 ≠ 0x60000 / 64) := by
  refine ⟨fun r _ => ⟨rfl, Nat.zero_lt_succ 63, rfl, rfl⟩, ⟨rfl, _, rfl, ?_⟩, ?_, rfl, ?_⟩ <;> decide

/-! #### The service controller, boot and power -/

/-- A service controller in state `st`. -/
def service (st : Nat) (s : State) : State := s.setPkg { s.pkg with svcst := st }

/-- A package both of whose links of die 0 are down. -/
def far (s : State) : State := s.setDie 0 { s.die 0 with links := Vector.replicate 2 { s.link 0 0 with state := 0 } }
/-- A write of the service controller that the Weir holds. -/
def s0Held : State :=
  let s := weir supHart 0 coldFrame
  s.setDie 0 { s.die 0 with held := [{ heldOne with master := .inbound 65544 }] }

theorem witness_ServiceCommands :
    (let s := service 1 (one cachedPte supHart)
     s.pkg.svcst = 1 ∧ (service 0 s).pkg.svcst ≠ 1 ∧ s.pkg.svcOp = none ∧ (∀ x ∈ s.dies, x.2.held = []) ∧
       (s.setPkg { s.pkg with svcOp := some (1, 0, 0) }).pkg.svcOp ≠ none ∧
       s.reaches 0 (homeDie 0x60000) = true ∧ (let s := far s; s.reaches 0 (homeDie 0x2000000000) = false ∧ s.pkg.svcst = 1)) ∧
    (let s := s0Held
     ∃ x ∈ s.dies, ∃ w ∈ x.2.held, w.master = .inbound 65544) ∧
    (let s := service 0 (one cachedPte supHart)
     Memory.num s.mem (0x60000 + 0) 4 ≠ 0x4C58494D ∧ 2 ^ 52 ≤ 2 ^ 52 ∧ ¬ 2 ^ 52 ≤ 0x60000 ∧
       (s.hart? 0).isSome = true ∧ s.hart? 575 = none ∧ (s.stn (575 / 16)).state = 0 ∧ ¬ 35 < 575 / 16 % 64 ∧ 35 < 576 / 16 % 64) ∧
    (let s := service 0 { one cachedPte supHart with mem := Memory.writeAll [] (cellsAt 0x60000 4 0x4C58494D ++ cellsAt 0x60004 2 1 ++
        cellsAt 0x60006 2 4 ++ cellsAt 0x6000C 4 0x1000000) }
     let f := fun o n => Memory.num s.mem (0x60000 + o) n
     f 0 4 = 0x4C58494D ∧ f 4 2 = 1 ∧ f 6 2 = 4 ∧ f 0xC 4 = 0x1000000 ∧ f 0x10 16 = 0) ∧
    (∀ st ∈ [0, 1, 2, 3], let s := service 0 ((one cachedPte supHart).setStn 35 { Station.reset with state := st })
      s.pkg.svcst ≠ 1 ∧ ¬ 2 ^ 11 ≤ 35 ∧ 35 / 64 % 4 = 0 ∧ (s.stn (35 / 256 * 64 + 35 % 64)).state = st ∧ (s.spare (35 / 256)).1 = 0 ∧
        Station.reset.temp < (s.die (35 / 256)).warn ∧ 64 / 64 % 4 ≠ 0) ∧
    (∀ F ∈ [1572864 + 0x40000, 1572863 + 0x40000], let s := service 0 (weir supHart F coldFrame)
      let P := s.pool 0 0
      128 / 128 % 2 ≠ 0 ∧ 127 % 128 ∉ P.retired ∧ P.enabled = true ∧ (1572864 + P.wlow ≤ P.free ↔ F = 1572864 + 0x40000) ∧
        127 ∈ ({ P with retired := [127] } : Pool).retired) := by
  refine ⟨by decide, ⟨_, .head _, _, .head _, rfl⟩, ?_⟩
  decide

/-- A report that a plain range has room for, whatever its length: the device-physical addresses of pool 0 below 96 GiB. -/
theorem witness_Attest {s : State} (hd : s.dies = []) (n : Nat) (hn : n < 2 ^ 28) :
    ∀ x, 0x60000 + 0x40 ≤ x → x < 0x60000 + 0x40 + n → PlainByte s x ∧ s.reaches 0 (homeDie x) = true := by
  intro x h1 h2
  have hx : x < 2 ^ 29 := by omega
  have hd0 : s.die 0 = Die.reset := by simp [State.die, hd, getD, find?]
  refine ⟨plainByte_of (region_one hx) ⟨?_, plain_one hd hx⟩, by simp [homeDie, region_one hx, State.reaches]⟩
  · have hs : s.spanOf 0 0 = 16 * poolDram 0 / 16 / 65536 * 65536 := by
      have hp : s.pool 0 0 = Pool.reset 201326592 := by
        simp only [State.pool, hd0]; rfl
      simp only [State.spanOf, hp]; rfl
    have : 16 * poolDram 0 / 16 / 65536 * 65536 = 103079215104 := by decide
    simp only [State.exists?, region_one hx, hs, this, poolBase, hbmBase, decide_eq_true_eq, if_true]
    omega

/-- Station 0 with 2,048 lines in slice 0, clean or dirty. -/
def crowded (clean dirty : List Nat) : Station :=
  { Station.reset with clean := clean.map fun i => (16 * i, []), dirty := dirty.map fun i => (1024 * i, 1) }

theorem find?_none {α : Type} {l : List (Nat × α)} {k : Nat} (h : ∀ c ∈ l, c.1 ≠ k) : find? l k = none := by
  induction l with
  | nil => rfl
  | cons c l ih =>
    simp only [find?]
    rw [if_neg (h c (.head _))]
    exact ih fun x hx => h x (.tail _ hx)

/-- One byte in each of `n` lines makes `n` lines. -/
theorem bufLines_fold (n : Nat) : ∀ (a : Nat) (l : List Nat), (∀ x, l.head? = some x → x < 16 * a) →
    (((List.range' a n).map fun i => ((1024 * i, 1) : Host.Cell)).foldl
      (fun (l : List Nat) (c : Host.Cell) => if l.head? = some (c.1 / 64) then l else c.1 / 64 :: l) l).length = l.length + n := by
  induction n with
  | zero => intro a l _; rfl
  | succ n ih =>
    intro a l h
    have e : 1024 * a / 64 = 16 * a := by omega
    simp only [List.range'_succ, List.map_cons, List.foldl_cons, e]
    rw [if_neg fun c => absurd (h _ c) (by omega), ih (a + 1) _ fun x hx => by
      simp only [List.head?_cons, Option.some.injEq] at hx
      omega]
    simp only [List.length_cons]
    omega

/-- A full slice with a clean line that leaves, and one whose lines are all dirty. -/
theorem witness_StationCacheFill :
    (let s := one cachedPte supHart
     s.exists? (32768 * 64) = true ∧ (s.frameInfo (32768 / 1024)).slot = none ∧ regionOf (32768 * 64) = .pool 0 0 ∧
       s.reaches 0 (homeDie (32768 * 64)) = true) ∧
    (let t := crowded (List.range' 0 2048) []
     t.full 32768 = true ∧ ∃ r, t.sliceClean (32768 % 16) = 0 :: r) ∧
    (let t := crowded [] (List.range' 0 2048)
     t.full 32768 = true ∧ t.sliceClean (32768 % 16) = []) := by
  have f1 : ((List.range' 0 2048).map fun i => ((16 * i, []) : Nat × List Byte)).filter (fun c => c.1 % 16 == 0) =
      (List.range' 0 2048).map fun i => (16 * i, []) :=
    List.filter_eq_self.2 fun c hc => by
      obtain ⟨i, -, rfl⟩ := List.mem_map.1 hc
      simp
  have h1 : (crowded (List.range' 0 2048) []).holds 32768 = false := by
    simp only [Station.holds, crowded, List.map_nil, List.any_nil, Bool.or_false]
    rw [Option.isSome_eq_false_iff, Option.isNone_iff_eq_none]
    exact find?_none fun c hc => by
      obtain ⟨i, hi, rfl⟩ := List.mem_map.1 hc
      rw [List.mem_range'_1] at hi
      show 16 * i ≠ 32768
      omega
  have c1 : (crowded (List.range' 0 2048) []).sliceClean 0 = (List.range' 0 2048).map (16 * ·) := by
    simp only [Station.sliceClean, crowded, f1, List.map_map, List.map_nil, List.any_nil, Bool.not_false]
    rw [List.filter_eq_self.2 fun _ _ => rfl]
    rfl
  have f2 : ((List.range' 0 2048).map fun i => ((1024 * i, 1) : Host.Cell)).filter (fun c => c.1 / 64 % 16 == 0) =
      (List.range' 0 2048).map fun i => (1024 * i, 1) :=
    List.filter_eq_self.2 fun c hc => by
      obtain ⟨i, -, rfl⟩ := List.mem_map.1 hc
      simp only [beq_iff_eq]
      omega
  have h2 : (crowded [] (List.range' 0 2048)).holds 32768 = false := by
    simp only [Station.holds, crowded, List.map_nil, find?, Option.isSome_none, Bool.false_or, List.any_eq_false]
    intro c hc
    obtain ⟨i, hi, rfl⟩ := List.mem_map.1 hc
    rw [List.mem_range'_1] at hi
    simp only [beq_iff_eq]
    omega
  have c2 : ((crowded [] (List.range' 0 2048)).sliceDirty 0).length = 2048 := by
    simp only [Station.sliceDirty, crowded, f2, List.length_reverse]
    exact (bufLines_fold 2048 0 [] nofun).trans rfl
  have len : ∀ {α : Type} (f : Nat → α), ((List.range' 0 2048).map f).length = 2048 := by simp
  refine ⟨by decide, ⟨?_, (List.range' 1 2047).map (16 * ·), c1⟩, ?_, rfl⟩
  · simp only [Station.full, h1, c1, len, Bool.not_false, Bool.and_true, Bool.and_eq_true, decide_eq_true_eq]
    simp only [crowded, len]
    omega
  · simp only [Station.full, h2, c2, Bool.not_false, Bool.and_true, Bool.and_eq_true, decide_eq_true_eq]
    simp only [crowded, len]
    omega

/-- A station that drains, with and without a dirty line, and a core whose march has run. -/
theorem witness_StationsAndMarch :
    (let s := (one cachedPte supHart).setStn 5 { Station.reset with state := 1 }
     (s.stn 5).state = 1 ∧ (∀ q ∈ s.harts, stnOf q.1 ≠ 5) ∧ (s.stn 5).dirty = []) ∧
    (let s := dirtied supHart
     (s.stn 0).dirty.filter (fun c => c.1 / 64 == 0x50000 / 64) ≠ [] ∧ (s.stn 0).dirty.filter (fun c => c.1 / 64 == 7) = [] ∧
       s.exists? (0x50000 / 64 * 64) = true ∧ (s.frameInfo (0x50000 / 64 / 1024)).slot = none ∧
       regionOf (0x50000 / 64 * 64) = .pool 0 0 ∧ find? (s.stn 0).clean (0x50000 / 64) = none ∧ (s.stn 0).full (0x50000 / 64) = false ∧
       s.reaches (0 / 64) (homeDie (0x50000 / 64 * 64)) = true ∧ s.exists? (0x180000000 * 16) = false) ∧
    PlainByte (dirtied supHart) (0x50000 / 64 * 64) ∧
    (let s := one cachedPte supHart
     let c := s.core 143
     s.pkg.boot = 0 ∧ (∀ x ∈ c.defects, x.target ≠ 0) ∧ vat c.pattern 0 1 = 1 ∧ c.fails = [] ∧ c.rpt.length < 32 ∧
       (∀ j, j < 4 → (s.core (256 * 0 + 144 + j)).unrep = 0) ∧ (∀ f ∈ ({ c with fails := [(1, 0, 0)] } : Core).fails, f.1 ≠ 0) ∧
       (s.setPkg { s.pkg with marched := true }).pkg.marched = true ∧ (s.setPkg { s.pkg with boot := 1 }).pkg.boot ≠ 0) ∧
    (let c := { Core.reset with fails := [(0, 1, 2)] }
     c.fails = [(0, 1, 2)] ∧ (∀ e ∈ c.rpt, ¬ (e.unrep = false ∧ e.target = 0 ∧ e.macroNo = 1 ∧ e.spare = 0)) ∧ ∀ x ∈ c.defects, x.target ≠ 0) := by
  refine ⟨?_, ?_, plainByte_of (d := 0) (p := 0) ?_ ?_, ?_, ?_⟩ <;> decide

theorem witness_BootPowerAndSave :
    (let s := one cachedPte supHart
     s.pkg.powered = true ∧ find? s.pkg.flash 1 = none ∧ (∀ d, d < 8 → (s.die d).esstate = 0) ∧ (s.setPkg { s.pkg with powered := false }).pkg.powered = false ∧
       (∀ d, d < 8 → Memory.num s.mem (s.die d).esbase 4 ≠ 0x4C584548) ∧ (∀ c ∈ s.cores, c.2.defects = [])) ∧
    (let s := (one cachedPte supHart).setDie 0 { Die.reset with esbase := 0x10000, essize := 1 }
     (∀ i, i < 1 → regionOf (((s.die 0).esbase / 65536 + i) * 65536) = .pool 0 0 ∧
       s.exists? (((s.die 0).esbase / 65536 + i) * 65536) = true ∧ s.lossless ((s.die 0).esbase / 65536 + i) = false)) ∧
    (let s := (one cachedPte supHart).setDie 0 { Die.reset with esbase := lpddrBase 0, essize := 1 }
     regionOf (((s.die 0).esbase / 65536 + 0) * 65536) = .pool 0 1) ∧
    (let s := { (one cachedPte supHart).setDie 0 { Die.reset with esbase := 0x10000, essize := 1, esstate := 1, arm := true } with harts := [] }
     s.harts = [] ∧ (s.die 0).crit ≤ 105 ∧ ¬ (s.die 0).crit ≤ 104 ∧ s.pkg.boot ≠ 3 ∧ s.pkg.powered = true ∧ (s.die 0).esstate = 1 ∧
       (∀ i, i < 8 → i ≠ 0 → (s.die i).esstate = 0) ∧ (s.die 0).crit ≤ 115 ∧ 1 ≤ (s.die 0).essize ∧
       (∀ x ∈ s.stations, x.1 ≠ 0 → x.2.temp < 115 ∧ (x.2.temp < (s.die (x.1 / 64)).crit ∨ s.pkg.boot = 3)) ∧
       (s.die 0).esbase % 65536 = 0 ∧ s.PlainFrame ((s.die 0).esbase / 65536)) ∧
    (let s := (one cachedPte supHart).setDie 0 { Die.reset with crit := 120 }
     ¬ (s.die 0).crit ≤ 119 ∧ 115 ≤ 119) := by
  unfold State.PlainFrame
  decide

/-! #### Hart events -/

/-- A re-deal at the head of the queue, from 256 to 512 lanes of two elements of register 0. -/
def redealt : Hart :=
  let h := loadReg 0 32 [5, 6] (typed 2 vtInt supHart)
  { h with vq := [{ e := h.newEntry 0 (.vsetvl 0 0 0) 0 0 0 0,
                    redeal := some { keep := 1, n := 2, group := 1, lOld := 256, lNew := 512, spilled := [] } }] }

/-- A VADD alone in the queue, started or not. -/
def laned (started : Bool) (progress : Nat) : Hart :=
  let h := loadReg 0 32 [5, 6] (typed 2 vtInt supHart)
  { h with vq := [{ e := { h.newEntry 0 (.vaddV plainHdr 2 0 1) 0 0 1 0 with started := started, eff := 2, progress := progress },
                    redeal := none }] }

/-- A WAITW at scope .gang that waits for the word at 0x50000 to differ from `b`. -/
def watchOf (b : W64) : Watch := { d := 31, b := b, sc := 4, va := 0x50000, x := some (xl cachedPte 0x50000) }
def watched : Watch := watchOf 0

set_option maxRecDepth 100000 in
theorem witness_HartEvents_waits :
    (∀ w ∈ [.waitw watched, .bar, .tkpop 2, .swait 1 3], let h := { userHart with wait := some w }
      (one cachedPte h).hart? 0 = some h ∧ h.wait = some w ∧ h.vq = [] ∧ ((one cachedPte h).stn 0).watch = [] ∧ h.tokens (fifo 2 engScalar) = 0 ∧
        0 < (tokened h).tokens (fifo 2 engScalar)) ∧
    (∀ b ∈ [0, 5], let w := watchOf b
      let h := { userHart with wait := some (.waitw w) }
      let s := one cachedPte h
      let x := xl cachedPte 0x50000
      s.hart? 0 = some h ∧ h.wait = some (.waitw w) ∧ (∀ l, (0, l) ∉ (s.stn (stnOf 0)).watch) ∧ (∀ l, (0, l) ∉ s.watch) ∧ h.held = none ∧
        h.frozen = none ∧ w.x = some x ∧ w.d < 32 ∧ 3 ≤ w.sc ∧ h.stripAt w.va = none ∧ regionOf x.pa = .pool 0 0 ∧ x.pa % 64 + 8 ≤ 64 ∧
        (s.frameInfo (x.pa / 65536)).slot = none ∧ s.cutOff 0 x.pa = false ∧ (s.stn (stnOf 0)).full (x.pa / 64) = false ∧
        (∀ j, j < 8 → find? (s.stn (stnOf 0)).dirty (x.pa + j) = none) ∧
        (BitVec.ofNat 64 (littleEndian 8 fun j => Memory.read s.mem (x.pa + j)) = w.b ↔ b = 0)) ∧
    (({ watched with x := none } : Watch).x = none ∧ (0, 5) ∈ ({ one cachedPte userHart with watch := [(0, 5)] } : State).watch) ∧
    (supHart.full .vector = false ∧
      ({ supHart with sq := List.replicate 16 (supHart.newEntry 0 (.sunbind 0 0) 0 0 0 0) } : Hart).full .stream = true) ∧
    (let h := { userHart with wait := some (.yard 3 5 1 1) }
     (one cachedPte h).hart? 0 = some h ∧ ∃ hg, ((one cachedPte h).yardGrant 0 1).1.hart? 0 = some hg ∧ hg.heldGroups.length = 1 ∧ hg.groups.length = 1) ∧
    (let h := { supHart with wait := some (.restore 3 zeroGen) }
     (restorable h supHart).hart? 0 = some h ∧ ∃ f ∈ (restorable h supHart).frames, f.gen = zeroGen ∧
       (∀ x ∈ (restorable h supHart).frames, x = f) ∧ f.tiles = [] ∧ f.hart.gang = none ∧ f.hart.gcount ≤ 1 ∧ f.hart.gneed ≤ 1 ∧
       f.hart.frozen = none ∧ ∃ g, h.groups = [g] ∧ g.st = .granted) := by
  refine ⟨?_, ?_, ?_, ?_, ⟨rfl, _, rfl, ?_⟩, rfl, _, .head _, rfl, fun x hx => ?_, ?_, ?_, ?_, ?_, ?_, _, rfl, ?_⟩
  case refine_2 =>
    intro b hb
    have hb : b = 0 ∨ b = 5 := by simpa using hb
    rcases hb with rfl | rfl
    all_goals exact ⟨rfl, rfl, fun l => nofun, fun l => nofun, by decide⟩
  case refine_6 => simpa [restorable, one] using hx
  all_goals decide

set_option maxRecDepth 100000 in
theorem witness_HartEvents_traps :
    (let h := { userHart with pc := 0x20000000 }
     (one cachedPte h).cur = 0 ∧ h.MayTrap ∧
       (one cachedPte h).probe1 (h.fetcher 0) { e := 0, va := h.pc.toNat, n := 4, k := .x, al := 4 } = some (.pgfltX, 0x20000000)) ∧
    (∀ v ∈ [true, false],
      let f : EFault := { q := .vector, slot := 63, pc := 0x50000, cause := .align, val := 3, estart := 2, valid := v }
      let h := { userHart with faults := [f, { f with q := .stream }] }
      (one cachedPte h).hart? 0 = some h ∧ h.frozen = none ∧ h.wait = none ∧ h.held = none ∧ h.MayTrap ∧
        h.faults.filter (fun x => x.q == f.q) = [f] ∧ ∀ x ∈ h.faults, f.q.code ≤ x.q.code ∧ f.slot < 64) ∧
    (∀ b, b < 5 → let h := { userHart with status := 0x1F02, ipend := 2 ^ b }
      (one cachedPte h).hart? 0 = some h ∧ h.ie = true ∧ h.faults = [] ∧ h.held = none ∧ h.ipend.testBit b = true ∧
        h.status.getLsbD (8 + b) = true ∧ ∀ k, k < 5 → b < k → h.ipend.testBit k = false) ∧
    (let s := { one cachedPte supHart with now := 100, ctxs := [(0, { live := true, gen := 1, slice := 50, energy := 0, frac := 0 })] }
     (s.ctx 0).slice = 50 ∧ supHart.saved = false ∧ supHart.wait = none ∧ supHart.sliceHead = none ∧ ¬ s.now < supHart.sliceStart + supHart.effective.getD 50) := by
  unfold Hart.MayTrap
  decide

set_option maxRecDepth 100000 in
theorem witness_HartEvents_lanes :
    (let h := redealt
     (one cachedPte h).hart? 0 = some h ∧ ∃ e r, h.vq = [{ e := e, redeal := some r }] ∧ e.runnable = true ∧ h.qstop = false ∧
       h.mq = [] ∧ h.sq = [] ∧ r.spilled = [] ∧ e.tk = 0 ∧ r.keep.testBit 0 = true ∧ r.keep.testBit 1 = false ∧ 0 < r.lOld ∧ 0 < r.lNew ∧
       (∃ T, (vreg h.v 0).tag = some T ∧ T.w = 32) ∧ elemKnown h.v { L := 256, R := 32 } 0 1 32 1 = true ∧
       ({ L := 512, R := 32 } : Geo).has 1 32 1 = true ∧ r.n = 2) ∧
    (let q := queued (.vaddV plainHdr 2 0 1) (typed 2 vtInt supHart)
     let h := { q with groups := [⟨0, 0, 0, .granted⟩, ⟨1, 0, 4, .spilled⟩] }
     (one cachedPte h).hart? 0 = some h ∧ (∃ v, h.vq = [v] ∧ v.redeal = none ∧ v.e.started = false) ∧ h.qstop = false ∧ h.wait = none ∧
       h.frozen = none ∧ (∀ p ∈ (one cachedPte h).harts, stnOf p.1 = stnOf 0 → p = (0, h)) ∧ (∀ g ∈ h.groups, g.st ≠ .parked) ∧
       h.groups.length ≤ 64 ∧ (∃ g ∈ h.groups, g.st = .spilled) ∧
       ∀ g ∈ h.groups, g.st = .spilled → (one cachedPte h).probe1 (h.who 0)
         { e := 0, va := h.spill + g.idx * 0x20000, n := 0x20000, k := .r, al := 1 } = none ∧
         (one cachedPte h).walkAway (h.who 0) (h.spill + g.idx * 0x20000) 0x20000 = false) ∧
    (∀ p ∈ [(false, 0, false), (true, 0, false), (true, 256, true)],
      let h := laned p.1 p.2.1
      (one cachedPte h).hart? 0 = some h ∧ ∃ v x, h.vq = [v] ∧ v.redeal = none ∧ vecSpec v.e.op = some x ∧ v.e.runnable = true ∧
        h.qstop = false ∧ h.mq = [] ∧ h.sq = [] ∧ h.binds = [] ∧ h.sbpend = [] ∧ v.e.pos = [] ∧ v.e.ran = [] ∧ v.e.tk = 0 ∧ (∀ g ∈ h.groups, g.st ≠ .spilled) ∧
        v.e.started = p.1 ∧ x.issueFault h v.e = none ∧ x.finished h v.e = p.2.2 ∧ 0 / 4 = stnOf 0 ∧
        (∃ g ∈ h.groups, g.st = .granted ∧ g.core = 0 % 4) ∧ (∀ g ∈ h.groups, g.st = .granted → g.core = 0 % 4) ∧
        ∀ p ∈ (one cachedPte h).harts, p = (0, h)) ∧
    (let k := { Core.reset with clock := 2 ^ 20, issued := [(0, 0)] }
     k.starved = none ∧ find? k.issued 0 = some 0 ∧ 0 + 2 ^ 20 ≤ k.clock ∧ Core.reset.issued = []) := by
  refine ⟨⟨rfl, _, _, rfl, ?_, ?_, ?_, ?_, ?_, ?_, ?_, ?_, ?_, ?_, ⟨_, rfl, ?_⟩, ?_⟩, ⟨rfl, ⟨_, rfl, ?_⟩, ?_⟩, ?group, ?_⟩
  case group =>
    simp only [List.mem_cons, List.not_mem_nil, or_false, forall_eq_or_imp, forall_eq]
    refine ⟨⟨rfl, _, _, rfl, rfl, rfl, ?_⟩, ⟨rfl, _, _, rfl, rfl, rfl, ?_⟩, rfl, _, _, rfl, rfl, rfl, ?_⟩ <;> decide
  all_goals decide

/-! ### Worked examples of the specification

Each expected value is printed in the specification, in the example the comment names. -/

/-- One step from `s`, and what `f` reads of the executing hart's state after it. -/
def after {α : Type} (o : Out) (f : Hart → α) : Option α :=
  match o with
  | .next t => (t.hart? t.cur).map f
  | _ => none

/-- R155, Example: lui g5, 0x1000 then addi g5, g5, 0x400. -/
theorem test_lui : after (exec (.lui 5 0x1000) (one cachedPte supHart)) (fun h => h.rg 5) = some 0x10000000 := by decide
theorem test_addi : after (exec (.addi 1 1 0x400) (one cachedPte (withG supHart 0x10000000 0 0))) (fun h => h.rg 1) =
    some 0x10000400 := by decide

/-- R155: the LUI result of 0x8000 is sign-extended. -/
theorem test_lui_sign : after (exec (.lui 5 0x8000) (one cachedPte supHart)) (fun h => h.rg 5) =
    some 0xFFFFFFFF80000000 := by decide

/-- R41: `addi g3, g2, 5` stored at the program's first address is what the first step after reset runs. -/
theorem test_first_step : after (step (State.reset.withFetchWord 32 0x04620005)) (fun h => (h.rg 3, h.pc)) =
    some (5, 0x50004) := by decide +kernel

/-- R227, Example: w = 4 and gA = 0x1000 put element 5 in bits 4 to 7 of byte 0x1002. -/
theorem test_bit_address :
    let h := typed 16 0x30C3 (withG supHart 0x1000 0 0)
    let o := vmuPlain plainHdr 1 .unit 0 .load
    o.place (o.env h (h.newEntry 0 (.vld plainHdr 1 1) 0 1 0 0)) 5 = (0x1002, 4, 1) := by decide

/-- R227, Example: w = 12 and a stride of 12 bits put element 1 in bits 4 to 7 of byte 0x1001 and byte 0x1002. -/
theorem test_bit_stride :
    let h := typed 16 0xB2CB (withG supHart 0x1000 12 0)
    let o := vmuPlain plainHdr 1 .strided 2 .load
    o.place (o.env h (h.newEntry 0 (.vlds plainHdr 1 1 2) 0 1 2 0)) 1 = (0x1001, 4, 2) := by decide

/-- R280, Example: the e2m1 codes. -/
theorem test_e2m1_codes : [0, 1, 2, 3, 4, 5, 6, 7, 8, 9].map Fmt.e2m1.value =
    [.fin false 0, .fin false (1 / 2), .fin false 1, .fin false (3 / 2), .fin false 2, .fin false 3, .fin false 4, .fin false 6,
     .fin true 0, .fin true (-1 / 2)] := by decide +kernel

/-- R283, Example: 6.5 in e2m1 under SR stays 6 for r below 49,152 and overflows to 8, which saturates, from there on. -/
theorem test_sr_rounding : (Fmt.e2m1.round (13 / 2) (.sr 49151), Fmt.e2m1.round (13 / 2) (.sr 49152)) = (6, 8) ∧
    Fmt.e2m1.finResult true (.sr 49152) false (13 / 2) = (7, 20) := by decide +kernel

/-- R260, "two orders, one result": terms of column 0 in grid units of 2^-4. -/
theorem test_matrix_grid : [5 / 32, -9 / 2, 1 / 32].map (fun x => grid x (-4)) = [2, -72, 0] := by decide +kernel

/-- R224, Example: VEXP2 of 0.5, -2.5, 1.0 and -200.0 in fp32: results, tag and FFLAGS. -/
theorem test_vexp2 :
    let h := { loadReg 1 32 [0x3F000000, 0xC0200000, 0x3F800000, 0xC3480000] (typed 4 vtFloat supHart) with fflags := 0 }
    after (exec (.vexp2 plainHdr 2 1) (one cachedPte h)) (fun h => ([0, 1, 2, 3].map (readElem h.v h.geo 2 1 32), h.fflags,
      (vreg h.v 2).tag)) = some ([0x3FB504F3, 0x3E3504F3, 0x40000000, 0], 0x18, some { w := 32, p := 32, sgn := false }) := by
  decide +kernel

/-- R200, Example: -100 times 6, -100 times 15 and -100 times -1, 8-bit signed into 16. -/
theorem test_vmul :
    let h := loadReg 3 8 [6, 15, 255] (loadReg 2 8 [0x9C, 0x9C, 0x9C] (typed 3 0x71CF supHart))
    let t := fun p => some { w := 8, p := p, sgn := true }
    let v := (h.v.set 2 { h.v[2] with tag := t 8 }).set 3 { h.v[3] with tag := t 5 }
    let h := { h with fflags := 0, v := v }
    after (exec (.vmulV plainHdr 4 2 3) (one cachedPte h)) (fun h => ([0, 1, 2].map (readElem h.v h.geo 4 1 16), h.fflags,
      (vreg h.v 4).tag)) = some ([0xFDA8, 0xFA24, 0x64], 0, some { w := 16, p := 12, sgn := true }) := by decide +kernel

/-- R124, Example: the walk of va 0x12_3456_7890 in context 3. -/
theorem test_walk :
    let m := cellsAt 0x1030 8 0x200000001 ++ cellsAt 0x200000000 8 0x2000100C1 ++ cellsAt 0x200010488 8 0x2000200C1 ++
      cellsAt 0x20002A2B0 8 0x10020160457
    let p : Pkg := { State.reset.pkg with ctxtbase := 0x1000 }
    let s : State := { State.reset with pkg := p, mem := m }
    (s.walk 3 0 false 0x1234567890).map (fun x => x.pa) = some 0x10020167890 := by decide +kernel

/-- R87, Example: the VSETVL that asks for six groups, with four held. -/
theorem test_vsetvl :
    let four : List Grp := [⟨0, 0, 0, .granted⟩, ⟨1, 0, 4, .granted⟩, ⟨2, 0, 5, .granted⟩, ⟨3, 0, 6, .granted⟩]
    let q := typed 2000 0xF3CF supHart
    let h := { q with groups := four, g := (q.g.set 3 0x200000BB8).set 5 0xF3CF }
    after (exec (.vsetvl 4 3 5) (one cachedPte h)) (fun h => (h.vl, h.rg 4, h.groups.length)) = some (3000, 3000, 6) := by
  decide +kernel

/-- "The march of one core": the words of the repair table. -/
theorem test_repair_words :
    [Rpt.mk false 0 55 20 0, Rpt.mk false 2 2 63 0, Rpt.mk false 3 12 101 1, Rpt.mk true 3 12 104 0xFF].map Rpt.word =
      [0x8000370000140000, 0xA0000200003F0000, 0xB0000C0000650001, 0xF0000C00006800FF] := by decide

/-- FIPS 180-4, the one-block example: SHA-512 of "abc" (log 15). -/
theorem test_sha512 : ofBytesBig (sha512 [0x61, 0x62, 0x63]) = 0xddaf35a193617abacc417349ae20413112e6fa4e89a97ea20a9eeee64b55d39a2192992a274fc1a836ba3c23a3feebbd454d4423643ce80e2a9ac94fa54ca49f := by
  decide +kernel

end Sys2Proof.Machine
end

section
/-! SUPPORT. Sysregs: what SYSRD reads, the access checks, what SYSWR and SYSSWAP write (R5, R53, R153, R171), and the proof
of O20. -/

namespace Sys2Proof.Machine

/-! ### What a sysreg reads (R53, R171) -/

/-- The address field of a program counter: bits [54:2] (R29). -/
theorem toNat_and_pcField (x : W64) : (x &&& 0x007FFFFFFFFFFFFC).toNat = x.toNat % 2 ^ 55 / 4 * 4 := by
  have mask : (0x007FFFFFFFFFFFFC : W64).toNat = (2 ^ 53 - 1) * 2 ^ 2 := rfl
  apply Nat.eq_of_testBit_eq
  intro i
  rw [BitVec.toNat_and, mask, show x.toNat % 2 ^ 55 / 4 * 4 = x.toNat % 2 ^ 55 / 2 ^ 2 * 2 ^ 2 from rfl,
    Nat.testBit_and, Nat.testBit_mul_two_pow, Nat.testBit_mul_two_pow, Nat.testBit_two_pow_sub_one,
    Nat.testBit_div_two_pow, Nat.testBit_mod_two_pow]
  by_cases low : 2 ≤ i
  · have b : i - 2 < 53 ↔ i < 55 := by omega
    simp [low, b, Bool.and_comm]
  · simp [low]

/-- VCP of an entry of the vector queue (R98): the slot, the valid bit and the address stand in fields of their own. -/
theorem vcpOf_vector (slot : Nat) (pc : W64) :
    vcpOf .vector slot pc = BitVec.ofNat 64 (slot * 2 ^ 56 + 2 ^ 55 + pc.toNat % 2 ^ 55 / 4 * 4) := by
  apply BitVec.eq_of_toNat_eq
  have top : (0 * 2 ^ 62 + slot * 2 ^ 56 + 2 ^ 55) % 2 ^ 64 = 2 ^ 55 * ((2 * slot + 1) % 2 ^ 9) := by omega
  rw [vcpOf, BitVec.toNat_or, toNat_and_pcField, w64, BitVec.toNat_ofNat, BitVec.toNat_ofNat, Queue.code, top,
    ← Nat.two_pow_add_eq_or_of_lt (by omega)]
  omega

theorem Hart.vcpRead_eq_sysValue (s : State) (h : Hart) : h.vcpRead = BitVec.ofNat 64 (sysValue s h 0x004) := by
  unfold Hart.vcpRead sysValue
  cases h.inTrap <;> cases h.vq <;> simp [vcpOf_vector]

theorem Hart.estartRead_eq_sysValue (s : State) (h : Hart) : h.estartRead = sysValue s h 0x005 := by
  unfold Hart.estartRead sysValue
  cases h.inTrap <;> cases h.vq <;> rfl

theorem Hart.xrixRead_eq_sysValue (s : State) (h : Hart) : h.xrixRead = BitVec.ofNat 64 (sysValue s h 0x012) := by
  unfold Hart.xrixRead sysValue
  cases h.xdecStopped <;> rfl

theorem Hart.trapCause_eq_sysValue (s : State) (h : Hart) : h.trapCause = BitVec.ofNat 64 (sysValue s h 0x040) := by
  unfold Hart.trapCause sysValue
  cases h.tcInt <;> rfl

theorem State.tslice_eq_sysValue (s : State) (h : Hart) : s.tslice h = BitVec.ofNat 64 (sysValue s h 0x053) := by
  unfold State.tslice sysValue
  cases h.effective <;> simp [w64]

/-- SYSRD's value and the statement's are one for every sysreg. -/
theorem State.sysRead_eq_sysValue (s : State) (h : Hart) (n : Nat) :
    s.sysRead s.cur h n = BitVec.ofNat 64 (sysValue s h n) := by
  unfold State.sysRead
  split
  case h_5 => exact h.vcpRead_eq_sysValue s
  case h_6 => rw [h.estartRead_eq_sysValue s]; rfl
  case h_10 => exact h.xrixRead_eq_sysValue s
  case h_15 => exact h.trapCause_eq_sysValue s
  case h_22 => exact s.tslice_eq_sysValue h
  case h_27 => simp [sysValue, *]
  all_goals simp [sysValue, w64, stnOf, Hart.sbcapRead]

/-! ### Access to a sysreg (R50, R153) -/

/-- The hart may name sysreg `n`, and its access does not wait (R53, R153). -/
def Hart.Reaches (h : Hart) (n : Nat) : Prop :=
  (sysSup n = true → h.sup = true) ∧ (sysWaits n = true → h.idleQueues = true ∨ h.inTrap = true)

theorem Hart.reaches_free {n : Nat} (h : Hart) (hs : sysSup n = false) (hw : sysWaits n = false) : h.Reaches n := by
  simp [Hart.Reaches, hs, hw]

theorem Hart.reaches_quiet {h : Hart} {n : Nat} (hq : h.idleQueues = true ∨ h.inTrap = true) (hs : sysSup n = false) :
    h.Reaches n := by
  simp [Hart.Reaches, hs, hq]

theorem Hart.reaches_sup {h : Hart} {n : Nat} (hsup : h.sup = true) (hw : sysWaits n = false) : h.Reaches n := by
  simp [Hart.Reaches, hsup, hw]

theorem sysAccess_reaches {s : State} {h : Hart} {n : Nat} (i : Instr) (k : Nat → Hart → Out) (hr : Runs s h)
    (ha : h.Reaches n) : sysAccess n i s k = k s.cur h := by
  obtain ⟨hs, hw⟩ := ha
  have mode : (sysSup n && !h.sup) = false := by
    cases c : sysSup n
    · rfl
    · rw [hs c]; rfl
  have wait : (sysWaits n && !h.idleQueues && !h.inTrap) = false := by
    cases c : sysWaits n
    · rfl
    · obtain q | q := hw c <;> simp [q]
  rw [sysAccess, onHart_some _ hr, mode, wait]
  rfl

/-- A write of gD and the step to the next word touch different fields. -/
theorem Hart.advance_setG (h : Hart) (d : Nat) (x : W64) : (h.setG d x).advance = h.moved.setG d x := by
  unfold Hart.setG
  split <;> rfl

theorem exec_syswr {s : State} {h : Hart} {n : Nat} (a : Nat) (hr : Runs s h) (ha : h.Reaches n) :
    exec (.syswr a n) s = .next (s.sysWrite s.cur h.moved n (h.rg a)) := by
  show execSyswr a n s = _
  rw [execSyswr, sysAccess_reaches _ _ hr ha]
  rfl

theorem exec_sysswap {s : State} {h : Hart} {n : Nat} (a d : Nat) (hr : Runs s h) (ha : h.Reaches n) :
    exec (.sysswap d a n) s =
      .next (s.sysWrite s.cur (h.moved.setG d (BitVec.ofNat 64 (sysValue s h n))) n (h.rg a)) := by
  show execSysswap d a n s = _
  rw [execSysswap, sysAccess_reaches _ _ hr ha, State.sysRead_eq_sysValue, Hart.advance_setG]

/-- What SYSWR and SYSSWAP both do: `P` of the outcome and of the hart before the sysreg is written. -/
def SysPair (s : State) (h : Hart) (a n : Nat) (P : Out → Hart → Prop) : Prop :=
  P (exec (.syswr a n) s) h.moved ∧
    ∀ d, d < 32 → P (exec (.sysswap d a n) s) (h.moved.setG d (BitVec.ofNat 64 (sysValue s h n)))

/-- SYSWR is the case that discards the old value: one argument serves both words. -/
theorem sysPair_of_sysWrite {s : State} {h : Hart} {n : Nat} (a : Nat) {P : Out → Hart → Prop} (hr : Runs s h)
    (ha : h.Reaches n)
    (hP : ∀ d v, P (.next (s.sysWrite s.cur (h.moved.setG d v) n (h.rg a))) (h.moved.setG d v)) : SysPair s h a n P := by
  refine ⟨?_, fun d _ => ?_⟩
  · rw [exec_syswr a hr ha]
    exact hP 0 0
  · rw [exec_sysswap a d hr ha]
    exact hP d _

theorem onlyHart_setHart (s : State) (h' : Hart) : OnlyHart s (.next (s.setHart s.cur h')) h' :=
  ⟨_, rfl, s.hart?_setHart _ _, fun _ hj => s.hart?_setHart_other _ (Ne.symm hj), fun _ => rfl, rfl⟩

/-- A sysreg that is a field of its hart: the write changes the hart alone, by `f`. -/
theorem sysPair_onlyHart {s : State} {h : Hart} {n : Nat} (a : Nat) (f : Hart → Hart) (hr : Runs s h) (ha : h.Reaches n)
    (hf : ∀ d v, s.sysWrite s.cur (h.moved.setG d v) n (h.rg a) = s.setHart s.cur (f (h.moved.setG d v))) :
    SysPair s h a n fun o q => OnlyHart s o (f q) :=
  sysPair_of_sysWrite a hr ha fun d v => by
    rw [hf d v]
    exact onlyHart_setHart s _

/-! ### The fields that a write takes from gA -/

/-- A word of 27 low bits and a flag in bit 63: its fields. -/
theorem fields_of_low27_flag63 {m : Nat} (b : Bool) (hm : m < 2 ^ 27) :
    fieldOf (w64 (m + bitOf b * 2 ^ 63)) 0 27 = m ∧ fieldOf (w64 (m + bitOf b * 2 ^ 63)) 27 36 = 0 ∧
      (w64 (m + bitOf b * 2 ^ 63)).getLsbD 63 = b := by
  unfold fieldOf w64
  rw [BitVec.toNat_ofNat, BitVec.getLsbD_ofNat, Nat.testBit_eq_decide_div_mod_eq]
  cases b <;> simp [bitOf] <;> omega

/-- TILL by the fields AKIND, BKIND, BLK and the reserved bits (R39). -/
def tillOf (ak bk blk reserved : Nat) : Bool :=
  (decide (ak < 5) || decide (12 < ak)) || (decide (bk < 5) || decide (12 < bk)) || blk == 3 ||
    (blk == 0 && (decide (9 ≤ ak) || decide (9 ≤ bk))) ||
    (blk != 0 && ((ak == 5 || ak == 6) || (bk == 5 || bk == 6))) || reserved != 0

theorem tshapeWrite_eq_tillOf (x : W64) : tshapeWrite x =
    w64 (fieldOf x 0 27 + bitOf (tillOf (fieldOf x 0 4) (fieldOf x 4 4) (fieldOf x 8 2) (fieldOf x 27 36)) * 2 ^ 63) := rfl

theorem tillOf_iff (ak bk blk reserved : Nat) : tillOf ak bk blk reserved = true ↔
    (¬ (5 ≤ ak ∧ ak ≤ 12) ∨ ¬ (5 ≤ bk ∧ bk ≤ 12) ∨ blk = 3 ∨ (blk = 0 ∧ (9 ≤ ak ∨ 9 ≤ bk)) ∨
      (blk ≠ 0 ∧ (ak = 5 ∨ ak = 6 ∨ bk = 5 ∨ bk = 6)) ∨ reserved ≠ 0) := by
  simp only [tillOf, Bool.or_eq_true, Bool.and_eq_true, decide_eq_true_eq, beq_iff_eq, bne_iff_ne]
  omega

/-- TILL is recomputed from the fields written, and the reserved bits read 0 (R39). -/
theorem tshapeWrite_fields (x : W64) :
    fieldOf (tshapeWrite x) 0 27 = fieldOf x 0 27 ∧ fieldOf (tshapeWrite x) 27 36 = 0 ∧
      (tshapeWrite x).getLsbD 63 = tillOf (fieldOf x 0 4) (fieldOf x 4 4) (fieldOf x 8 2) (fieldOf x 27 36) := by
  rw [tshapeWrite_eq_tillOf]
  exact fields_of_low27_flag63 _ (Nat.mod_lt _ (by decide))

/-- The code that a field of TKROUTE holds after a write (R23). -/
def routeCode (old new lo own : Nat) : Nat := if bits new lo 2 = own then bits old lo 2 else bits new lo 2

theorem routeField_eq (old new lo own : Nat) : routeField old new lo own = routeCode old new lo own * 2 ^ lo := rfl

theorem routeCode_lt (old new lo own : Nat) : routeCode old new lo own < 4 := by
  unfold routeCode
  split <;> exact Nat.mod_lt _ (by decide)

/-- TKROUTE is six two-bit fields, each of which keeps its value when given its own engine's code (R23). -/
theorem tkrouteWrite_fields (old x : W64) :
    (tkrouteWrite old x).toNat < 2 ^ 12 ∧
      ∀ p ∈ [(0, 1), (2, 1), (4, 2), (6, 2), (8, 3), (10, 3)], fieldOf (tkrouteWrite old x) p.1 2 =
        if fieldOf x p.1 2 = p.2 then fieldOf old p.1 2 else fieldOf x p.1 2 := by
  have code : ∀ lo own, (if fieldOf x lo 2 = own then fieldOf old lo 2 else fieldOf x lo 2) =
    routeCode old.toNat x.toNat lo own := fun _ _ => rfl
  have h0 := routeCode_lt old.toNat x.toNat 0 1
  have h2 := routeCode_lt old.toNat x.toNat 2 1
  have h4 := routeCode_lt old.toNat x.toNat 4 2
  have h6 := routeCode_lt old.toNat x.toNat 6 2
  have h8 := routeCode_lt old.toNat x.toNat 8 3
  have h10 := routeCode_lt old.toNat x.toNat 10 3
  simp only [List.forall_mem_cons, List.not_mem_nil, false_imp_iff, implies_true, and_true, code]
  simp only [fieldOf, tkrouteWrite, w64, BitVec.toNat_ofNat, routeField_eq, engVector, engMatrix, engStream]
  omega

/-- IPEND after a write of TRAPCAUSE: the bits where gA has ones are clear (R178). -/
theorem testBit_ipend_cleared (p : Nat) (x : W64) (b : Nat) :
    (p ^^^ (p &&& bits x.toNat 16 5)).testBit b = (p.testBit b && !(decide (b < 5) && x.getLsbD (16 + b))) := by
  rw [Nat.testBit_xor, Nat.testBit_and, bits, Nat.testBit_mod_two_pow, Nat.testBit_div_two_pow,
    BitVec.testBit_toNat, Nat.add_comm 16 b]
  cases p.testBit b <;> simp

/-- With ACT neither 01 nor 10 a write of TRAPCAUSE acts on no master (R178). -/
theorem State.causeWrite_of_no_act (s : State) (id : Nat) (q : Hart) {v : W64} (h1 : bits v.toNat 8 2 ≠ 1)
    (h2 : bits v.toNat 8 2 ≠ 2) :
    s.causeWrite id q v = s.setHart id { q with ipend := q.ipend ^^^ (q.ipend &&& bits v.toNat 16 5) } := by
  unfold State.causeWrite
  split
  · contradiction
  · contradiction
  · rfl

/-! ### SBCAP (R251) -/

/-- A write with neither FLUSH nor DROP changes CAP, and is no longer pending. -/
theorem State.sbApply_plain (s : State) (id : Nat) (q : Hart) {v : Nat} (h : bits v 62 2 = 0) :
    s.sbApply id q v = some (s.setHart id { q with sbcap := bits v 6 26, sbpend := q.sbpend.drop 1 }) := by
  unfold bits at h
  have drop : v.testBit 62 = false := by rw [Nat.testBit_eq_decide_div_mod_eq, decide_eq_false (by omega)]
  have flush : v.testBit 63 = false := by rw [Nat.testBit_eq_decide_div_mod_eq, decide_eq_false (by omega)]
  unfold State.sbApply
  cases q.strip <;> simp [drop, flush]

/-- A write that waits for nothing takes effect at once (R251). -/
theorem State.sbWrite_at_once (s : State) (id : Nat) (q : Hart) {v : W64} (none_pending : q.sbpend = [])
    (ready : q.qstop = true ∨ q.vq = []) (plain : bits v.toNat 62 2 = 0) :
    (s.setHart id q).sbWrite id v = s.setHart id { q with sbcap := bits v.toNat 6 26 } := by
  have now : ∀ l, Hart.sbReady { q with sbpend := l } q.seq = true := by
    intro l
    unfold Hart.sbReady
    obtain r | r := ready <;> simp [r]
  unfold State.sbWrite State.sbMove
  rw [State.modHart_some _ (s.hart?_setHart id q), State.setHart_setHart]
  simp [none_pending, now, State.sbApply_plain _ _ _ plain]

/-! ### STATUS (R151, R152) -/

/-- STATUS after a write of `v`: the writable bits and SVH are those of `v`. -/
def statusAfter (old v : W64) : W64 := (old &&& ~~~(statusMask ||| svhBit)) ||| (v &&& (statusMask ||| svhBit))

theorem statusMask_bits : ∀ b, b < 64 →
    (statusMask ||| svhBit).getLsbD b = decide (b ∈ [1, 2, 3, 4, 8, 9, 10, 11, 12]) := by decide

theorem getLsbD_statusAfter (old v : W64) {b : Nat} (hb : b < 64) : (statusAfter old v).getLsbD b =
    if b ∈ [1, 2, 3, 4, 8, 9, 10, 11, 12] then v.getLsbD b else old.getLsbD b := by
  rw [statusAfter, BitVec.getLsbD_or, BitVec.getLsbD_and, BitVec.getLsbD_and, BitVec.getLsbD_not, statusMask_bits b hb]
  split <;> simp [*]

/-- SVH is already set in what was written with SVH set. -/
theorem statusAfter_or_svhBit (old : W64) {v : W64} (h : v.getLsbD 4 = true) :
    statusAfter old v ||| svhBit = statusAfter old v := by
  apply BitVec.eq_of_getLsbD_eq
  intro b hb
  rw [BitVec.getLsbD_or]
  by_cases e : b = 4
  · subst e
    rw [getLsbD_statusAfter _ _ hb, if_pos (by decide), h, Bool.true_or]
  · have : ∀ b, b < 64 → b ≠ 4 → svhBit.getLsbD b = false := by decide
    rw [this b hb e, Bool.or_false]

/-- A list of keyed pieces changed piece by piece. -/
theorem find?_map_piece {α : Type} (l : List (Nat × α)) (f : Nat → α → α) (j : Nat) :
    find? (l.map fun p => (p.1, f p.1 p.2)) j = (find? l j).map (f j) := by
  induction l with
  | nil => rfl
  | cons p t ih =>
    obtain ⟨i, a⟩ := p
    simp only [List.map_cons, find?, ih]
    split
    · subst_vars; rfl
    · rfl

/-- What a claim of SVH by hart `id` leaves of hart `j`'s state (R152). -/
def Hart.afterClaim (q : Hart) (id ctx j : Nat) : Hart :=
  if q.ctx = ctx then { q with status := if j = id then q.status ||| svhBit else q.status &&& ~~~svhBit } else q

theorem State.hart?_claimSvh (s : State) (id ctx j : Nat) :
    (s.claimSvh id ctx).hart? j = (s.hart? j).map fun q => q.afterClaim id ctx j := by
  have piece : (fun p : Nat × Hart => if p.2.ctx = ctx then
      (p.1, { p.2 with status := if p.1 = id then p.2.status ||| svhBit else p.2.status &&& ~~~svhBit }) else p) =
      fun p => (p.1, p.2.afterClaim id ctx p.1) := by
    funext p
    unfold Hart.afterClaim
    split <;> rfl
  rw [State.hart?, State.claimSvh, piece]
  exact find?_map_piece s.harts (fun j q => q.afterClaim id ctx j) j

theorem State.statusWrite_eq (s : State) (id : Nat) (q : Hart) (v : W64) : s.statusWrite id q v =
    if v.getLsbD 4 then (s.setHart id { q with status := statusAfter q.status v }).claimSvh id q.ctx
    else s.setHart id { q with status := statusAfter q.status v } := rfl

theorem State.hart?_statusWrite (s : State) (id : Nat) (q : Hart) (v : W64) :
    (s.statusWrite id q v).hart? id = some { q with status := statusAfter q.status v } := by
  rw [State.statusWrite_eq]
  split
  · next svh =>
    rw [State.hart?_claimSvh, State.hart?_setHart]
    simp [Hart.afterClaim, statusAfter_or_svhBit _ svh]
  · exact State.hart?_setHart _ _ _

theorem State.hart?_statusWrite_other (s : State) {id j : Nat} (q : Hart) (v : W64) (hj : j ≠ id) :
    (s.statusWrite id q v).hart? j = (s.hart? j).map fun p =>
      if v.getLsbD 4 = true ∧ p.ctx = q.ctx then { p with status := p.status &&& ~~~0x10 } else p := by
  rw [State.statusWrite_eq]
  split
  · next svh =>
    rw [State.hart?_claimSvh, State.hart?_setHart_other _ _ (Ne.symm hj)]
    simp [Hart.afterClaim, svh, hj, svhBit]
  · next svh =>
    simp only [State.hart?_setHart_other _ _ (Ne.symm hj), svh, Bool.false_eq_true, false_and, if_false,
      Option.map_id']

theorem State.statusWrite_frame (s : State) (id : Nat) (q : Hart) (v : W64) :
    { s.statusWrite id q v with harts := s.harts } = s := by
  rw [State.statusWrite_eq]
  split <;> rfl

/-! ### The registers whose write reaches beyond the hart -/

/-- The outcome of a write of STATUS (R152), the clause of the statement. -/
theorem sysPair_status {s : State} {h : Hart} (a : Nat) (hr : Runs s h) (ha : h.Reaches 0x031) :
    SysPair s h a 0x031 fun o q => ∃ t h', o = .next t ∧ t.hart? s.cur = some h' ∧ { h' with status := h.status } = q ∧
      (∀ b, b < 64 → h'.status.getLsbD b =
        if b ∈ [1, 2, 3, 4, 8, 9, 10, 11, 12] then (h.rg a).getLsbD b else h.status.getLsbD b) ∧
      (∀ j, j ≠ s.cur → t.hart? j = (s.hart? j).map fun q =>
        if (h.rg a).getLsbD 4 = true ∧ q.ctx = h.ctx then { q with status := q.status &&& ~~~0x10 } else q) ∧
      { t with harts := s.harts } = s := by
  refine sysPair_of_sysWrite a hr ha fun d v => ?_
  have status : (h.moved.setG d v).status = h.status := Hart.setG_status _ _ _
  have ctx : (h.moved.setG d v).ctx = h.ctx := Hart.setG_ctx _ _ _
  refine ⟨_, _, rfl, s.hart?_statusWrite _ _ _, ?_, fun b hb => ?_, fun j hj => ?_, s.statusWrite_frame _ _ _⟩
  · rw [← status]
  · rw [← status]
    exact getLsbD_statusAfter _ _ hb
  · rw [← ctx]
    exact s.hart?_statusWrite_other _ _ hj

theorem State.ctx_setCtx_eq (s : State) (k c : Nat) (x : Ctx) : (s.setCtx k x).ctx c = if c = k then x else s.ctx c := by
  simp only [State.ctx, State.setCtx, getD_put, eq_comm]

/-- A write of TSLICE is the context's (R107), the clause of the statement. -/
theorem sysPair_slice {s : State} {h : Hart} (a : Nat) (hr : Runs s h) (ha : h.Reaches 0x053) :
    SysPair s h a 0x053 fun o q => ∃ t, o = .next t ∧ t.hart? s.cur = some q ∧
      (∀ j, j ≠ s.cur → t.hart? j = s.hart? j) ∧
      (∀ c, t.ctx c = if c = h.ctx then { s.ctx c with slice := fieldOf (h.rg a) 0 32 } else s.ctx c) ∧
      { t with harts := s.harts, ctxs := s.ctxs } = s := by
  refine sysPair_of_sysWrite a hr ha fun d v => ?_
  have ctx : (h.moved.setG d v).ctx = h.ctx := Hart.setG_ctx _ _ _
  refine ⟨_, rfl, s.hart?_setHart _ _, fun j hj => s.hart?_setHart_other _ (Ne.symm hj), fun c => ?_, rfl⟩
  show (State.sliceWrite _ _ _).ctx c = _
  rw [State.sliceWrite, State.ctx_setCtx_eq, ctx]
  split
  · next e => subst e; rfl
  · rfl

/-! ### The registers whose new value depends on the hart -/

/-- Whether an XDEC stands stopped does not depend on g-registers, the PC or the step. -/
theorem Hart.xdecStopped_moved_setG (h : Hart) (d : Nat) (v : W64) : (h.moved.setG d v).xdecStopped = h.xdecStopped := by
  unfold Hart.setG
  split <;> rfl

/-- XRIX takes no write while no XDEC stands stopped (R340). -/
theorem sysWrite_xrix_of_none (s : State) {h : Hart} (d : Nat) (v x : W64) (hx : h.xdecStopped = none) :
    s.sysWrite s.cur (h.moved.setG d v) 0x012 x = s.setHart s.cur (h.moved.setG d v) := by
  show s.setHart s.cur (Hart.xrixWrite _ x) = _
  rw [Hart.xrixWrite, Hart.xdecStopped_moved_setG, hx]

theorem sysWrite_tkroute (s : State) (h : Hart) (d : Nat) (v x : W64) :
    s.sysWrite s.cur (h.moved.setG d v) 0x020 x =
      s.setHart s.cur { h.moved.setG d v with tkroute := tkrouteWrite h.tkroute x } := by
  show s.setHart s.cur { h.moved.setG d v with tkroute := tkrouteWrite (h.moved.setG d v).tkroute x } = _
  rw [Hart.setG_tkroute]
  rfl

theorem sysWrite_trapcause_of_no_act (s : State) (h : Hart) (d : Nat) (v : W64) {x : W64} (h1 : bits x.toNat 8 2 ≠ 1)
    (h2 : bits x.toNat 8 2 ≠ 2) : s.sysWrite s.cur (h.moved.setG d v) 0x040 x =
      s.setHart s.cur { h.moved.setG d v with ipend := h.ipend ^^^ (h.ipend &&& bits x.toNat 16 5) } := by
  show s.causeWrite s.cur (h.moved.setG d v) x = _
  rw [s.causeWrite_of_no_act s.cur _ h1 h2, Hart.setG_ipend]
  rfl

/-- SBCAP is written as a field of the hart where nothing older waits (R251). -/
theorem sysWrite_sbcap_at_once (s : State) {h : Hart} (d : Nat) (v : W64) {x : W64} (none_pending : h.sbpend = [])
    (ready : h.qstop = true ∨ h.vq = []) (plain : bits x.toNat 62 2 = 0) :
    s.sysWrite s.cur (h.moved.setG d v) 0x054 x =
      s.setHart s.cur { h.moved.setG d v with sbcap := bits x.toNat 6 26 } := by
  refine s.sbWrite_at_once s.cur _ ?_ ?_ plain
  · rw [Hart.setG_sbpend]
    exact none_pending
  · rw [Hart.setG_qstop, Hart.setG_vq]
    exact ready

/-- The sysregs of user mode whose every field is RO (R53): a write changes nothing (R171). -/
theorem sysPair_readOnly {s : State} {h : Hart} (a : Nat) (hr : Runs s h) :
    ∀ n ∈ [0x000, 0x001, 0x002, 0x003, 0x004, 0x005, 0x021, 0x050, 0x051, 0x060, 0x061, 0x062],
      SysPair s h a n fun o q => OnlyHart s o q := by
  have keeps : ∀ n, sysSup n = false → sysWaits n = false → (∀ q x, s.sysWrite s.cur q n x = s.setHart s.cur q) →
      SysPair s h a n fun o q => OnlyHart s o q :=
    fun n hs hw hk => sysPair_onlyHart a id hr (h.reaches_free hs hw) fun d v => hk _ _
  simp only [List.forall_mem_cons, List.not_mem_nil, false_imp_iff, implies_true, and_true]
  refine ⟨?_, ?_, ?_, ?_, ?_, ?_, ?_, ?_, ?_, ?_, ?_, ?_⟩ <;> exact keeps _ rfl rfl fun _ _ => rfl

/-- Settles O20: each sysreg's write is one of the field writes above, the same for SYSWR and for SYSSWAP. -/
theorem sysregWrites : Obligations.SysregWrites := by
  intro s h a hr _ x old wr both quiet field
  have write : ∀ {n} (f : Hart → Hart), h.Reaches n →
      (∀ d v, s.sysWrite s.cur (h.moved.setG d v) n x = s.setHart s.cur (f (h.moved.setG d v))) → wr n f :=
    fun f => sysPair_onlyHart a f hr
  refine ⟨sysPair_readOnly a hr, ?tshape, ?tkroute, fun hq => ?waiting, fun hsup => ?supervisor⟩
  case tshape =>
    obtain ⟨low, reserved, till⟩ := tshapeWrite_fields x
    exact ⟨tshapeWrite x, write (fun q => { q with tshape := tshapeWrite x }) (h.reaches_free rfl rfl) fun _ _ => rfl,
      low, reserved, (iff_of_eq (congrArg (· = true) till)).trans (tillOf_iff _ _ _ _)⟩
  case tkroute =>
    exact ⟨tkrouteWrite h.tkroute x, write (fun q => { q with tkroute := tkrouteWrite h.tkroute x })
      (h.reaches_free rfl rfl) fun d v => sysWrite_tkroute s h d v x, tkrouteWrite_fields _ _⟩
  case waiting =>
    exact ⟨write (fun q => { q with srseed := x }) (Hart.reaches_quiet hq rfl) fun _ _ => rfl,
      write (fun q => { q with srctr := field x 0 32 }) (Hart.reaches_quiet hq rfl) fun _ _ => rfl,
      write (fun q => { q with fflags := field x 0 8 }) (Hart.reaches_quiet hq rfl) fun _ _ => rfl,
      fun hsup hx => write (fun q => q) ⟨fun _ => hsup, fun _ => hq⟩ fun d v => sysWrite_xrix_of_none s d v x hx⟩
  case supervisor =>
    have sup : ∀ {n}, sysWaits n = false → h.Reaches n := Hart.reaches_sup hsup
    refine ⟨write (fun q => { q with trappc := x &&& 0x007FFFFFFFFFFFFC }) (sup rfl) fun _ _ => rfl,
      write (fun q => { q with trapval := x }) (sup rfl) fun _ _ => rfl,
      write (fun q => { q with trapvec := x &&& 0x007FFFFFFFFFFFC0 }) (sup rfl) fun _ _ => rfl,
      write (fun q => { q with prio := field x 0 3 }) (sup rfl) fun _ _ => rfl, fun act1 act2 => ?ipend,
      fun none_pending ready plain => ?sbcap, sysPair_slice a hr (sup rfl), sysPair_status a hr (sup rfl)⟩
    case ipend =>
      exact ⟨_, write (fun q => { q with ipend := h.ipend ^^^ (h.ipend &&& bits x.toNat 16 5) }) (sup rfl)
        fun d v => sysWrite_trapcause_of_no_act s h d v act1 act2, testBit_ipend_cleared _ _⟩
    case sbcap =>
      exact write (fun q => { q with sbcap := field x 6 26 }) (sup rfl)
        fun d v => sysWrite_sbcap_at_once s d v none_pending ready plain

end Sys2Proof.Machine
end

section
/-! SUPPORT. The package right after reset, and the proof of O34. -/

namespace Sys2Proof.Machine

theorem vat_replicate {α : Type} {n i : Nat} (a d : α) (h : i < n) : vat (Vector.replicate n a) i d = a := by
  simp [vat, h]

/-- Links 0 and 1 of every die train (R408). -/
theorem link_reset (d : Nat) {j : Nat} (hj : j < 2) :
    State.reset.link d j = { state := 1, retrain := 0, retry := 0, modup := 0, failed := [] } := vat_replicate _ _ hj

/-- Every port trains (R410). -/
theorem port_reset (p : Nat) : State.reset.port p = { state := 1, peer := 0, retry := 0 } :=
  vat_replicate _ _ (Nat.mod_lt _ (by decide))

/-- The tiles of every core are free and cleared (R256, R414). -/
theorem tiles_reset (k : Nat) : (State.reset.core k).tiles = Vector.replicate 4 Tile.reset := rfl

theorem Tile.ok_reset : Tile.reset.Ok := ⟨.nil, fun _ ha => absurd ha List.not_mem_nil⟩

/-- Settles O34: every piece of `State.reset` that is not listed has its reset value. -/
theorem resetValues : Obligations.ResetValues := by
  refine ⟨fun _ => rfl, fun _ => rfl, fun _ => ⟨rfl, rfl, rfl, rfl, rfl, rfl, rfl, rfl, rfl⟩, ?links, ?ports, ?pools,
    ?tiles, rfl, rfl, rfl, rfl, fun _ => ⟨rfl, rfl⟩, ⟨rfl, rfl⟩, fun _ hp => absurd hp List.not_mem_nil, ?tilesOk⟩
  case links =>
    intro d j hj
    rw [link_reset d hj]
    exact ⟨rfl, rfl⟩
  case ports =>
    intro p
    rw [port_reset]
  case pools =>
    intro d p hp
    obtain rfl | rfl : p = 0 ∨ p = 1 := by omega
    · exact ⟨rfl, rfl, rfl, rfl⟩
    · exact ⟨rfl, rfl, rfl, rfl⟩
  case tiles =>
    intro k t ht
    exact ⟨Tile.reset, by simp [tiles_reset, ht], rfl, rfl⟩
  case tilesOk =>
    refine ⟨fun k t ht => ?_, fun _ hf => absurd hf List.not_mem_nil⟩
    obtain ⟨-, rfl⟩ : 4 ≠ 0 ∧ t = Tile.reset := List.mem_replicate.mp ht
    exact Tile.ok_reset

end Sys2Proof.Machine
end

section
/-! SUPPORT. A vector word that runs whole while a register is bound, and the refutation of O43: it retires on the hart as
its environment shows it, with the tags of the open bindings (R317), so that it tags registers it does not name. -/

namespace Sys2Proof.Machine

/-- A hart under KIND 1, widths of 8 bits and RM 0. -/
def intHart : Hart := { State.reset.bootHart with vtype := 0x471C7, vl := 1 }

/-- The hart after the dispatch of an SBIND of slot 0 to v8, which pops a token and waits for it in the stream queue. -/
def bindingHart : Hart :=
  let r := intHart.bindWords (intHart.newEntry (intHart.nextSlot .stream) (.sbind 2 0 8 0 0) 2 0 0 0)
  r.1.dispatched.pushS r.2

/-- The package with the one hart `h`. -/
def singleHart (h : Hart) : State := { State.reset with harts := [(0, h)] }

/-- A vector header with no mask and no token that begins its convoy. -/
def bareHdr : VHdr := { av := 0, tk := 0, c := 0, msk := 0 }

/-- The machine reaches `bindingHart`, by SBIND. -/
theorem exec_sbind_intHart : exec (.sbind 2 0 8 0 0) (singleHart intHart) = .next (singleHart bindingHart) := rfl

/-- XACC.CLR, whose one destination is an accumulator, changes the tag of v8 as it runs. -/
theorem exec_xaccClr_tags_bound : ∃ t h', exec (.xaccClr bareHdr 0) (singleHart bindingHart) = .next t ∧
    t.hart? 0 = some h' ∧ (vreg h'.v 8).tag ≠ (vreg bindingHart.v 8).tag := ⟨_, _, rfl, rfl, by decide⟩

/-- Refutes O43: with SBIND of v8 dispatched, XACC.CLR is legal, runs whole and leaves v8 tagged, though v8 is none of its
destinations. -/
theorem not_vectorWordsComplete : ¬ Obligations.VectorWordsComplete := by
  intro claim
  obtain ⟨-, -, -, -, runs⟩ := claim (singleHart bindingHart) bindingHart (.xaccClr bareHdr 0) (specXaccClr bareHdr 0) rfl rfl
  obtain ⟨h', ⟨t, next, hart, -⟩, -, untouched, -⟩ := runs (by decide) (by decide) rfl
  obtain ⟨t', q, next', hart', tagged⟩ := exec_xaccClr_tags_bound
  obtain rfl : t = t' := Host.Outcome.next.inj (next.symm.trans next')
  obtain rfl : h' = q := Option.some.inj (hart.symm.trans hart')
  exact tagged (congrArg VReg.tag (untouched 8 (by decide) (fun _ hd => absurd hd List.not_mem_nil)
    fun _ hd => absurd hd List.not_mem_nil))

end Sys2Proof.Machine
end

section
/-! SUPPORT. Memory after VFRAME.SAVE, and the refutation of O26: with more than 16 banks the mask array of a grant index is
written over its last banks. -/

namespace Sys2Proof.Machine

/-! ### Bytes laid at home -/

theorem Memory.read_append_of_unlisted_left {l m : List Host.Cell} {c : Nat} (h : ∀ x ∈ l, x.1 ≠ c) :
    Memory.read (l ++ m) c = Memory.read m c := by
  induction l with
  | nil => rfl
  | cons p t ih =>
    rw [List.forall_mem_cons] at h
    rw [List.cons_append, Memory.read, if_neg h.1, ih h.2]

theorem Memory.read_append_of_unlisted_right {l m : List Host.Cell} {c : Nat} (h : ∀ x ∈ m, x.1 ≠ c) :
    Memory.read (l ++ m) c = Memory.read l c := by
  induction l with
  | nil => simpa using Memory.read_append_of_unlisted_left (m := []) h
  | cons p t ih => simp only [List.cons_append, Memory.read, ih]

theorem Memory.read_filter_key {m : List Host.Cell} (p : Nat → Bool) {c : Nat} (h : p c = true) :
    Memory.read (m.filter fun x => p x.1) c = Memory.read m c := by
  induction m with
  | nil => rfl
  | cons q t ih =>
    obtain ⟨k, x⟩ := q
    by_cases hk : k = c
    · simp [Memory.read, hk, h]
    · by_cases hp : p k = true <;> simp [Memory.read, hk, hp, ih]

/-- The nonzero bytes of a list laid from `a` on. -/
theorem Memory.read_laid (bs : List Byte) (a i : Nat) :
    Memory.read (((span a bs.length).zip bs).filter fun c => c.2 != 0) (a + i) = (bs[i]?).getD 0 := by
  induction bs generalizing a i with
  | nil => rfl
  | cons b t ih =>
    have later : ∀ x ∈ ((span (a + 1) t.length).zip t).filter fun c => c.2 != 0, x.1 ≠ a := by
      intro x hx
      have := (List.of_mem_zip (List.mem_filter.mp hx).1).1
      simp only [span, List.mem_range'_1] at this
      omega
    have cons : (span a (b :: t).length).zip (b :: t) = (a, b) :: (span (a + 1) t.length).zip t := rfl
    rw [cons, List.filter_cons]
    split
    · cases i with
      | zero => rw [Memory.read, if_pos (by rfl)]; rfl
      | succ i => rw [Memory.read, if_neg (by omega), ← Nat.add_assoc, Nat.add_right_comm, ih]; rfl
    · have hb : b = 0 := by simp_all
      cases i with
      | zero => simpa [hb, Memory.read] using Memory.read_append_of_unlisted_left (m := []) later
      | succ i => rw [← Nat.add_assoc, Nat.add_right_comm, ih]; rfl

theorem Memory.read_fill_of_mem (m : List Host.Cell) (a : Nat) (bs : List Byte) {i : Nat} (hi : i < bs.length) :
    Memory.read (Memory.fill m a bs) (a + i) = (bs[i]?).getD 0 := by
  rw [Memory.fill, Memory.read_append_of_unlisted_right, Memory.read_append_of_unlisted_left, Memory.read_laid]
  · intro x hx; have := (List.mem_filter.mp hx).2; simp at this; omega
  · intro x hx; have := (List.mem_filter.mp hx).2; simp at this; omega

theorem Memory.read_fill_head (m : List Host.Cell) (a : Nat) {bs : List Byte} (h : 0 < bs.length) :
    Memory.read (Memory.fill m a bs) a = (bs[0]?).getD 0 := by
  rw [← Memory.read_fill_of_mem m a bs h, Nat.add_zero]

theorem Memory.read_fill_of_lt (m : List Host.Cell) {a c : Nat} (bs : List Byte) (hc : c < a) :
    Memory.read (Memory.fill m a bs) c = Memory.read m c := by
  rw [Memory.fill, Memory.read_append_of_unlisted_right, Memory.read_append_of_unlisted_right,
    Memory.read_filter_key (fun k => decide (k < a))]
  · simpa using hc
  · intro x hx
    have := (List.of_mem_zip (List.mem_filter.mp hx).1).1
    simp only [span, List.mem_range'_1] at this
    omega
  · intro x hx; have := (List.mem_filter.mp hx).2; simp at this; omega

/-! ### Bytes written through a translation -/

theorem unitsOf_within {va n : Nat} (h0 : n ≠ 0) (hn : va % 65536 + n ≤ 65536) (hv : va < 2 ^ 64) :
    unitsOf va n = [va] := by
  have same : (va + n - 1) / 65536 - va / 65536 + 1 = 1 := by omega
  have first : max va (va / 65536 * 65536) % 2 ^ 64 = va := by omega
  simp only [unitsOf, if_neg h0, same, span, List.range'_one, List.map_cons, List.map_nil, first]

theorem State.pieces_within {s : State} {c : Who1} {va n : Nat} {x : Xlat} (h0 : n ≠ 0) (hn : va % 65536 + n ≤ 65536)
    (hv : va < 2 ^ 64) (hx : s.xlat c va = some x) : s.pieces c va n = [(va, n, x)] := by
  have first : (va + 2 ^ 64 - va % 2 ^ 64) % 2 ^ 64 = 0 := by omega
  have all : min (n - 0) (65536 - va % 65536) = n := by omega
  simp only [State.pieces, unitsOf_within h0 hn hv, List.filterMap_cons, List.filterMap_nil, hx, Option.map_some, first, all]

@[simp] theorem State.setFrame_mem (s : State) (fr : Nat) (f : FrameInfo) : (s.setFrame fr f).mem = s.mem := by
  rw [State.setFrame]
  generalize regionOf (fr * 65536) = r
  cases r <;> rfl

@[simp] theorem State.warmFrame_mem (s : State) (fr : Nat) : (s.warmFrame fr).mem = s.mem := by
  simp only [State.warmFrame]
  split <;> simp only [State.setFrame_mem]

@[simp] theorem State.fillMem_mem (s : State) (a : Nat) (bs : List Byte) : (s.fillMem a bs).mem = Memory.fill s.mem a bs :=
  rfl

/-- Bytes that lie in one 64 KiB unit are written at its place. -/
theorem State.fillVa_mem_within {s0 s : State} {id : Nat} {c : Who1} {va : Nat} {bs : List Byte} {x : Xlat}
    (h0 : bs.length ≠ 0) (hn : va % 65536 + bs.length ≤ 65536) (hv : va < 2 ^ 64) (hx : s0.xlat c va = some x) :
    (State.fillVa s0 s id c va bs).mem = Memory.fill s.mem x.pa bs := by
  rw [State.fillVa, State.pieces_within h0 hn hv hx]
  simp only [List.foldl_cons, List.foldl_nil, State.setStn_mem, State.warmFrame_mem, State.fillMem_mem, Nat.sub_self,
    List.drop_zero, List.take_length]

/-! ### What the end of a save leaves of memory -/

@[simp] theorem State.freeTiles_mem (s : State) (id : Nat) (b : Bool) : (s.freeTiles id b).mem = s.mem := by
  simp only [State.freeTiles]
  split <;> rfl

@[simp] theorem State.barCheck_mem (s : State) (key : Nat) : (s.barCheck key).mem = s.mem := by
  simp only [State.barCheck]
  split <;> rfl

@[simp] theorem State.barLeave_mem (s : State) (w : Who) (key : Nat) : (s.barLeave w key).mem = s.mem := by
  simp only [State.barLeave]
  split <;> split <;> simp

@[simp] theorem State.leaveBars_mem (s : State) (id ctx : Nat) : (s.leaveBars id ctx).mem = s.mem := by
  simp [State.leaveBars]

@[simp] theorem State.renameMember_mem (s : State) (k : Nat) (a b : Who) (n : Nat) :
    (s.renameMember k a b n).mem = s.mem := by
  simp only [State.renameMember]
  split <;> split <;> rfl

/-- The machine after the ns that a save lasts (R108). -/
def State.saveElapsed (s : State) : State := s.elapse (Config.duration s.tick)

/-- The record that VFRAME.SAVE makes of the hart `q`. -/
def State.saveRecord (s : State) (id : Nat) (q : Hart) : SavedFrame :=
  s.saveElapsed.frameRecord id q false (Config.duration s.tick)

/-- A frame written at `base`, segment by segment, through the translations that hold when its save starts (log 31). -/
def State.frameFilled (s : State) (id : Nat) (q : Hart) (f : SavedFrame) (base : Nat) : State :=
  (frameSegs f (frameWritten f)).foldl (fun t x => State.fillVa s t id (q.who id) (base + x.1) x.2) s

/-- VFRAME.SAVE writes the frame to memory and nothing else. -/
theorem State.saveFrame_mem {s : State} {id : Nat} {q : Hart} (h : Hart) (d base : Nat)
    (hq : s.saveElapsed.hart? id = some q) :
    (s.saveFrame id h d base).mem = (s.saveElapsed.frameFilled id q (s.saveRecord id q) base).mem := by
  have here : ((s.elapse (Config.duration s.tick)).hart? id).getD h = q := by
    rw [show (s.elapse (Config.duration s.tick)).hart? id = some q from hq, Option.getD_some]
  simp only [State.saveFrame, State.bump, State.leaveBars_mem, here]
  split <;> simp only [State.renameMember_mem, State.freeTiles_mem, State.setHart_mem] <;> rfl

/-- VFRAME.SAVE once nothing holds it back: its checks pass, and its withdrawal and its release leave the
machine as it is. -/
theorem exec_vframeSave_saves {s : State} {h : Hart} (d a : Nat) (hr : Runs s h) (sup : h.sup = true)
    (free : h.ilkHit h.seq (h.rg a).toNat ((h.rg a).toNat + frameSize) true [] = false)
    (reach : s.walkAway (h.who s.cur) (h.rg a).toNat frameSize = false)
    (check : s.frameCheck s.cur h (h.rg a).toNat .w = none)
    (idle : ((h.vq.any fun v => v.e.midDevice) || s.engineDevice s.cur) = false)
    (clean : ∀ w, (s.withdrawEngines s.cur).releaseHome s.cur 6 w = (s, true)) :
    exec (.vframeSave d a) s = .next (s.saveFrame s.cur h d (h.rg a).toNat) := by
  have here : s.hart? s.cur = some h := hr
  show execVframeSave d a s = _
  rw [execVframeSave, supOnly_sup _ _ hr sup]
  simp only [free, reach, check, idle, clean, here, Bool.or_self, Bool.false_eq_true, if_false, if_true]

/-! ### The segments of a frame (R104) -/

theorem length_toBytes (n x : Nat) : (toBytes n x).length = n := by
  induction n generalizing x with
  | zero => rfl
  | succ n ih => rw [toBytes, List.length_cons, ih]

theorem Hart.length_maskBytes (h : Hart) (j : Nat) : (h.maskBytes j).length = 0x4000 := by
  simp [Hart.maskBytes, maskVeil, length_toBytes, List.length_flatMap, span]

theorem length_opaqueBytes (gen o n : Nat) : (opaqueBytes gen o n).length = n := by
  simp [opaqueBytes, span]

theorem Hart.maskBytes_congr {h q : Hart} (m : h.m = q.m) (vq : h.vq = q.vq) (grant : h.vgrant = q.vgrant) (j : Nat) :
    h.maskBytes j = q.maskBytes j := by
  simp only [Hart.maskBytes, Hart.lanes, Hart.gcount, mreg, m, vq, grant]

theorem Hart.bankBytes_congr {h q : Hart} (v : h.v = q.v) (vcfg : h.vcfg = q.vcfg) (j : Nat) :
    h.bankBytes j = q.bankBytes j := by
  simp only [Hart.bankBytes, Hart.laneWord, Hart.rows, v, vcfg]

theorem maskVeil_cons_head (b : Byte) (t : List Byte) :
    (maskVeil (b :: t))[0]? = some (b ^^^ Config.freeByte 0 0x10000) := by
  simp [maskVeil, span, List.range'_succ]

/-- The mask array of grant index 0 begins with lane 0 in the first slot of mask register 0. -/
theorem Hart.maskBytes_zero_cons (h : Hart) : ∃ t, h.maskBytes 0 =
    maskVeil (BitVec.ofNat 8 ((mreg h 0).get (0 * h.lanes + 256 * 0) 256) :: t) := ⟨_, rfl⟩

/-- With one group, no strip and no tile, a frame ends with the mask array and the tags. -/
theorem frameSegs_one_group {f : SavedFrame} (size : Nat) (one : f.hart.gcount = 1) (strip : f.hart.strip = none)
    (tiles : f.tiles = []) : ∃ l tags, tags.length = 0x800 ∧
      frameSegs f size = l ++ [(0x20000, f.hart.maskBytes 0), (0x24000, tags)] := by
  rw [frameSegs, one, tiles, show List.range (min 64 1) = [0] from rfl]
  simp only [List.flatMap_singleton, groupSegs, strip, Option.elim_none, List.isEmpty_nil, if_true, List.zipIdx_nil,
    List.map_nil, List.append_nil, List.cons_append, List.nil_append]
  exact ⟨[_, _, _, _, _], _, length_opaqueBytes _ _ _, rfl⟩

/-! ### A machine whose lowest 512 MiB map to themselves -/

/-- The translation that maps the lowest 512 MiB to itself, cached, with every right. -/
def lowPages : TlbEntry := { unit := .die 0, ctx := 0, size := 29, page := 0, pte := 0x9F, base := 0 }

section
variable {s : State} {h : Hart} (tlb : s.tlb = [lowPages]) (dies : s.dies = []) (ctx : h.ctx = 0)

include tlb ctx

theorem translate_lowPages {a : Nat} (low : a < 2 ^ 29) :
    s.translate (h.who 0) a = some { pte := 0x9F, pa := a, size := 29 } := by
  have page : a / 536870912 = 0 := Nat.div_eq_of_lt low
  have offset : a % 536870912 = a := Nat.mod_eq_of_lt low
  simp [State.translate, State.tlbIn, State.tlbHit, Who1.unit, Hart.who, dieOf, tlb, ctx, lowPages, page, offset]

theorem fillVa_mem_lowPages {t : State} {va : Nat} {bs : List Byte} (nonempty : bs.length ≠ 0)
    (unit : va % 65536 + bs.length ≤ 65536) (low : va < 2 ^ 29) :
    (State.fillVa s t 0 (h.who 0) va bs).mem = Memory.fill t.mem va bs :=
  State.fillVa_mem_within (x := { pte := 0x9F, pa := va, size := 29 }) nonempty unit (by omega)
    (translate_lowPages tlb ctx low)

/-- With one group, no strip and no tile, the first byte of the mask array stands 128 KiB from the base of a frame that has
been written: the masks come after the banks, and the tags do not reach this byte. -/
theorem read_frameFilled {base : Nat} {f : SavedFrame} (aligned : base % 65536 = 0) (low : base + 0x30000 < 2 ^ 29)
    (one : f.hart.gcount = 1) (strip : f.hart.strip = none) (tiles : f.tiles = []) :
    Memory.read (s.frameFilled 0 h f base).mem (base + 0x20000) = ((f.hart.maskBytes 0)[0]?).getD 0 := by
  obtain ⟨l, tags, len, segs⟩ := frameSegs_one_group (frameWritten f) one strip tiles
  have masks := f.hart.length_maskBytes 0
  generalize f.hart.maskBytes 0 = bs at masks segs ⊢
  simp only [State.frameFilled, segs, List.foldl_append, List.foldl_cons, List.foldl_nil]
  rw [fillVa_mem_lowPages tlb ctx (by omega) (by omega) (by omega), Memory.read_fill_of_lt _ _ (by omega),
    fillVa_mem_lowPages tlb ctx (by omega) (by omega) (by omega), Memory.read_fill_head _ _ (by omega)]

theorem walkAway_lowPages {va n : Nat} (low : ∀ u ∈ unitsOf va n, u < 2 ^ 29) : s.walkAway (h.who 0) va n = false := by
  rw [State.walkAway, List.any_eq_false]
  intro u hu
  have page : u / 536870912 = 0 := Nat.div_eq_of_lt (low u hu)
  simp [State.tlbIn, State.tlbHit, Hart.who, dieOf, tlb, ctx, lowPages, page]

omit tlb ctx

theorem regionOf_low {a : Nat} (low : a < 2 ^ 29) : regionOf a = .pool 0 0 := by
  rw [regionOf, if_pos (by omega), Nat.div_eq_of_lt (by omega)]

theorem pathOf_low {a : Nat} (low : a < 2 ^ 29) : pathOf { pte := 0x9F, pa := a, size := 29 } = .cached := by
  simp [pathOf, regionOf_low low, show pteIdem 0x9F = false by decide, show pteCache 0x9F = 0 by decide]

include dies

theorem lossless_low {a : Nat} (low : a < 2 ^ 29) : s.lossless (a / 65536) = false := by
  have die : s.die 0 = Die.reset := by rw [State.die, dies]; rfl
  have region := regionOf_low (show a / 65536 * 65536 < 2 ^ 29 by omega)
  rw [State.lossless, State.frameInfo, region]
  simp only [State.pool, die]
  rfl

include tlb ctx

theorem probe1_lowPages {va n : Nat} (low : ∀ u ∈ unitsOf va n, u < 2 ^ 29) :
    s.probe1 (h.who 0) { e := 0, va := va, n := n, k := .w, al := 1 } = none := by
  rw [State.probe1, if_neg (by simp [Nat.mod_one]), List.findSome?_eq_none_iff]
  intro u hu
  have here : s.xlat (h.who 0) u = some { pte := 0x9F, pa := u, size := 29 } := translate_lowPages tlb ctx (low u hu)
  have passes : s.probeUnit (h.who 0) .w u = none := by
    simp only [State.probeUnit, here, lossless_low dies (low u hu)]
    cases (h.who 0).sup <;> decide
  rw [passes]

theorem frameCheck_lowPages {base : Nat} (aligned : base % 65536 = 0)
    (low : ∀ u ∈ unitsOf base frameSize, u < 2 ^ 29) : s.frameCheck 0 h base .w = none := by
  rw [State.frameCheck, if_neg (by simpa using aligned), probe1_lowPages tlb dies ctx low]
  simp only [List.findSome?_eq_none_iff]
  intro p hp
  obtain ⟨u, hu, hx⟩ := List.mem_filterMap.mp hp
  have here : s.xlat (h.who 0) u = _ := translate_lowPages tlb ctx (low u hu)
  rw [here] at hx
  cases hx
  simp [pathOf_low (low u hu), lossless_low dies (low u hu)]

end

/-! ### A register file of 17 banks -/

/-- A supervisor hart with 0x10000000 in g1 and BANKS 17, a value that VCFG refuses (R76). -/
def deepHart : Hart :=
  let h := State.reset.bootHart
  { h with g := h.g.set 1 0x10000000, vcfg := 0x1102 }

/-- A mask register with the number `x` in the lanes of its first slot. -/
def maskHolding (x : Nat) : BitStore := { seed := 0, fills := [], known := 2 ^ 256 - 1, val := x }

/-- The same hart with bits in mask register 0 for which the mask array of grant index 0 begins with the byte `b`. -/
def maskedHart (b : Byte) : Hart :=
  { deepHart with m := deepHart.m.set 0 (maskHolding (b ^^^ Config.freeByte 0 0x10000).toNat) }

/-- The package with that hart alone, its pages mapped by `lowPages`. -/
def deepState (b : Byte) : State := { State.reset with harts := [(0, maskedHart b)], tlb := [lowPages] }

theorem deepHart_sup : deepHart.sup = true := by decide
theorem maskedHart_base (b : Byte) : ((maskedHart b).rg 1).toNat = 0x10000000 := (by decide : (deepHart.rg 1).toNat = _)
theorem maskedHart_gcount (b : Byte) : (maskedHart b).gcount = 1 := (by decide : deepHart.gcount = 1)
theorem maskedHart_banks (b : Byte) : fieldOf (maskedHart b).vcfg 8 5 = 17 := (by decide : fieldOf deepHart.vcfg 8 5 = 17)

theorem bankBytes_maskedHart (b : Byte) : (maskedHart b).bankBytes 0 = deepHart.bankBytes 0 :=
  Hart.bankBytes_congr rfl rfl 0

theorem get_maskHolding {x : Nat} (hx : x < 2 ^ 256) : (maskHolding x).get 0 256 = x := by
  have known : (maskHolding x).isKnown 0 256 = true := by
    have ones : bits (2 ^ 256 - 1) 0 256 = 2 ^ 256 - 1 := by decide +kernel
    rw [BitStore.isKnown, maskHolding, ones]
    decide +kernel
  rw [BitStore.get, if_pos known, bits, Nat.pow_zero, Nat.div_one]
  exact Nat.mod_eq_of_lt hx

theorem maskBytes_maskedHart (b : Byte) : ((maskedHart b).maskBytes 0)[0]? = some b := by
  have register : mreg (maskedHart b) 0 = maskHolding (b ^^^ Config.freeByte 0 0x10000).toNat := rfl
  have small : (b ^^^ Config.freeByte 0 0x10000).toNat < 2 ^ 256 := lt_trans (BitVec.isLt _) (by decide)
  obtain ⟨t, head⟩ := (maskedHart b).maskBytes_zero_cons
  rw [head, maskVeil_cons_head, register, Nat.zero_mul, Nat.mul_zero, Nat.add_zero, get_maskHolding small,
    BitVec.ofNat_toNat, BitVec.setWidth_eq, BitVec.xor_assoc, BitVec.xor_self, BitVec.xor_zero]

theorem unitsOf_frame_low : ∀ u ∈ unitsOf 0x10000000 0x898000, u < 2 ^ 29 := by decide +kernel

theorem walkAway_deepState (b : Byte) : (deepState b).walkAway ((maskedHart b).who 0) 0x10000000 0x898000 = false :=
  walkAway_lowPages rfl rfl unitsOf_frame_low

theorem frameRange_deepState (b : Byte) :
    FrameRange (deepState b) (maskedHart b) 0x10000000 .w fun o => 0x10000000 + o := by
  refine ⟨by decide, probe1_lowPages rfl rfl rfl unitsOf_frame_low, fun o ho => ?_⟩
  have low : 0x10000000 + o < 2 ^ 29 := by omega
  exact ⟨_, translate_lowPages rfl rfl low, rfl, by rw [pathOf_low low]; decide, lossless_low rfl low⟩

theorem exec_vframeSave_deepState (b : Byte) :
    exec (.vframeSave 0 1) (deepState b) = .next ((deepState b).saveFrame 0 (maskedHart b) 0 0x10000000) := by
  have saves := exec_vframeSave_saves (s := deepState b) (h := maskedHart b) 0 1 rfl deepHart_sup
  rw [maskedHart_base] at saves
  exact saves rfl (walkAway_deepState b) (frameCheck_lowPages rfl rfl rfl (by decide) unitsOf_frame_low) rfl fun _ => rfl

/-- The save leaves `b` at the place of the first byte of bank 16. -/
theorem read_save_deepState (b : Byte) :
    Memory.read ((deepState b).saveFrame 0 (maskedHart b) 0 0x10000000).mem (0x10000000 + 0x20000) = b := by
  have masks : ((deepState b).saveRecord 0 (maskedHart b)).hart.maskBytes 0 = (maskedHart b).maskBytes 0 :=
    Hart.maskBytes_congr rfl rfl rfl 0
  rw [State.saveFrame_mem (q := maskedHart b) _ _ _ rfl,
    read_frameFilled rfl rfl (by decide) (by decide) (maskedHart_gcount b) rfl rfl, masks, maskBytes_maskedHart,
    Option.getD_some]

/-- O26 asks that the first byte of bank 16 of the hart stand there. -/
theorem bank16_of_frameSave (claim : Obligations.FrameSave) (b : Byte) : some b = (deepHart.bankBytes 0)[0x10000]? := by
  have goes : ¬ ((maskedHart b).ilkHit (maskedHart b).seq 0x10000000 (0x10000000 + 0x898000) true [] = true ∨
      (deepState b).walkAway ((maskedHart b).who 0) 0x10000000 0x898000 = true) := by
    rw [walkAway_deepState]
    rintro (h | h) <;> exact Bool.noConfusion h
  have held : ∀ g ∈ (maskedHart b).groups, g.st ≠ .spilled :=
    (by decide : ∀ g ∈ deepHart.groups, g.st ≠ .spilled)
  have here := claim (deepState b) (maskedHart b) 0 1 (fun o => 0x10000000 + o) rfl deepHart_sup (by decide) (by decide)
  rw [maskedHart_base] at here
  obtain ⟨-, -, -, saves⟩ := here
  obtain ⟨t, -, -, -, -, run, -, -, -, -, -, -, -, -, -, -, -, -, -, -, -, -, -, -, -, -, -, -, -, -, -, -, -, -, -, -, -,
      -, -, -, -, -, -, -, -, -, -, -, -, banks, -⟩ :=
    saves goes (frameRange_deepState b) rfl (fun _ _ _ _ e => Nat.add_left_cancel e) (fun _ hv => absurd hv List.not_mem_nil)
      (fun _ hx => absurd hx List.not_mem_nil) rfl rfl held fun _ hv => absurd hv List.not_mem_nil
  obtain rfl : _ = t := Host.Outcome.next.inj ((exec_vframeSave_deepState b).symm.trans run)
  have bank := banks 0 0x10000 (by rw [maskedHart_gcount]; decide) (by rw [maskedHart_banks]; decide)
  rwa [show 0x10000 + 0 * 0x20000 + 0x10000 = 0x20000 from rfl, read_save_deepState, bankBytes_maskedHart] at bank

/-- Refutes O26: it leaves VCFG free. With BANKS 17 bank 16 begins where the region of the masks begins (R104), and the
save writes the masks there, whatever the bank holds: two masks that differ cannot both agree with it. -/
theorem not_frameSave : ¬ Obligations.FrameSave := fun claim =>
  absurd ((bank16_of_frameSave claim 0).trans (bank16_of_frameSave claim 1).symm) (by decide)

end Sys2Proof.Machine
end
